-- ==== Sys2Proof/Word.lean ====
section
/-! DEFINITION. The words of the Tacvor 816 and their plainest arithmetic: what the manual treats as bits is a
bit vector, what it numbers within a fixed bound is a `Fin`, and counts and grain spans are `Nat`. -/

namespace Sys2Proof

/-- One byte of a management record or of a frame. -/
abbrev Byte := BitVec 8

/-- A value of the 32-bit grain clock (R1). -/
abbrev Stamp := BitVec 32

/-- A 32-bit cycle number (R3). -/
abbrev CycleNo := BitVec 32

/-- A 32-bit saturating counter (R154). -/
abbrev Counter := BitVec 32

/-- A 48-bit destination or source address. -/
abbrev Mac := BitVec 48

/-- A port number, 0 to 7; it also names the egress, the ingress and the noise monitor of that port. -/
abbrev Port := Fin 8

/-- A stream number, 0 to 127. -/
abbrev StreamNo := Fin 128

/-- A frame class, 0 to 3 (R125). -/
abbrev ClassNo := Fin 4

/-- The model's handle of a stored frame: the frame buffer numbers the frames it stores. -/
abbrev FrameId := Nat

/-- A fixed number of like things, such as the eight port units. -/
abbrev Table (α : Type) (n : Nat) := Vector α n

/-- A table with one entry changed. -/
def Table.upd {α : Type} {n : Nat} (v : Table α n) (i : Fin n) (f : α → α) : Table α n :=
  v.set i (f v[i])

end Sys2Proof
end

