-- ==== Sys2Proof/Syntax.lean ====
section
/-! DEFINITION. The commands: one constructor per row of spec/opcode_table.json. A request row (IDENTIFY to
PROBE_CANCEL, and BAD_KIND) is the step in which the part TAKES the request at the head of its inbound queue (R175);
the request's operands are the tag and payload bytes of that record, which TRANSFER_END put there. -/

namespace Sys2Proof

/-- The two qualified input lines (R4). -/
inductive Line where
  | cyc
  | arc
  deriving DecidableEq, Repr

/-- A frame as it comes off a receive wire (R31): its bytes from the destination address through the FCS, so that
L is their number; whether a line code error was seen anywhere in it; and whether its FCS matches its contents. -/
structure RxFrame where
  bytes : List Byte
  symbolError : Bool
  fcsOk : Bool
  deriving DecidableEq, Repr

/-- The commands of the Tacvor 816. -/
inductive Instr where
  /-- RESET_N is released, with the level of MODE at that instant (R17, R180). -/
  | resetN (modeHigh : Bool)
  /-- SELN falls (R172). -/
  | transferStart
  /-- SELN rises; the whole bytes the host shifted in since SELN fell, the length byte first (R172, R173). -/
  | transferEnd (mosi : List Byte)
  | badKind
  | identify
  | restart
  | linkStatus
  | setSync
  | syncStatus
  | portConfig
  | portRestart
  | portStatus
  | setFilter
  | clearFlags
  | streamStatus
  | legStatus
  | place
  | release
  | setCycle
  | lock
  | timelineRead
  | addrAddStatic
  | addrRemove
  | addrFlush
  | addrRead
  | setAging
  | setArc
  | countersRead
  | countersClear
  | faultRead
  | faultUnlock
  | setCaptureMask
  | setNotice
  | probeArm
  | probeRead
  | probeCancel
  /-- The head of the finished-reply list enters the outbound queue (R94). -/
  | finishedReplyMove
  /-- The notice arbiter moves one pending notice into the outbound queue (R177). -/
  | noticePick
  /-- The phase reaches the scheduled end E (R3). -/
  | cycleStart
  /-- The cycle-end check whose miss brings the miss run to H in HOLDOVER (R13). -/
  | syncLost
  /-- The sample that qualifies a rise on CYC (R4, R7). -/
  | strobe
  /-- The sample that qualifies a fall on CYC (R4). -/
  | cycFall
  /-- The sample that qualifies a rise on ARC (R4, R142). -/
  | arcOn
  /-- The sample that qualifies a fall on ARC (R4, R142). -/
  | arcOff
  /-- The port's PHY reports the link down (R19). -/
  | linkDown (p : Port)
  /-- The port's PHY reports the link up at the planned speed (R19). -/
  | linkUp (p : Port)
  /-- The port's PHY reports the link up at the speed that is not the planned one (R19). -/
  | linkUpOtherSpeed (p : Port)
  /-- The frame being received on the port ends, and it was this frame (R31, R32). -/
  | frameEnd (p : Port) (frame : RxFrame)
  /-- A frame waiting at the egress reaches its ready time (R103). -/
  | readyTime (e : Port)
  /-- A primary window of the egress opens (R101). -/
  | windowOpen (e : Port)
  /-- The open primary window of the egress closes (R107). -/
  | windowClose (e : Port)
  /-- A twin window of the egress opens (R109). -/
  | twinWindowOpen (e : Port)
  /-- The open twin window of the egress closes (R111). -/
  | twinWindowClose (e : Port)
  /-- The frame or copy on the egress wire ends (R105, R117). -/
  | transmissionEnd (e : Port)
  /-- The current operation takes its next leg step (R74). -/
  | legStep
  /-- The current PLACE op ends (R87). -/
  | placeOpEnd
  /-- The current repair ends (R89). -/
  | repairEnd
  /-- The deadline count of the probe reaches 0 at the cycle start that is due (R168). -/
  | probeExpiry (q : Fin 4)
  /-- The aging count reaches A at the cycle start that is due (R130). -/
  | agingSweep
  /-- The port's quiet streak reaches Q at the cycle start that is due (R143). -/
  | quietCoolDown (p : Port)
  /-- The port's calm streak reaches Q at the cycle start that is due (R144). -/
  | calmCoolDown (p : Port)
  /-- The line filter takes a sample of its line, which is at this level (R4). -/
  | filterSample (line : Line) (level : Bool)
  /-- A start delimiter is seen on the port and the first byte of the destination address arrives (R31). -/
  | receptionStart (p : Port)
  /-- RESET_N is pulled low (R17). -/
  | resetNLow
  deriving DecidableEq, Repr

end Sys2Proof
end

