-- ==== Sys2Proof/Config.lean ====
section
/-! DEFINITION. What the manual fixes for the part, and the free values: what it leaves open. A free value is an
opaque constant, so nothing can be proved of it. -/

namespace Sys2Proof.Config

/-- Forwarding latency Δ in grains (R103). -/
def delta : Nat := 120

/-- The cycle tail: the last grains before phase M that hold no window (R64). -/
def cycleTail : Nat := 64

/-- The commit guard reaches this many grains back from the scheduled end (R86). -/
def guardSpan : Nat := 16384

/-- Cells of the motion pool (R122). -/
def motionCells : Nat := 512

/-- Cells of the best-effort pool (R122). -/
def bestEffortCells : Nat := 1536

/-- Positions of the address table (R126). -/
def addressPositions : Nat := 1024

/-- The most windows one timeline holds (R72). -/
def timelineSize : Nat := 256

/-- Entries of the host queue (R81). -/
def hostEntries : Nat := 8

/-- Places of the outbound queue (R174). -/
def outboundPlaces : Nat := 16

/-- The most notices the outbound queue holds (R174). -/
def outboundNotices : Nat := 12

/-- Places of the inbound queue (R175). -/
def inboundPlaces : Nat := 4

/-- A PLACE op ends within this many grains of being taken (R87). -/
def opBound : Nat := 18750

/-- FREE VALUE (log entry 7). The data bytes, after the reply code, of the reply with this serial number, for the
replies whose layout section 11.6 does not give. -/
opaque replyData : Nat → List Byte

/-- FREE VALUE (log entry 8). The byte at this payload offset of the record with this serial number, where the
field there is absent and section 11.6 names no filler (it names 0xFF for one-byte fields only). -/
opaque absentByte : Nat → Nat → Byte

/-- FREE VALUE (log entry 4). How many grains after its operation was taken the engine takes the leg step with
this number, when nothing commands it sooner; R87 bounds it and gives no value. -/
opaque legStepDelay : Nat → Nat

end Sys2Proof.Config
end

