-- ==== Sys2Proof/Machine/State.lean ====
section
/-! DEFINITION. The state of the Tacvor 816: every register, buffer, queue, counter and marker the manual gives the
part, as plain data, with the queue of commands that wait; and the machine right after reset. -/

namespace Sys2Proof.Machine

/-! ### Ports and links (chapter 2) -/

/-- A planned or live link speed: 100 or 1000 Mbit/s. -/
inductive Speed where
  | s100
  | s1000
  deriving DecidableEq, Repr

/-- The link state of a port: DOWN, UP_100 or UP_1000. -/
inductive LinkState where
  | down
  | up (speed : Speed)
  deriving DecidableEq, Repr

/-- The kinds of link event (R19). -/
inductive LinkEventKind where
  | linkDown
  | linkUpPlanned
  | linkUpOther
  deriving DecidableEq, Repr

/-- The last-link-event record (R19). -/
structure LinkEvent where
  kind : LinkEventKind
  grain : Stamp
  cycle : CycleNo
  deriving DecidableEq, Repr

/-- One VLAN filter window (section 2.6). -/
structure VlanWindow where
  base : Nat
  size : Nat
  enable : Bool
  deriving DecidableEq, Repr

/-- The six sticky flags of a port (R36). -/
inductive Flag where
  | linkLost
  | speedMismatch
  | noiseDisturbed
  | motionDrop
  | beDrop
  | filterHit
  deriving DecidableEq, Repr

/-- A port unit: link, settings, filter, flags, staging area and counters (the table at the head of chapter 2). -/
structure PortUnit where
  link : LinkState
  restartMarker : Bool
  lastEvent : Option LinkEvent
  planned : Speed
  ingressEnable : Bool
  hold : Bool
  arcExposed : Bool
  defaultClass : Nat
  beLimit : Nat
  mu : Nat
  tau : Nat
  kappa : Nat
  thetaW : Nat
  thetaD : Nat
  coolDown : Nat
  windows : Table VlanWindow 8
  untaggedAllowed : Bool
  flags : BitVec 6
  flagMask : BitVec 6
  /-- The staging area: the ingress start timestamp of the frame being received, if one is (R31, R123). -/
  receiving : Option Stamp
  counters : Table Counter 21
  deriving DecidableEq, Repr

/-! ### The cycle timer (chapter 1) -/

/-- A line filter (R4). `pin` is the level its line had when it was last sampled, and `sampled` says that the sample
of the present instant has been taken; both are the model's own. -/
structure LineFilter where
  accepted : Bool
  interval : Nat
  count : Nat
  stamp : Stamp
  pin : Bool
  sampled : Bool
  deriving DecidableEq, Repr

/-- The five sync states (section 1.3). -/
inductive SyncState where
  | disabled
  | acquiring
  | locked
  | holdover
  | lost
  deriving DecidableEq, Repr

/-- The cycle start a strobe is matched to (R7). -/
inductive StartRef where
  | current
  | next
  deriving DecidableEq, Repr

/-- What became of a strobe (R15). -/
inductive StrobeOutcome where
  | ignored
  | extra
  | corrected
  | outOfWindow
  | realigned
  deriving DecidableEq, Repr

/-- The last-strobe record (R15). -/
structure StrobeRecord where
  stamp : Stamp
  t : Int
  matched : Option StartRef
  epsilon : Option Int
  correction : Option Int
  outcome : StrobeOutcome
  deriving DecidableEq, Repr

/-- The cycle timer (section 1.1, section 1.3, R17). -/
structure Timer where
  grain : Stamp
  /-- The length in effect: M is `n` × 1000 grains (R2). -/
  n : Nat
  nextN : Option Nat
  cycle : CycleNo
  start : Stamp
  /-- The scheduled end E of the current cycle, in grains from its start. -/
  endE : Nat
  /-- The model's own: the commit guard had been reached when E last moved, so that it reaches on to the new E (R86). -/
  guarded : Bool
  /-- The next-cycle adjustment, −σ..0. -/
  adjust : Int
  sync : SyncState
  lambda : Nat
  sigma : Nat
  holdLimit : Nat
  currentMark : Bool
  nextMark : Bool
  realigned : Bool
  outRun : Nat
  missRun : Nat
  lastStrobe : Option StrobeRecord
  cyc : LineFilter
  deriving DecidableEq, Repr

/-! ### Motion streams (chapter 3) -/

/-- The states of a stream record that is not FREE (section 3.3). -/
inductive Stage where
  | queued
  | searching
  | placed
  | active
  | releasing
  deriving DecidableEq, Repr

/-- What a full slot does with a new frame (R42). -/
inductive Handling where
  | latest
  | sequenced
  deriving DecidableEq, Repr

/-- The twin setting of a stream (section 3.1). -/
inductive Twin where
  | off
  | armed
  | always
  deriving DecidableEq, Repr

/-- A stream's key (section 3.2); `none` is the VLAN NONE. -/
structure Key where
  ingress : Port
  dest : Mac
  vlan : Option Nat
  deriving DecidableEq, Repr

/-- A stream's description with its effective values (section 3.1, R41, R42). -/
structure Desc where
  key : Key
  egressSet : BitVec 8
  repeats : Nat
  rho : Nat
  bound : Nat
  lmax : Nat
  k : Nat
  handling : Handling
  twin : Twin
  missLimit : Nat
  deriving DecidableEq, Repr

/-- The state of a leg (R48). -/
inductive LegState where
  | live
  | dormant
  | mismatch
  | suspended
  deriving DecidableEq, Repr

/-- Where a leg's windows stand: primary start, twin start when twinned, window length. -/
structure Placement where
  s : Nat
  s2 : Option Nat
  w : Nat
  deriving DecidableEq, Repr

/-- Why a leg step refuses its leg (R74). -/
inductive Reason where
  | infeasible
  | noRoom
  | ceiling
  | tableFull
  deriving DecidableEq, Repr

/-- A repair re-places the legs that use a port as egress or as ingress (R79, R80). -/
inductive RepairKind where
  | egress
  | ingress
  deriving DecidableEq, Repr

/-- A pending placement (section 3.4): new figures, or SUSPEND with what LEG_SUSPENDED reports of it (R93). -/
inductive PendingPlacement where
  | place (p : Placement)
  | suspend (why : Reason) (kind : RepairKind) (port : Port)
  deriving DecidableEq, Repr

/-- A leg record (section 3.4). -/
structure Leg where
  egress : Port
  state : Option LegState
  placement : Option Placement
  pendingPl : Option PendingPlacement
  slot : List FrameId
  retained : List FrameId
  missStreak : Nat
  missNotified : Bool
  deriving DecidableEq, Repr

/-- A stream record that is not FREE (section 3.1). -/
structure Stream where
  stage : Stage
  desc : Desc
  alive : Nat
  firstActive : Option CycleNo
  releaseQueued : Bool
  legs : List Leg
  deriving DecidableEq, Repr

/-! ### Timelines and the reservation engine (chapters 4 and 5) -/

/-- A window is PRIMARY or TWIN. -/
inductive WindowKind where
  | primary
  | twin
  deriving DecidableEq, Repr

/-- A window record (R61). -/
structure Window where
  start : Nat
  stop : Nat
  stream : StreamNo
  occ : Nat
  kind : WindowKind
  deriving DecidableEq, Repr

/-- An accepted op of the host queue (R81). -/
inductive HostOp where
  | place (n : StreamNo)
  | release (n : StreamNo)
  deriving DecidableEq, Repr

/-- A host queue entry that is WAITING or DEFERRED: its op and the tag of its request (R81). -/
structure Entry where
  tag : Byte
  op : HostOp
  deriving DecidableEq, Repr

/-- A search refusal's figures (R77): no egress and the pool figures when the reason is POOL (`none`). -/
structure Refused where
  why : Option Reason
  egress : Option Port
  w : Nat
  e : Nat
  d : Nat
  deriving DecidableEq, Repr

/-- A PLACE op that is the current operation (R75, R87); its host queue entry is RUNNING. -/
structure PlaceRun where
  tag : Byte
  stream : StreamNo
  planM : Nat
  speeds : Table Speed 8
  todo : List Port
  held : List (Port × Placement)
  verdict : Option Refused
  deriving DecidableEq, Repr

/-- What a leg step makes of its leg (R74). -/
inductive LegResult where
  | placed (p : Placement)
  | refused (why : Reason)
  deriving DecidableEq, Repr

/-- A repair that is the current operation (R79, R80, R89): the streams below `nextStream` have been reached;
`within` is the stream an ingress repair is in the middle of, with its legs not yet examined. -/
structure RepairRun where
  kind : RepairKind
  port : Port
  planM : Nat
  speeds : Table Speed 8
  nextStream : Nat
  within : Option (StreamNo × List Port)
  aside : List (StreamNo × Port)
  results : List (StreamNo × Port × LegResult)
  examined : Bool
  deriving DecidableEq, Repr

/-- The current operation of the engine. -/
inductive CurrentOp where
  | place (r : PlaceRun)
  | repair (r : RepairRun)
  deriving DecidableEq, Repr

/-! ### Egress schedulers (chapter 6) -/

/-- The open window of an egress (section 6.1). `copies` are the copies of a used twin window that have neither started
nor been passed over (R110); `openedFree` says that the window opened released. -/
structure OpenWindow where
  window : Window
  openedFree : Bool
  released : Bool
  sent : Nat
  copies : List FrameId
  deriving DecidableEq, Repr

/-- What is on an egress wire. A motion frame or copy names its stream; `kept` says the frame stands in the leg's
twin-retained list, so that its end returns no reference (R105). -/
inductive WireKind where
  | motion (n : StreamNo) (kept : Bool)
  | copy (n : StreamNo)
  | bestEffort
  deriving DecidableEq, Repr

/-- The frame being sent, with its start instant and kind. -/
structure Transmission where
  frame : FrameId
  started : Stamp
  kind : WireKind
  deriving DecidableEq, Repr

/-- An egress scheduler (section 6.1). `nextWindow` counts the windows of the timeline that have opened in this pass;
`readyTaken` is the model's own: the READY_TIME of the present instant has been taken. -/
structure Egress where
  timeline : List Window
  nextWindow : Nat
  openWindow : Option OpenWindow
  wire : Option Transmission
  queues : Table (List FrameId) 4
  beCount : Nat
  readyTaken : Bool
  deriving DecidableEq, Repr

/-! ### Frame buffer and address table (chapter 7) -/

/-- The two pools of the frame buffer. -/
inductive Pool where
  | motion
  | bestEffort
  deriving DecidableEq, Repr

/-- A frame record with the bytes its cells hold (R122). `orphan` marks a motion frame whose stream became FREE after
it was stored (R57). -/
structure FrameRecord where
  id : FrameId
  pool : Pool
  cells : Nat
  refs : Nat
  len : Nat
  ingress : Port
  ingressStart : Stamp
  received : Stamp
  stream : Option StreamNo
  cls : Option ClassNo
  orphan : Bool
  bytes : List Byte
  deriving DecidableEq, Repr

/-- The frame buffer (R122, R156). `nextId` numbers the next frame stored (the model's own). -/
structure FrameBuffer where
  frames : List FrameRecord
  motionFree : Nat
  motionLow : Nat
  beFree : Nat
  beLow : Nat
  nextId : FrameId
  deriving DecidableEq, Repr

/-- The kinds of address table entry. -/
inductive EntryKind where
  | learned
  | static
  deriving DecidableEq, Repr

/-- An address table entry with its position (section 7.3). -/
structure AddrEntry where
  pos : Nat
  mac : Mac
  vlan : Option Nat
  port : Port
  kind : EntryKind
  age : Nat
  deriving DecidableEq, Repr

/-- The address table: its entries in ascending position, the aging interval A and the aging count. `swept` is the
model's own: the aging of the cycle start that is due has been made. -/
structure AddrTable where
  entries : List AddrEntry
  interval : Nat
  count : Nat
  swept : Bool
  deriving DecidableEq, Repr

/-! ### Noise monitors (chapter 8) -/

/-- The noise states of a port. -/
inductive NoiseState where
  | clean
  | watch
  | disturbed
  deriving DecidableEq, Repr

/-- A noise monitor (section 8.1); its thresholds and arc-exposed live in the port unit. `checked` is the model's own:
the cycle-end check of the cycle start that is due has been made. -/
structure Monitor where
  state : NoiseState
  count : Nat
  quiet : Nat
  calm : Nat
  checked : Bool
  deriving DecidableEq, Repr

/-- The last ARC edge record (R150). -/
structure ArcEdge where
  on : Bool
  stamp : Stamp
  cycle : CycleNo
  phase : Nat
  deriving DecidableEq, Repr

/-- The ARC line: its filter and its last edge (section 8.5). -/
structure ArcLine where
  filter : LineFilter
  lastEdge : Option ArcEdge
  deriving DecidableEq, Repr

/-- Why a noise state changed (R147). -/
inductive NoiseCause where
  | faultCount
  | arcOn
  | exposedSet
  | coolDown
  | portRestart
  deriving DecidableEq, Repr

/-! ### Fault unit (chapter 9) -/

/-- The fault causes (R152). -/
inductive Cause where
  | symbol
  | fcs
  | runt
  | oversize
  | ingressOff
  | filtered
  | streamOversize
  | noBuffer
  | late
  | stale
  | overrun
  | linkDown
  | mismatch
  | suspended
  | held
  | released
  | samePort
  | extraStrobe
  | outOfWindow
  | missedStrobe
  | realign
  | learnFull
  deriving DecidableEq, Repr

/-- The side a report names (R152). -/
inductive Side where
  | ingress
  | egress
  | none
  deriving DecidableEq, Repr

/-- The fields of the first-fault record (section 9.4). -/
structure FaultRecord where
  cause : Cause
  side : Side
  port : Option Port
  stream : Option StreamNo
  cycle : CycleNo
  phase : Nat
  grain : Stamp
  deriving DecidableEq, Repr

/-- A report on its way to the fault unit: the record's fields, with the ingress port of a best-effort drop for one
egress and the timestamp of a strobe (R138, R16), which the fault unit uses for nothing; `cutOff` says that it is the
report of a frame or copy cut off on the wire, which has its own turn (R152). -/
structure Report where
  fields : FaultRecord
  ingress : Option Port
  strobe : Option Stamp
  cutOff : Bool
  deriving DecidableEq, Repr

/-- The fault unit: the first-fault record (`none` is OPEN), the capture mask, and the reports of the event being
taken, which are all taken before the event is over (R152, R160). -/
structure FaultUnit where
  record : Option FaultRecord
  mask : BitVec 22
  inbox : List Report
  deriving DecidableEq, Repr

/-! ### Probes (chapter 10) -/

/-- What a probe holds in every state but IDLE (section 10.1). -/
structure Watch where
  stream : StreamNo
  egress : Port
  armCycle : CycleNo
  remaining : Nat
  deriving DecidableEq, Repr

/-- A capture record (R166). -/
structure Capture where
  cycle : CycleNo
  ingressStart : Stamp
  egressStart : Stamp
  residence : Stamp
  windowStart : Nat
  startPhase : Nat
  slack : Nat
  len : Nat
  noise : NoiseState
  deriving DecidableEq, Repr

/-- A frame probe with its state (section 10.1). -/
inductive Probe where
  | idle
  | armed (w : Watch)
  | captured (w : Watch) (endCycle : CycleNo) (c : Capture)
  | expired (w : Watch) (endCycle : CycleNo)
  | cancelled (w : Watch) (endCycle : CycleNo)
  deriving DecidableEq, Repr

/-- The state of a probe, without what it holds. -/
inductive ProbeState where
  | idle
  | armed
  | captured
  | expired
  | cancelled
  deriving DecidableEq, Repr

/-! ### The management link (chapter 11) -/

/-- MODE as sampled at the release of RESET_N (R180). -/
inductive StartMode where
  | openStart
  | closedStart
  deriving DecidableEq, Repr

/-- Reply codes (section 11.5). -/
inductive Code where
  | ok
  | badKind
  | badLength
  | badField
  | busy
  | locked
  | exists
  | noSuch
  | notEmpty
  | state
  | infeasible
  | noRoom
  | ceiling
  | pool
  | tableFull
  | full
  | cancelled
  deriving DecidableEq, Repr

/-- Notice kinds (R176). -/
inductive NoticeKind where
  | syncState
  | legSuspended
  | legMissing
  | linkState
  | noiseState
  | firstFault
  | probeDone
  | learnFull
  deriving DecidableEq, Repr

/-- The data of a notice by kind (section 11.6). -/
inductive NoticeData where
  | syncState (new old : SyncState) (phase : Nat)
  | legSuspended (n : StreamNo) (e : Port) (why : Reason) (kind : RepairKind) (port : Port)
  | legMissing (n : StreamNo) (e : Port) (streak limit phase : Nat)
  | linkState (p : Port) (link : LinkState) (planned : Speed)
  | noiseState (p : Port) (new old : NoiseState) (cause : NoiseCause) (count phase : Nat)
  | firstFault (r : FaultRecord)
  | probeDone (q : Fin 4) (n : StreamNo) (e : Port) (captured : Option (Stamp × Nat))
  | learnFull (p : Port) (source : Mac) (vlan : Option Nat)
  deriving DecidableEq, Repr

/-- A notice: repeat count, cycle number and data (R176). -/
structure Notice where
  repeats : Nat
  cycle : CycleNo
  data : NoticeData
  deriving DecidableEq, Repr

/-- A notice source: arbitration number and pending set (R176). -/
structure NoticeSource where
  number : Nat
  pending : List Notice
  deriving DecidableEq, Repr

/-- A request in the inbound queue: kind, tag and payload (section 11.6). -/
structure Request where
  kind : Byte
  tag : Byte
  payload : List Byte
  deriving DecidableEq, Repr

/-- A search refusal as its reply carries it (R77, section 11.5). -/
structure SearchReply where
  stream : StreamNo
  refused : Refused
  lmax : Nat
  bound : Nat
  deriving DecidableEq, Repr

/-- The items of LINK_STATUS (R179). -/
structure LinkStatusReply where
  short : Counter
  crc : Counter
  overflow : Counter
  form : Counter
  unrouted : Counter
  requests : Nat
  records : Nat
  notices : Nat
  sources : List (Nat × List NoticeKind)
  deriving DecidableEq, Repr

/-- The items of the SET_SYNC reply (R14). -/
structure SyncSetReply where
  lambda : Nat
  sigma : Nat
  holdLimit : Nat
  interval : Nat
  enable : Bool
  sync : SyncState
  deriving DecidableEq, Repr

/-- The items of SYNC_STATUS (R15). -/
structure SyncStatusReply where
  settings : SyncSetReply
  m : Nat
  nextM : Option Nat
  cycle : CycleNo
  phase : Nat
  endE : Nat
  adjust : Int
  currentMark : Bool
  nextMark : Bool
  realigned : Bool
  outRun : Nat
  missRun : Nat
  grain : Stamp
  lastStrobe : Option StrobeRecord
  deriving DecidableEq, Repr

/-- The effective settings of a port (R26, R30). -/
structure PortSettings where
  planned : Speed
  ingressEnable : Bool
  hold : Bool
  arcExposed : Bool
  defaultClass : Nat
  beLimit : Nat
  mu : Nat
  tau : Nat
  kappa : Nat
  thetaW : Nat
  thetaD : Nat
  coolDown : Nat
  flagMask : BitVec 6
  deriving DecidableEq, Repr

/-- The items of PORT_STATUS (R30). -/
structure PortStatusReply where
  link : LinkState
  restartMarker : Bool
  lastEvent : Option LinkEvent
  settings : PortSettings
  flags : BitVec 6
  noise : NoiseState
  beCount : Nat
  live : Nat
  dormant : Nat
  mismatch : Nat
  suspended : Nat
  deriving DecidableEq, Repr

/-- The items of STREAM_STATUS for a stream that is not FREE (R58). -/
structure StreamStatusReply where
  stage : Stage
  desc : Desc
  cells : Nat
  alive : Nat
  firstActive : Option CycleNo
  releaseQueued : Bool
  legs : List (Port × Option LegState)
  unreserved : Counter
  deriving DecidableEq, Repr

/-- The items of LEG_STATUS (R59). -/
structure LegStatusReply where
  stage : Stage
  state : Option LegState
  placement : Option Placement
  pendingPl : Option PendingPlacement
  slot : Nat
  retained : Nat
  missStreak : Nat
  missNotified : Bool
  deriving DecidableEq, Repr

/-- One leg of a PLACED reply (R92); a SUSPENDED leg has no placement. -/
structure PlacedLeg where
  egress : Port
  state : Option LegState
  placement : Option Placement
  deriving DecidableEq, Repr

/-- A PLACED reply (R92), or one record of a pair: part 0 single, 1 first, 2 second (section 11.6). -/
structure PlacedReply where
  stream : StreamNo
  part : Nat
  firstActive : CycleNo
  lmax : Nat
  bound : Nat
  handling : Handling
  legs : List PlacedLeg
  deriving DecidableEq, Repr

/-- The items of TIMELINE_READ (R97). -/
structure TimelineReply where
  egress : Port
  lastCommit : Option CycleNo
  count : Nat
  reserved : Nat
  index : Nat
  records : List Window
  deriving DecidableEq, Repr

/-- One port's line of the SET_ARC reply (R149). -/
structure ArcPort where
  exposed : Bool
  state : NoiseState
  count : Nat
  quiet : Nat
  calm : Nat
  deriving DecidableEq, Repr

/-- The items of the SET_ARC reply (R149). -/
structure ArcReply where
  interval : Nat
  level : Bool
  lastEdge : Option ArcEdge
  ports : List ArcPort
  deriving DecidableEq, Repr

/-- A counter group instance (R155). -/
inductive CounterGroup where
  | port (p : Port)
  | stream (n : StreamNo)
  | leg (n : StreamNo) (e : Port)
  | device
  deriving DecidableEq, Repr

/-- The replies of the part, each with the items its rule gives it. -/
inductive Reply where
  | plain (c : Code)
  | badKind (kind : Byte)
  | badLength (expected : Nat)
  | badField (offset : Nat)
  | search (r : SearchReply)
  | identity (part : BitVec 16) (revision : Nat) (mode : StartMode) (locked : Bool)
  | restarted (mode : StartMode)
  | linkStatus (r : LinkStatusReply)
  | syncSet (r : SyncSetReply)
  | syncStatus (r : SyncStatusReply)
  | portConfigured (p : Port) (r : PortSettings) (repairs : Bool)
  | portRestarted (p : Port) (link : LinkState)
  | portStatus (p : Port) (r : PortStatusReply)
  | filterSet (p : Port) (untagged : Bool) (windows : List (VlanWindow × Nat))
  | flags (p : Port) (flags : BitVec 6)
  | streamFree
  | streamStatus (r : StreamStatusReply)
  | legStatus (r : LegStatusReply)
  | placed (r : PlacedReply)
  | released (n : StreamNo) (cycle : CycleNo)
  | cycleSet (n m nextM : Nat)
  | timeline (r : TimelineReply)
  | addrAdded (pos : Nat) (p : Port) (before : Option EntryKind)
  | addrRemoved (pos : Nat) (p : Port) (kind : EntryKind)
  | addrFlushed (removed left : Nat)
  | addrPage (count : Nat) (entries : List AddrEntry) (next : Nat)
  | agingSet (interval : Nat)
  | arc (r : ArcReply)
  | counters (group : CounterGroup) (index : Nat) (values : List Nat)
  | countersCleared (group : CounterGroup)
  | fault (record : Option FaultRecord) (mask : BitVec 22)
  | captureMask (mask : BitVec 22) (locked : Bool)
  | noticeSet (source number discarded : Nat)
  | probeArmed (q : Fin 4) (deadline : Nat) (armCycle : CycleNo) (before : ProbeState)
  | probe (q : Fin 4) (p : Probe)
  | probeCancelled (before : ProbeState)
  deriving DecidableEq, Repr

/-- What an outbound record holds. -/
inductive RecordBody where
  | reply (kind tag : Byte) (r : Reply)
  | notice (source : Fin 12) (n : Notice)
  deriving DecidableEq, Repr

/-- A record of the outbound queue; `serial` numbers the records (the model's own, for the free bytes). -/
structure OutRecord where
  serial : Nat
  body : RecordBody
  deriving DecidableEq, Repr

/-- A finished reply of the finished-reply list (R81); its host queue entry is FINISHED. -/
structure FinishedReply where
  kind : Byte
  tag : Byte
  body : Reply
  deriving DecidableEq, Repr

/-- A transfer in progress (R172): the record latched at its start, `none` for a null record; `detached` once a
RESTART has emptied the queue it stood in (R180). -/
structure Transfer where
  latched : Option OutRecord
  detached : Bool
  deriving DecidableEq, Repr

/-- The reservation engine (section 5.1). A host queue entry is WAITING in `waiting`, RUNNING as the PLACE op in
`current`, DEFERRED in `deferred` and FINISHED in `finished`. `mark` and `steps` are the model's own: since when the
present leg steps may take, and how many leg steps have been taken. -/
structure Engine where
  timelines : Table (List Window) 8
  pool : Nat
  waiting : List Entry
  current : Option CurrentOp
  deferred : List Entry
  finished : List FinishedReply
  egressRepairs : Table Bool 8
  ingressRepairs : Table Bool 8
  commitDue : Bool
  locked : Bool
  lastCommit : Option CycleNo
  mark : Stamp
  steps : Nat
  deriving DecidableEq, Repr

/-- The management link (R181), with its five link counters. `serial` numbers the next outbound record. -/
structure MgmtLink where
  transfer : Option Transfer
  inbound : List Request
  outbound : List OutRecord
  sources : Table NoticeSource 12
  short : Counter
  crc : Counter
  overflow : Counter
  form : Counter
  unrouted : Counter
  mode : StartMode
  serial : Nat
  deriving DecidableEq, Repr

/-- The state of the part. -/
structure State where
  /-- RESET_N is held low (R17). -/
  resetLow : Bool
  timer : Timer
  ports : Table PortUnit 8
  streams : Table (Option Stream) 128
  streamCounters : Table (Table Counter 3) 128
  legCounters : Table (Table Counter 13) 1024
  engine : Engine
  egress : Table Egress 8
  buffer : FrameBuffer
  addr : AddrTable
  noise : Table Monitor 8
  arc : ArcLine
  fault : FaultUnit
  /-- Items 0 to 27 of the device group (R155); the pool figures are in `buffer`. -/
  deviceCounters : Table Counter 28
  probes : Table Probe 4
  mgmt : MgmtLink
  /-- The commands that wait, first in, first out. -/
  pending : List Instr
  deriving DecidableEq, Repr

/-- The machine never stops with a fault: the manual gives every command an effect, also where it drops a frame,
discards a record or refuses a request. No constructor; nothing raises one. -/
inductive Fault where
  deriving DecidableEq, Repr

/-- Why a command has no meaning. -/
inductive Refusal where
  /-- Raised by an arm of `exec` whose command has no meaning yet; no arm of this model raises it. Safe. -/
  | notModelled (mnemonic : String)
  deriving DecidableEq, Repr

/-! ### Reset values -/

/-- A port unit after reset (the table at the head of chapter 2); MODE decides the ingress enable (R38). -/
def PortUnit.reset (mode : StartMode) : PortUnit where
  link := .down
  restartMarker := false
  lastEvent := none
  planned := .s1000
  ingressEnable := mode == .openStart
  hold := false
  arcExposed := false
  defaultClass := 0
  beLimit := 384
  mu := 16
  tau := 512
  kappa := 75
  thetaW := 4
  thetaD := 16
  coolDown := 8
  windows := .replicate 8 ⟨0, 16, false⟩
  untaggedAllowed := true
  flags := 0
  flagMask := .allOnes 6
  receiving := none
  counters := .replicate 21 0

/-- A line filter after reset (R5); its line keeps its level. -/
def LineFilter.reset (pin : Bool) : LineFilter where
  accepted := false
  interval := 16
  count := 0
  stamp := 0
  pin := pin
  sampled := false

/-- The cycle timer after reset (R17). -/
def Timer.reset (cycPin : Bool) : Timer where
  grain := 0
  n := 125
  nextN := none
  cycle := 0
  start := 0
  endE := 125000
  guarded := false
  adjust := 0
  sync := .disabled
  lambda := 250
  sigma := 16
  holdLimit := 16
  currentMark := false
  nextMark := false
  realigned := false
  outRun := 0
  missRun := 0
  lastStrobe := none
  cyc := .reset cycPin

/-- The engine after reset (R98). -/
def Engine.reset : Engine where
  timelines := .replicate 8 []
  pool := 0
  waiting := []
  current := none
  deferred := []
  finished := []
  egressRepairs := .replicate 8 false
  ingressRepairs := .replicate 8 false
  commitDue := false
  locked := false
  lastCommit := none
  mark := 0
  steps := 0

/-- An egress scheduler after reset (R99). -/
def Egress.reset : Egress where
  timeline := []
  nextWindow := 0
  openWindow := none
  wire := none
  queues := .replicate 4 []
  beCount := 0
  readyTaken := false

/-- The frame buffer after reset (R122, R156). -/
def FrameBuffer.reset : FrameBuffer where
  frames := []
  motionFree := Config.motionCells
  motionLow := Config.motionCells
  beFree := Config.bestEffortCells
  beLow := Config.bestEffortCells
  nextId := 0

/-- The notice sources after reset: SYNC 15, ENGINE 14, every other source 0 (R176, R181). -/
def resetSources : Table NoticeSource 12 :=
  ((Vector.replicate 12 (⟨0, []⟩ : NoticeSource)).set 0 ⟨15, []⟩).set 9 ⟨14, []⟩

/-- The management link after reset (R181). -/
def MgmtLink.reset (mode : StartMode) : MgmtLink where
  transfer := none
  inbound := []
  outbound := []
  sources := resetSources
  short := 0
  crc := 0
  overflow := 0
  form := 0
  unrouted := 0
  mode := mode
  serial := 0

/-- Every block at its reset values, with MODE as sampled and the input lines at their levels. -/
def State.resetAs (mode : StartMode) (cycPin arcPin : Bool) : State where
  resetLow := false
  timer := .reset cycPin
  ports := .replicate 8 (.reset mode)
  streams := .replicate 128 none
  streamCounters := .replicate 128 (.replicate 3 0)
  legCounters := .replicate 1024 (.replicate 13 0)
  engine := .reset
  egress := .replicate 8 .reset
  buffer := .reset
  addr := ⟨[], 1000, 0, false⟩
  noise := .replicate 8 ⟨.clean, 0, 0, 0, false⟩
  arc := ⟨.reset arcPin, none⟩
  fault := ⟨none, (.allOnes 22) ^^^ (1#22 <<< 5), []⟩
  deviceCounters := .replicate 28 0
  probes := .replicate 4 .idle
  mgmt := .reset mode
  pending := []

/-- The machine right after RESET_N is released (R17, R38, R98, R99, R139, R159, R164, R181). MODE was low, and the
lines CYC and ARC are low (DESIGN CHOICE, log entry 1: the manual fixes no pin's level). -/
def State.reset : State := State.resetAs .openStart false false

end Sys2Proof.Machine
end

