-- ==== Sys2Proof/Machine/Ops.lean ====
section
/-! DEFINITION. The named operations that every block shares: changing one block of the state, the clock, wire
times, the byte order of records, raising a notice, and taking a request and replying to it. -/

namespace Sys2Proof.Machine

/-! ### Changing one block -/

def State.modTimer (f : Timer → Timer) (s : State) : State := { s with timer := f s.timer }

def State.modPort (p : Port) (f : PortUnit → PortUnit) (s : State) : State :=
  { s with ports := Table.upd s.ports p f }

def State.setStream (n : StreamNo) (x : Option Stream) (s : State) : State :=
  { s with streams := Table.upd s.streams n fun _ => x }

def State.modEngine (f : Engine → Engine) (s : State) : State := { s with engine := f s.engine }

def State.modEgress (e : Port) (f : Egress → Egress) (s : State) : State :=
  { s with egress := Table.upd s.egress e f }

def State.modBuffer (f : FrameBuffer → FrameBuffer) (s : State) : State := { s with buffer := f s.buffer }

def State.modAddr (f : AddrTable → AddrTable) (s : State) : State := { s with addr := f s.addr }

def State.modNoise (p : Port) (f : Monitor → Monitor) (s : State) : State :=
  { s with noise := Table.upd s.noise p f }

def State.modArc (f : ArcLine → ArcLine) (s : State) : State := { s with arc := f s.arc }

def State.modFault (f : FaultUnit → FaultUnit) (s : State) : State := { s with fault := f s.fault }

def State.setProbe (q : Fin 4) (x : Probe) (s : State) : State :=
  { s with probes := Table.upd s.probes q fun _ => x }

def State.modMgmt (f : MgmtLink → MgmtLink) (s : State) : State := { s with mgmt := f s.mgmt }

/-- The record of a stream that is not FREE is changed; a FREE record stays FREE. -/
def State.modStream (n : StreamNo) (f : Stream → Stream) (s : State) : State :=
  s.setStream n (s.streams[n].map f)

/-- The leg of stream n on egress e, if there is one. -/
def State.leg (s : State) (n : StreamNo) (e : Port) : Option Leg :=
  s.streams[n].bind fun t => t.legs.find? fun l => l.egress == e

/-- The leg of stream n on egress e is changed. -/
def State.modLeg (n : StreamNo) (e : Port) (f : Leg → Leg) (s : State) : State :=
  s.modStream n fun t => { t with legs := t.legs.map fun l => if l.egress == e then f l else l }

/-! ### Numbers of ports, streams and probes in ascending order -/

def allPorts : List Port := [0, 1, 2, 3, 4, 5, 6, 7]

def allStreams : List StreamNo := List.finRange 128

def allProbes : List (Fin 4) := [0, 1, 2, 3]

/-- An operation made for each number of a list, in order. -/
def forAll {α : Type} (xs : List α) (f : α → State → State) (s : State) : State :=
  xs.foldl (fun t x => f x t) s

/-! ### Counters -/

/-- A saturating count (R154). -/
def satInc (c : Counter) : Counter := if c = BitVec.allOnes 32 then c else c + 1

/-- Several counts of a saturating counter. -/
def satAdd (c : Counter) (k : Nat) : Counter := Nat.repeat satInc k c

/-! ### Time -/

/-- The cycle phase: the grain clock minus the current cycle's start instant, modulo 2^32 (section 1.1). -/
def State.phase (s : State) : Nat := (s.timer.grain - s.timer.start).toNat

/-- M, the master cycle length in effect (R2). -/
def Timer.m (t : Timer) : Nat := t.n * 1000

/-- The commit guard as the cycle timer sees it: it had been reached when E last moved, or the phase lies in its span
now (R86). -/
def Timer.inGuard (t : Timer) : Bool :=
  t.guarded || decide (t.endE ≤ (t.grain - t.start).toNat + Config.guardSpan)

/-- The scheduled end moves (R10, R12); a commit guard that has been reached stays (R86). -/
def Timer.moveEnd (e : Nat) (t : Timer) : Timer := { t with endE := e, guarded := t.inGuard }

/-- The planning length (R60): the next length waiting, otherwise the M in effect. -/
def State.planM (s : State) : Nat := s.timer.nextN.getD s.timer.n * 1000

/-- The grains since an instant of the grain clock, modulo 2^32 (R1). -/
def State.since (s : State) (t : Stamp) : Nat := (s.timer.grain - t).toNat

/-- The phase has reached the scheduled end: a cycle start is due (R3). -/
def State.cycleDue (s : State) : Bool := decide (s.timer.endE ≤ s.phase)

/-- The commit guard: from phase E − 16,384 up to the cycle start; once reached it lasts until then, also when E grows
(R86). -/
def State.inGuard (s : State) : Bool := s.timer.inGuard

/-- One grain passes on an idle part (R1): the grain clock counts, unless RESET_N is low (R17), and a new instant begins
for the line samples and the ready times. -/
def tick (s : State) : State :=
  if s.resetLow then s else
  { s with
    timer := { s.timer with grain := s.timer.grain + 1, cyc := { s.timer.cyc with sampled := false } }
    arc := { s.arc with filter := { s.arc.filter with sampled := false } }
    egress := s.egress.map fun x => { x with readyTaken := false } }

/-! ### Wire times and cells -/

/-- The speed factor: grains per byte on the wire. -/
def Speed.factor : Speed → Nat
  | .s100 => 10
  | .s1000 => 1

def Speed.other : Speed → Speed
  | .s100 => .s1000
  | .s1000 => .s100

/-- The live speed factor of a link that is UP (R23). -/
def LinkState.factor : LinkState → Option Nat
  | .down => none
  | .up x => some x.factor

/-- T(L, g) of the opening file's table. -/
def wireTime (len g : Nat) : Nat := (len + 20) * g

/-- ceil(a / b). -/
def ceilDiv (a b : Nat) : Nat := (a + b - 1) / b

/-- Cells a frame of length L takes (R122). -/
def cellsOf (len : Nat) : Nat := ceilDiv len 128

/-- Cells reserved by a stream (R41). -/
def Desc.cells (d : Desc) : Nat := 2 * d.k * ceilDiv d.lmax 128

/-- A value clamped to a range. -/
def clamp (lo hi v : Nat) : Nat := max lo (min hi v)

/-- Grains to the nearest sampling interval; a value exactly between two takes the larger (R14, R149). -/
def nearestInterval (v : Nat) : Nat :=
  if v < 12 then 8 else if v < 24 then 16 else if v < 48 then 32 else 64

/-! ### Byte order -/

/-- A number as `k` bytes, most significant byte first (the conventions of the opening file). -/
def beBytes : Nat → Nat → List Byte
  | 0, _ => []
  | k + 1, v => BitVec.ofNat 8 (v / 256 ^ k) :: beBytes k v

/-- The number that bytes spell, most significant byte first. -/
def beValue (bs : List Byte) : Nat := bs.foldl (fun a b => a * 256 + b.toNat) 0

/-- One shift of the CRC register (R173). -/
def crcShift (c : BitVec 16) : BitVec 16 := if c.msb then (c <<< 1) ^^^ 0x1021#16 else c <<< 1

/-- One byte into the CRC register, most significant bit first. -/
def crcByte (c : BitVec 16) (b : Byte) : BitVec 16 :=
  Nat.repeat crcShift 8 (c ^^^ (b.setWidth 16 <<< 8))

/-- The record CRC: polynomial 0x1021, initial value 0xFFFF, no final inversion (R173). -/
def crc16 (bs : List Byte) : BitVec 16 := bs.foldl crcByte 0xFFFF#16

/-! ### Notices -/

def NoticeData.kind : NoticeData → NoticeKind
  | .syncState .. => .syncState
  | .legSuspended .. => .legSuspended
  | .legMissing .. => .legMissing
  | .linkState .. => .linkState
  | .noiseState .. => .noiseState
  | .firstFault .. => .firstFault
  | .probeDone .. => .probeDone
  | .learnFull .. => .learnFull

/-- The fixed level of a notice kind (R176). -/
def NoticeKind.level : NoticeKind → Nat
  | .syncState => 7
  | .legSuspended => 6
  | .legMissing => 6
  | .linkState => 5
  | .noiseState => 4
  | .firstFault => 3
  | .probeDone => 2
  | .learnFull => 1

/-- The source indices of R176. -/
def srcSync : Fin 12 := 0
def srcPort (p : Port) : Fin 12 := ⟨p.val + 1, by omega⟩
def srcEngine : Fin 12 := 9
def srcFault : Fin 12 := 10
def srcProbe : Fin 12 := 11

/-- A routed notice joins a pending set, or the pending notice of its kind (R176). -/
def joinPending (cycle : CycleNo) (d : NoticeData) : List Notice → List Notice
  | [] => [⟨1, cycle, d⟩]
  | x :: xs =>
    if x.data.kind = d.kind then ⟨min 255 (x.repeats + 1), cycle, d⟩ :: xs
    else x :: joinPending cycle d xs

/-- A block raises a notice at a source (R176). -/
def raise (src : Fin 12) (cycle : CycleNo) (d : NoticeData) (s : State) : State :=
  s.modMgmt fun m =>
    if m.sources[src].number = 0 then { m with unrouted := satInc m.unrouted }
    else { m with sources := Table.upd m.sources src fun x => { x with pending := joinPending cycle d x.pending } }

/-! ### The outbound queue and taking a request -/

def RecordBody.isNotice : RecordBody → Bool
  | .notice .. => true
  | .reply .. => false

/-- The notices in the outbound queue. -/
def MgmtLink.notices (m : MgmtLink) : Nat := m.outbound.countP fun r => r.body.isNotice

/-- ATTN is high while the outbound queue holds a record (R174). -/
def State.attn (s : State) : Bool := !s.mgmt.outbound.isEmpty

/-- A record enters the back of the outbound queue. -/
def push (b : RecordBody) (s : State) : State :=
  s.modMgmt fun m => { m with outbound := m.outbound ++ [⟨m.serial, b⟩], serial := m.serial + 1 }

/-- A place of the outbound queue is offered to the request at the head of the inbound queue: a place is free, and the
finished-reply list, which claims first, is empty (R174). -/
def State.requestOffered (s : State) : Bool :=
  s.engine.finished.isEmpty && decide (s.mgmt.outbound.length < Config.outboundPlaces)

/-- Reply kind: the request kind plus 0x80 (R175). -/
def replyKind (kind : Byte) : Byte := kind + 0x80

/-- The reply to a request, in the place the request was offered (R175). -/
def answer (q : Request) (r : Reply) (s : State) : State := push (.reply (replyKind q.kind) q.tag r) s

/-- The request at the head of the inbound queue, when it is of this kind and is taken at this instant (R175):
RESET_N is high and a place is offered. -/
def State.takes (s : State) (kind : Byte) : Option (Request × List Request) :=
  match s.mgmt.inbound with
  | [] => none
  | q :: rest =>
    if !s.resetLow && s.requestOffered && q.kind == kind then some (q, rest) else none

/-- Taking a request of this kind (R175): it leaves the inbound queue, its length is checked, and the rule that owns it
carries it out. Where the head of the queue is another request, or none is taken at this instant, nothing happens. -/
def taking (kind : Byte) (len : Nat) (run : Request → State → State) (s : State) : State :=
  match s.takes kind with
  | none => s
  | some (q, rest) =>
    let s := s.modMgmt fun m => { m with inbound := rest }
    if q.payload.length = len then run q s else answer q (.badLength len) s

/-- The reply code of a search refusal (section 11.5); one of the pool has no reason of a leg step. -/
def refusalCode : Option Reason → Code
  | some .infeasible => .infeasible
  | some .noRoom => .noRoom
  | some .ceiling => .ceiling
  | some .tableFull => .tableFull
  | none => .pool

/-- A refusal with its code alone. -/
def refuse (q : Request) (c : Code) (s : State) : State := answer q (.plain c) s

/-- A BAD_FIELD refusal, naming the failing field's offset in the payload (section 11.5). -/
def badField (q : Request) (offset : Nat) (s : State) : State := answer q (.badField offset) s

/-- A part whose RESET_N is low takes no step (log entry 2). -/
def running (f : State → State) (s : State) : State := if s.resetLow then s else f s

end Sys2Proof.Machine
end

