-- ==== Sys2Proof/Machine/Operands.lean ====
section
/-! DEFINITION. The operand forms: the fields of request payloads (section 11.5, section 11.6), and the fields of a
received frame (R31). -/

namespace Sys2Proof.Machine

/-! ### Fields of a request payload -/

/-- The byte at an offset of the payload. -/
def Request.b (q : Request) (i : Nat) : Nat := (q.payload.getD i 0).toNat

/-- The field of `k` bytes at an offset of the payload, most significant byte first. -/
def Request.field (q : Request) (i k : Nat) : Nat := beValue ((q.payload.drop i).take k)

/-- A number as a port, where it is one. -/
def asPort (v : Nat) : Option Port := if h : v < 8 then some ⟨v, h⟩ else none

/-- A number as a stream number, where it is one. -/
def asStream (v : Nat) : Option StreamNo := if h : v < 128 then some ⟨v, h⟩ else none

/-- A number as a probe number, where it is one. -/
def asProbe (v : Nat) : Option (Fin 4) := if h : v < 4 then some ⟨v, h⟩ else none

/-- A number as a notice source index, where it is one. -/
def asSource (v : Nat) : Option (Fin 12) := if h : v < 12 then some ⟨v, h⟩ else none

/-- A VLAN field: 0 stands for NONE (R40, R132). -/
def asVlan (v : Nat) : Option Nat := if v = 0 then none else some v

/-- A field that must be 0 or 1. -/
def isBit (v : Nat) : Bool := decide (v ≤ 1)

def asSpeed (v : Nat) : Option Speed := if v = 100 then some .s100 else if v = 1000 then some .s1000 else none

def asHandling (v : Nat) : Option Handling :=
  if v = 0 then some .latest else if v = 1 then some .sequenced else none

def asTwin (v : Nat) : Option Twin :=
  if v = 0 then some .off else if v = 1 then some .armed else if v = 2 then some .always else none

/-- The ports an egress set marks, ascending; bit p marks port p (section 11.6). -/
def portsOf (set : BitVec 8) : List Port := allPorts.filter fun p => set.getLsbD p.val

/-- The counter group of COUNTERS_READ and COUNTERS_CLEAR with its selector (R157, section 11.6), or the offset of the
field that fails; of a stream and a port that both fail, the stream's (DESIGN CHOICE, log entry 32). -/
def Request.group (q : Request) : Except Nat CounterGroup :=
  match q.b 0 with
  | 0 => match asPort (q.b 2) with
    | some p => .ok (.port p)
    | none => .error 2
  | 1 => match asStream (q.b 1) with
    | some n => .ok (.stream n)
    | none => .error 1
  | 2 => match asStream (q.b 1), asPort (q.b 2) with
    | some n, some e => .ok (.leg n e)
    | none, _ => .error 1
    | some _, none => .error 2
  | 3 => .ok .device
  | _ => .error 0

/-- The stream description of a PLACE request, after the field checks of R40 in their order and the adjustments of R41 and
R42, or the offset of the field that fails; `m` is the planning length. -/
def Request.desc (q : Request) (m : Nat) : Except Nat Desc :=
  match asPort (q.b 1) with
  | none => .error 1
  | some p =>
    let set := BitVec.ofNat 8 (q.b 10)
    if set = 0 ∨ set.getLsbD p.val = true then .error 10
    else if 4095 < q.field 8 2 then .error 8
    else if ¬(q.b 11 = 1 ∨ q.b 11 = 2 ∨ q.b 11 = 4 ∨ q.b 11 = 8) then .error 11
    else if m / q.b 11 ≤ q.field 12 4 then .error 12
    else if q.b 22 < 1 ∨ 4 < q.b 22 then .error 22
    else
      match asHandling (q.b 23), asTwin (q.b 24) with
      | none, _ => .error 23
      | some _, none => .error 24
      | some h, some t => .ok
        { key := ⟨p, BitVec.ofNat 48 (q.field 2 6), asVlan (q.field 8 2)⟩
          egressSet := set
          repeats := q.b 11
          rho := q.field 12 4
          bound := clamp 1 1000000 (q.field 16 4)
          lmax := clamp 64 1522 (q.field 20 2)
          k := q.b 22
          handling := if 1 < q.b 22 then .sequenced else h
          twin := t
          missLimit := q.b 25 }

/-! ### Fields of a received frame (R31) -/

/-- The frame length L. -/
def frameLen (f : RxFrame) : Nat := f.bytes.length

/-- The destination address, the first six bytes. -/
def frameDest (f : RxFrame) : Mac := BitVec.ofNat 48 (beValue (f.bytes.take 6))

/-- The source address, the six bytes after the destination address. -/
def frameSource (f : RxFrame) : Mac := BitVec.ofNat 48 (beValue ((f.bytes.drop 6).take 6))

/-- The frame is tagged: the two bytes after the source address are 0x81 and 0x00. -/
def frameTagged (f : RxFrame) : Bool := f.bytes.getD 12 0 == 0x81 && f.bytes.getD 13 0 == 0x00

/-- The last two bytes of the tag. -/
def frameTagWord (f : RxFrame) : Nat := beValue ((f.bytes.drop 14).take 2)

/-- The priority, the top three bits. -/
def framePriority (f : RxFrame) : Nat := frameTagWord f / 8192

/-- The VID, the low twelve bits. -/
def frameVid (f : RxFrame) : Nat := frameTagWord f % 4096

/-- The VLAN of stream keys, the VLAN filter and the address table: VID 0 counts as untagged. -/
def frameVlan (f : RxFrame) : Option Nat :=
  if frameTagged f && frameVid f != 0 then some (frameVid f) else none

/-- A group address has the lowest bit of its first byte set (section 7.3). -/
def isGroup (a : Mac) : Bool := a.getLsbD 40

/-- The class of a best-effort frame: by priority when tagged, else the port's default class (R125). -/
def frameClass (f : RxFrame) (defaultClass : Nat) : ClassNo :=
  if frameTagged f then ⟨framePriority f / 2 % 4, Nat.mod_lt _ (by decide)⟩
  else ⟨defaultClass % 4, Nat.mod_lt _ (by decide)⟩

end Sys2Proof.Machine
end

