-- ==== Sys2Proof/Machine/Flags.lean ====
section
/-! DEFINITION. Sticky flags (R36), the counter groups (R155), the reports to the fault unit and their capture
(R152 to R163). -/

namespace Sys2Proof.Machine

/-! ### Sticky flags -/

/-- The bit of a sticky flag (section 11.6). -/
def Flag.bit : Flag → BitVec 6
  | .linkLost => 1
  | .speedMismatch => 2
  | .noiseDisturbed => 4
  | .motionDrop => 8
  | .beDrop => 16
  | .filterHit => 32

/-- A flag is set when its bit in the port's flag-enable mask is 1 (R36). -/
def setFlag (p : Port) (x : Flag) (s : State) : State :=
  s.modPort p fun u => { u with flags := u.flags ||| (x.bit &&& u.flagMask) }

/-! ### Counter groups (R155) -/

/-- The counters of the port group. -/
inductive PortCounter where
  | good
  | ingress (cause : Cause)
  | samePort
  | rxAborted
  | motionSent
  | copySent
  | beSent
  | txAborted
  | beNoBuffer
  | beLinkDown
  | downEvents
  | upEvents
  | disturbedEntries
  | disturbedCycles
  deriving DecidableEq, Repr

/-- The code of a cause (R152). -/
def Cause.code : Cause → Fin 22
  | .symbol => 0
  | .fcs => 1
  | .runt => 2
  | .oversize => 3
  | .ingressOff => 4
  | .filtered => 5
  | .streamOversize => 6
  | .noBuffer => 7
  | .late => 8
  | .stale => 9
  | .overrun => 10
  | .linkDown => 11
  | .mismatch => 12
  | .suspended => 13
  | .held => 14
  | .released => 15
  | .samePort => 16
  | .extraStrobe => 17
  | .outOfWindow => 18
  | .missedStrobe => 19
  | .realign => 20
  | .learnFull => 21

/-- The fixed index of a port counter; the ingress causes 0 to 7 have indices 1 to 8. -/
def PortCounter.index : PortCounter → Fin 21
  | .good => 0
  | .ingress c => if h : c.code.val < 8 then ⟨c.code.val + 1, by omega⟩ else 8
  | .samePort => 9
  | .rxAborted => 10
  | .motionSent => 11
  | .copySent => 12
  | .beSent => 13
  | .txAborted => 14
  | .beNoBuffer => 15
  | .beLinkDown => 16
  | .downEvents => 17
  | .upEvents => 18
  | .disturbedEntries => 19
  | .disturbedCycles => 20

/-- The counters of the leg group (R49). -/
inductive LegCounter where
  | sent
  | copies
  | late
  | stale
  | overrun
  | replaced
  | empty
  | held
  | noBuffer
  | linkDown
  | mismatch
  | suspended
  | released
  deriving DecidableEq, Repr

def LegCounter.index : LegCounter → Fin 13
  | .sent => 0
  | .copies => 1
  | .late => 2
  | .stale => 3
  | .overrun => 4
  | .replaced => 5
  | .empty => 6
  | .held => 7
  | .noBuffer => 8
  | .linkDown => 9
  | .mismatch => 10
  | .suspended => 11
  | .released => 12

/-- The leg counter that a motion drop of this cause advances (R49). -/
def Cause.legCounter : Cause → Option LegCounter
  | .late => some .late
  | .stale => some .stale
  | .overrun => some .overrun
  | .held => some .held
  | .noBuffer => some .noBuffer
  | .linkDown => some .linkDown
  | .mismatch => some .mismatch
  | .suspended => some .suspended
  | .released => some .released
  | _ => none

/-- The counters of the stream group (R50). -/
inductive StreamCounter where
  | matched
  | oversize
  | unreserved
  deriving DecidableEq, Repr

def StreamCounter.index : StreamCounter → Fin 3
  | .matched => 0
  | .oversize => 1
  | .unreserved => 2

/-- The counters of the device group (R155). -/
inductive DeviceCounter where
  | total (cause : Cause)
  | learn
  | move
  | staticConflict
  | agedOut
  | arcOn
  | arcOff
  deriving DecidableEq, Repr

def DeviceCounter.index : DeviceCounter → Fin 28
  | .total c => ⟨c.code.val, by omega⟩
  | .learn => 22
  | .move => 23
  | .staticConflict => 24
  | .agedOut => 25
  | .arcOn => 26
  | .arcOff => 27

/-- The leg group instance of a stream number and egress: 128 × 8 sets (R49). -/
def legIndex (n : StreamNo) (e : Port) : Fin 1024 := ⟨n.val * 8 + e.val, by omega⟩

def bumpPort (p : Port) (c : PortCounter) (s : State) : State :=
  s.modPort p fun u => { u with counters := Table.upd u.counters c.index satInc }

def bumpLeg (n : StreamNo) (e : Port) (c : LegCounter) (s : State) : State :=
  { s with legCounters := Table.upd s.legCounters (legIndex n e) fun v => Table.upd v c.index satInc }

def bumpStream (n : StreamNo) (c : StreamCounter) (s : State) : State :=
  { s with streamCounters := Table.upd s.streamCounters n fun v => Table.upd v c.index satInc }

def bumpDevice (c : DeviceCounter) (s : State) : State :=
  { s with deviceCounters := Table.upd s.deviceCounters c.index satInc }

/-! ### Reading and clearing a counter group instance (R157, R158) -/

/-- The items of a group instance, in index order (R155). -/
def groupItems (s : State) : CounterGroup → List Nat
  | .port p => s.ports[p].counters.toList.map BitVec.toNat
  | .stream n => s.streamCounters[n].toList.map BitVec.toNat
  | .leg n e => s.legCounters[legIndex n e].toList.map BitVec.toNat
  | .device => s.deviceCounters.toList.map BitVec.toNat ++
      [s.buffer.motionFree, s.buffer.motionLow, s.buffer.beFree, s.buffer.beLow]

/-- The number of items of a group (R155). -/
def CounterGroup.size : CounterGroup → Nat
  | .port _ => 21
  | .stream _ => 3
  | .leg _ _ => 13
  | .device => 32

/-- The counters of a table whose indices lie in lo..hi−1 become 0. -/
def clearRange {n : Nat} (lo hi : Nat) (v : Table Counter n) : Table Counter n :=
  v.mapIdx fun i c => if lo ≤ i ∧ i < hi then 0 else c

/-- The items lo..hi−1 of a group instance are cleared: counters to 0, a lowest free-cell figure to its pool's free-cell
count, a free-cell figure not at all (R156, R157). -/
def clearItems (g : CounterGroup) (lo hi : Nat) (s : State) : State :=
  match g with
  | .port p => s.modPort p fun u => { u with counters := clearRange lo hi u.counters }
  | .stream n => { s with streamCounters := Table.upd s.streamCounters n (clearRange lo hi) }
  | .leg n e => { s with legCounters := Table.upd s.legCounters (legIndex n e) (clearRange lo hi) }
  | .device =>
    { s with
      deviceCounters := clearRange lo hi s.deviceCounters
      buffer := { s.buffer with
        motionLow := if lo ≤ 29 ∧ 29 < hi then s.buffer.motionFree else s.buffer.motionLow
        beLow := if lo ≤ 31 ∧ 31 < hi then s.buffer.beFree else s.buffer.beLow } }

/-! ### Reports to the fault unit -/

/-- What a report names: nothing, a receiving port, or an egress (R152). -/
inductive Place where
  | device
  | ingress (p : Port)
  | egress (e : Port)
  deriving DecidableEq, Repr

def Place.side : Place → Side
  | .device => .none
  | .ingress _ => .ingress
  | .egress _ => .egress

def Place.port : Place → Option Port
  | .device => none
  | .ingress p => some p
  | .egress e => some e

/-- What a report says of its cause and place, with the cycle number, phase and grain clock of the instant (R152). -/
def State.stamped (s : State) (cause : Cause) (place : Place) (n : Option StreamNo) : FaultRecord :=
  ⟨cause, place.side, place.port, n, s.timer.cycle, s.phase, s.timer.grain⟩

/-- A block makes a report (R152). -/
def makeReport (r : Report) (s : State) : State := s.modFault fun u => { u with inbox := u.inbox ++ [r] }

def reportWith (cause : Cause) (place : Place) (n : Option StreamNo) (ingress : Option Port) (strobe : Option Stamp)
    (s : State) : State :=
  makeReport ⟨s.stamped cause place n, ingress, strobe, false⟩ s

def report (cause : Cause) (place : Place) (n : Option StreamNo) (s : State) : State :=
  reportWith cause place n none none s

/-- The LINK_DOWN report of the frame or copy that was cut off on an egress wire (R20, R152). -/
def reportCutOff (e : Port) (n : Option StreamNo) (s : State) : State :=
  makeReport ⟨s.stamped .linkDown (.egress e) n, none, none, true⟩ s

/-- The turn of a report among those that name the same port (R152): a LEARN_FULL, the frame or copy cut off on the wire,
best-effort frames, then motion frames in ascending stream number. -/
def Report.turn (r : Report) : Nat :=
  if r.fields.cause = .learnFull then 0
  else if r.cutOff then 1
  else
    match r.fields.stream with
    | none => 2
    | some n => n.val + 3

/-- The order of the reports of one event: a report that names no port first, then ascending port, and for one port by
turn (R152). No turn reaches 256. -/
def Report.rank (r : Report) : Nat :=
  match r.fields.port with
  | none => 0
  | some p => (p.val + 1) * 256 + r.turn

/-- A report put behind those of its own and lower ranks. -/
def insertReport (r : Report) : List Report → List Report
  | [] => [r]
  | x :: xs => if x.rank ≤ r.rank then x :: insertReport r xs else r :: x :: xs

/-- The reports of one event in the order the fault unit takes them (R152); reports of one rank keep the order in which
the event made them, which is class 3 first, and oldest first. -/
def orderReports (rs : List Report) : List Report := rs.foldl (fun out r => insertReport r out) []

/-- The fault unit takes a report (R153, R160): its device total rises, and an OPEN record whose mask marks the cause
takes it, locks and raises FIRST_FAULT (R163). -/
def takeReport (s : State) (r : Report) : State :=
  let s := bumpDevice (.total r.fields.cause) s
  if s.fault.record = none ∧ s.fault.mask.getLsbD r.fields.cause.code.val = true then
    raise srcFault r.fields.cycle (.firstFault r.fields) (s.modFault fun u => { u with record := some r.fields })
  else s

/-- The fault unit takes the reports of the event (R152). -/
def takeReports (s : State) : State :=
  (orderReports s.fault.inbox).foldl takeReport (s.modFault fun u => { u with inbox := [] })

/-- A motion frame is dropped for a leg: counted on the leg, reported with the stream and egress, and flagged on the
egress (R36, R121). Its reference is returned by the caller. -/
def legDrop (cause : Cause) (n : StreamNo) (e : Port) (s : State) : State :=
  let s := match cause.legCounter with
    | some c => bumpLeg n e c s
    | none => s
  setFlag e .motionDrop (report cause (.egress e) (some n) s)

/-- A best-effort frame from a port is dropped for one egress (R138). -/
def beDrop (cause : Cause) (counter : PortCounter) (ingress : Port) (e : Port) (s : State) : State :=
  setFlag e .beDrop (reportWith cause (.egress e) none (some ingress) none (bumpPort e counter s))

/-- How every command but the release of RESET_N is carried out: not at all while RESET_N is low, otherwise by its
effect, after which the fault unit takes the event's reports. -/
def event (f : State → State) (s : State) : Host.Outcome State Fault Refusal :=
  .next (running (fun t => takeReports (f t)) s)

end Sys2Proof.Machine
end

