-- ==== Sys2Proof/Machine/Counters.lean ====
section
/-! DEFINITION. The requests of the fault unit (chapter 9): COUNTERS_READ, COUNTERS_CLEAR, FAULT_READ, FAULT_UNLOCK and
SET_CAPTURE_MASK. -/

namespace Sys2Proof.Machine

/-- The most items one COUNTERS_READ reply carries (R157). -/
def pageSize : Nat := 13

/-- COUNTERS_READ, with its checks in their order (R157). -/
def runCountersRead (q : Request) (s : State) : State :=
  match q.group with
  | .error offset => badField q offset s
  | .ok g =>
    let i := q.b 3
    if g.size ≤ i then badField q 3 s
    else if !isBit (q.b 4) then badField q 4 s
    else
      answer q (.counters g i (((groupItems s g).drop i).take pageSize))
        (if q.b 4 = 1 then clearItems g i (min (i + pageSize) g.size) s else s)

def execCountersRead (s : State) : Host.Outcome State Fault Refusal := event (taking 0x18 5 runCountersRead) s

/-- COUNTERS_CLEAR (R158). -/
def runCountersClear (q : Request) (s : State) : State :=
  match q.group with
  | .error offset => badField q offset s
  | .ok g => answer q (.countersCleared g) (clearItems g 0 g.size s)

def execCountersClear (s : State) : Host.Outcome State Fault Refusal := event (taking 0x19 3 runCountersClear) s

/-- The reply that shows the first-fault record and the capture mask as they stand (R161). -/
def faultReply (s : State) : Reply := .fault s.fault.record s.fault.mask

/-- FAULT_READ (R161). -/
def runFaultRead (q : Request) (s : State) : State := answer q (faultReply s) s

def execFaultRead (s : State) : Host.Outcome State Fault Refusal := event (taking 0x1A 0 runFaultRead) s

/-- FAULT_UNLOCK: the reply shows the record it empties (R161). -/
def runFaultUnlock (q : Request) (s : State) : State :=
  answer q (faultReply s) (s.modFault fun u => { u with record := none })

def execFaultUnlock (s : State) : Host.Outcome State Fault Refusal := event (taking 0x1B 0 runFaultUnlock) s

/-- SET_CAPTURE_MASK: the marks of codes 0 to 21, code 0 in the lowest bit (R162). -/
def runSetCaptureMask (q : Request) (s : State) : State :=
  let mask := BitVec.ofNat 22 (q.field 0 4)
  answer q (.captureMask mask s.fault.record.isSome) (s.modFault fun u => { u with mask := mask })

def execSetCaptureMask (s : State) : Host.Outcome State Fault Refusal := event (taking 0x1C 4 runSetCaptureMask) s

end Sys2Proof.Machine
end

