-- ==== Sys2Proof/Machine/Records.lean ====
section
/-! DEFINITION. The records the part sends, as bytes (sections 11.5 and 11.6). A reply whose layout section 11.6 does not
give shows its code and free bytes (log entry 7); a field that is absent, and longer than the one byte for which section
11.6 names 0xFF, is free bytes (log entry 8). -/

namespace Sys2Proof.Machine

/-! ### Encodings -/

/-- Reply codes (section 11.5). -/
def Code.byte : Code → Byte
  | .ok => 0
  | .badKind => 1
  | .badLength => 2
  | .badField => 3
  | .busy => 4
  | .locked => 5
  | .exists => 6
  | .noSuch => 7
  | .notEmpty => 8
  | .state => 9
  | .infeasible => 10
  | .noRoom => 11
  | .ceiling => 12
  | .pool => 13
  | .tableFull => 14
  | .full => 15
  | .cancelled => 16

/-- The code a reply begins with (R175). -/
def Reply.code : Reply → Code
  | .plain c => c
  | .badKind _ => .badKind
  | .badLength _ => .badLength
  | .badField _ => .badField
  | .search r => refusalCode r.refused.why
  | _ => .ok

def Stage.byte : Stage → Byte
  | .queued => 1
  | .searching => 2
  | .placed => 3
  | .active => 4
  | .releasing => 5

def LegState.byte : LegState → Byte
  | .live => 0
  | .dormant => 1
  | .mismatch => 2
  | .suspended => 3

def SyncState.byte : SyncState → Byte
  | .disabled => 0
  | .acquiring => 1
  | .locked => 2
  | .holdover => 3
  | .lost => 4

def LinkState.byte : LinkState → Byte
  | .down => 0
  | .up .s100 => 1
  | .up .s1000 => 2

def Speed.byte : Speed → Byte
  | .s100 => 0
  | .s1000 => 1

def NoiseState.byte : NoiseState → Byte
  | .clean => 0
  | .watch => 1
  | .disturbed => 2

def NoiseCause.byte : NoiseCause → Byte
  | .faultCount => 0
  | .arcOn => 1
  | .exposedSet => 2
  | .coolDown => 3
  | .portRestart => 4

def Side.byte : Side → Byte
  | .ingress => 0
  | .egress => 1
  | .none => 2

def WindowKind.byte : WindowKind → Byte
  | .primary => 0
  | .twin => 1

def Handling.byte : Handling → Byte
  | .latest => 0
  | .sequenced => 1

def RepairKind.byte : RepairKind → Byte
  | .egress => 0
  | .ingress => 1

def NoticeKind.byte : NoticeKind → Byte
  | .syncState => 0xC1
  | .legSuspended => 0xC2
  | .legMissing => 0xC3
  | .linkState => 0xC4
  | .noiseState => 0xC5
  | .firstFault => 0xC6
  | .probeDone => 0xC7
  | .learnFull => 0xC8

/-- A number as one byte. -/
def byteOf (v : Nat) : Byte := BitVec.ofNat 8 v

/-- A mark as one byte. -/
def bitByte (b : Bool) : Byte := if b then 1 else 0

/-- An absent one-byte field is 0xFF (section 11.6). -/
def orFF : Option Byte → Byte
  | some b => b
  | none => 0xFF

/-- A field of `k` bytes at an offset of the payload of a record; absent, its bytes are free (log entry 8). -/
def fieldOr (serial offset k : Nat) : Option Nat → List Byte
  | some v => beBytes k v
  | none => (List.range k).map fun i => Config.absentByte serial (offset + i)

/-! ### The layouts of section 11.6 -/

/-- A search refusal, after its code (section 11.5). -/
def searchBytes (r : SearchReply) : List Byte :=
  [byteOf r.stream.val, orFF (r.refused.egress.map fun e => byteOf e.val)] ++
  beBytes 4 r.refused.w ++ beBytes 4 r.refused.e ++ beBytes 4 r.refused.d ++ beBytes 2 r.lmax ++ beBytes 3 r.bound

/-- One leg of a PLACED reply. A SUSPENDED leg has s, W and s2 of 0. -/
def placedLegBytes (l : PlacedLeg) : List Byte :=
  [byteOf l.egress.val, orFF (l.state.map LegState.byte)] ++
  match l.placement with
  | some p => beBytes 3 p.s ++ beBytes 2 p.w ++ beBytes 3 (p.s2.getD 0)
  | none => beBytes 8 0

/-- A PLACED reply or one record of a pair, after its code. -/
def placedBytes (r : PlacedReply) : List Byte :=
  [byteOf r.stream.val, byteOf r.part] ++ beBytes 4 r.firstActive.toNat ++ beBytes 2 r.lmax ++ beBytes 3 r.bound ++
  [r.handling.byte] ++ r.legs.flatMap placedLegBytes

/-- The placement figures at an offset: s, W, s2. -/
def placementBytes (serial offset : Nat) (p : Option Placement) : List Byte :=
  fieldOr serial offset 3 (p.map (·.s)) ++ fieldOr serial (offset + 3) 2 (p.map (·.w)) ++
  fieldOr serial (offset + 5) 3 (p.bind (·.s2))

/-- The placement that a pending placement carries. -/
def PendingPlacement.figures : PendingPlacement → Option Placement
  | .place p => some p
  | .suspend .. => none

/-- The presence byte of LEG_STATUS; whose s2 the mark 0x02 stands for, and that a pending SUSPEND sets 0x08 alone, is a
DESIGN CHOICE (log entry 33). -/
def presenceByte (r : LegStatusReply) : Byte :=
  (if r.placement.isSome then 0x01#8 else 0) ||| (if (r.placement.bind (·.s2)).isSome then 0x02#8 else 0) |||
  match r.pendingPl with
  | some (.place _) => 0x04#8
  | some (.suspend ..) => 0x08#8
  | none => 0#8

/-- A LEG_STATUS reply, after its code. -/
def legStatusBytes (serial : Nat) (r : LegStatusReply) : List Byte :=
  [r.stage.byte, orFF (r.state.map LegState.byte), presenceByte r] ++
  placementBytes serial 4 r.placement ++ placementBytes serial 12 (r.pendingPl.bind PendingPlacement.figures) ++
  [byteOf r.slot, byteOf r.retained, byteOf r.missStreak, bitByte r.missNotified]

/-- A window record of TIMELINE_READ. -/
def windowBytes (w : Window) : List Byte :=
  beBytes 3 w.start ++ beBytes 3 w.stop ++ [byteOf w.stream.val, byteOf w.occ, w.kind.byte]

/-- A TIMELINE_READ reply, after its code. -/
def timelineBytes (serial : Nat) (r : TimelineReply) : List Byte :=
  [byteOf r.egress.val, bitByte r.lastCommit.isSome] ++ fieldOr serial 3 4 (r.lastCommit.map BitVec.toNat) ++
  beBytes 2 r.count ++ beBytes 3 r.reserved ++ beBytes 2 r.index ++ [byteOf r.records.length] ++
  r.records.flatMap windowBytes

/-- One port of the SET_ARC reply. -/
def arcPortBytes (p : ArcPort) : List Byte :=
  [bitByte p.exposed ||| (p.state.byte <<< 1)] ++ beBytes 2 p.count ++ [byteOf p.quiet, byteOf p.calm]

/-- A SET_ARC reply, after its code. -/
def arcBytes (serial : Nat) (r : ArcReply) : List Byte :=
  [byteOf r.interval, bitByte r.level, orFF (r.lastEdge.map fun x => bitByte (!x.on))] ++
  fieldOr serial 4 4 (r.lastEdge.map fun x => x.stamp.toNat) ++
  fieldOr serial 8 4 (r.lastEdge.map fun x => x.cycle.toNat) ++
  fieldOr serial 12 3 (r.lastEdge.map (·.phase)) ++ r.ports.flatMap arcPortBytes

/-- Cause, side, port and stream of a first-fault record. -/
def faultFields (r : Option FaultRecord) : List Byte :=
  [orFF (r.map fun x => byteOf x.cause.code.val), orFF (r.map fun x => x.side.byte),
   orFF ((r.bind (·.port)).map fun p => byteOf p.val), orFF ((r.bind (·.stream)).map fun n => byteOf n.val)]

/-- A FAULT_READ or FAULT_UNLOCK reply, after its code. -/
def faultBytes (serial : Nat) (r : Option FaultRecord) (mask : BitVec 22) : List Byte :=
  [bitByte r.isSome] ++ faultFields r ++ fieldOr serial 6 4 (r.map fun x => x.cycle.toNat) ++
  fieldOr serial 10 3 (r.map (·.phase)) ++ fieldOr serial 13 4 (r.map fun x => x.grain.toNat) ++ beBytes 4 mask.toNat

/-- What a probe watches, in every state but IDLE. -/
def Probe.watch : Probe → Option Watch
  | .idle => none
  | .armed w => some w
  | .captured w _ _ => some w
  | .expired w _ => some w
  | .cancelled w _ => some w

/-- The cycle in which a probe left ARMED. -/
def Probe.endCycle : Probe → Option CycleNo
  | .captured _ c _ => some c
  | .expired _ c => some c
  | .cancelled _ c => some c
  | _ => none

/-- The capture record of a probe. -/
def Probe.capture : Probe → Option Capture
  | .captured _ _ c => some c
  | _ => none

/-- The state of a probe (section 11.6). -/
def Probe.byte : Probe → Byte
  | .idle => 0
  | .armed _ => 1
  | .captured .. => 2
  | .expired .. => 3
  | .cancelled .. => 4

/-- A PROBE_READ reply, after its code. -/
def probeBytes (serial : Nat) (q : Fin 4) (p : Probe) : List Byte :=
  [byteOf q.val, p.byte, orFF (p.watch.map fun w => byteOf w.stream.val), orFF (p.watch.map fun w => byteOf w.egress.val)] ++
  fieldOr serial 5 4 (p.watch.map fun w => w.armCycle.toNat) ++ fieldOr serial 9 2 (p.watch.map (·.remaining)) ++
  fieldOr serial 11 4 (p.endCycle.map BitVec.toNat) ++ fieldOr serial 15 4 (p.capture.map fun c => c.cycle.toNat) ++
  fieldOr serial 19 4 (p.capture.map fun c => c.ingressStart.toNat) ++
  fieldOr serial 23 4 (p.capture.map fun c => c.egressStart.toNat) ++
  fieldOr serial 27 4 (p.capture.map fun c => c.residence.toNat) ++
  fieldOr serial 31 3 (p.capture.map (·.windowStart)) ++ fieldOr serial 34 3 (p.capture.map (·.startPhase)) ++
  fieldOr serial 37 3 (p.capture.map (·.slack)) ++ fieldOr serial 40 2 (p.capture.map (·.len)) ++
  [orFF (p.capture.map fun c => c.noise.byte)]

/-- What a reply carries after its code. -/
def Reply.data (serial : Nat) : Reply → List Byte
  | .plain _ => []
  | .badKind kind => [kind]
  | .badLength expected => [byteOf expected]
  | .badField offset => [byteOf offset]
  | .search r => searchBytes r
  | .placed r => placedBytes r
  | .legStatus r => legStatusBytes serial r
  | .timeline r => timelineBytes serial r
  | .arc r => arcBytes serial r
  | .fault r mask => faultBytes serial r mask
  | .probe q p => probeBytes serial q p
  | _ => (Config.replyData serial).take 58

/-- The data of a notice by kind; they begin at offset 6 of the payload. -/
def NoticeData.bytes (serial : Nat) : NoticeData → List Byte
  | .syncState new old phase => [new.byte, old.byte] ++ beBytes 3 phase
  | .legSuspended n e why kind port =>
    [byteOf n.val, byteOf e.val, (refusalCode (some why)).byte, kind.byte, byteOf port.val]
  | .legMissing n e streak limit phase => [byteOf n.val, byteOf e.val, byteOf streak, byteOf limit] ++ beBytes 3 phase
  | .linkState p link planned => [byteOf p.val, link.byte, planned.byte]
  | .noiseState p new old cause count phase =>
    [byteOf p.val, new.byte, old.byte, cause.byte] ++ beBytes 2 count ++ beBytes 3 phase
  | .firstFault r => faultFields (some r) ++ beBytes 3 r.phase ++ beBytes 4 r.grain.toNat
  | .probeDone q n e captured =>
    [byteOf q.val, bitByte captured.isNone, byteOf n.val, byteOf e.val] ++
    fieldOr serial 10 4 (captured.map fun c => c.1.toNat) ++ fieldOr serial 14 3 (captured.map (·.2))
  | .learnFull p source vlan => [byteOf p.val] ++ beBytes 6 source.toNat ++ beBytes 2 (vlan.getD 0)

/-! ### Framing (section 11.6) -/

/-- The kind byte of a record. -/
def OutRecord.kind (r : OutRecord) : Byte :=
  match r.body with
  | .reply kind _ _ => kind
  | .notice _ n => n.data.kind.byte

/-- The tag byte of a record: 0 in notices. -/
def OutRecord.tag (r : OutRecord) : Byte :=
  match r.body with
  | .reply _ tag _ => tag
  | .notice .. => 0

/-- The payload of a record. -/
def OutRecord.payload (r : OutRecord) : List Byte :=
  match r.body with
  | .reply _ _ x => x.code.byte :: x.data r.serial
  | .notice src n =>
    [byteOf src.val, byteOf n.repeats] ++ beBytes 4 n.cycle.toNat ++ n.data.bytes r.serial

/-- N_p, the length of a record after its length byte: kind, tag, payload and CRC. -/
def OutRecord.len (r : OutRecord) : Nat := r.payload.length + 4

/-- A record as it is shifted out: its length byte, then N_p bytes, the CRC high byte first (R173). -/
def OutRecord.bytes (r : OutRecord) : List Byte :=
  let body := r.kind :: r.tag :: r.payload
  byteOf r.len :: body ++ beBytes 2 (crc16 body).toNat

/-- The bytes that MISO carries in the first `k` byte times of the transfer in progress: the latched record or a null
record, then zeros; zeros while RESET_N is low (R172). -/
def misoBytes (s : State) (k : Nat) : List Byte :=
  if s.resetLow then List.replicate k 0 else
  match s.mgmt.transfer.bind (·.latched) with
  | some r => (r.bytes ++ List.replicate k 0).take k
  | none => List.replicate k 0

/-- The whole record has been shifted out when `k` bytes have been clocked (R172). No record is longer than 64 bytes with
its length byte. -/
def OutRecord.shifted (r : OutRecord) (k : Nat) : Bool := decide (64 ≤ k) || decide (r.len + 1 ≤ k)

end Sys2Proof.Machine
end

