-- ==== Sys2Proof/Machine/Mgmt.lean ====
section
/-! DEFINITION. The management link (chapter 11): RESET_N, transfers, BAD_KIND, IDENTIFY, RESTART, LINK_STATUS,
SET_NOTICE and the notice arbiter. -/

namespace Sys2Proof.Machine

/-! ### Reset (R17, R38, R39, R98, R99, R139, R159, R164, R180, R181) -/

/-- Every block at its reset values with this MODE. The levels on CYC and ARC, the commands that wait, and the model's own
numbering of records and leg steps, on which the free values hang, are no part of any block. -/
def State.reborn (mode : StartMode) (s : State) : State :=
  let t := State.resetAs mode s.timer.cyc.pin s.arc.filter.pin
  { t with
    mgmt := { t.mgmt with serial := s.mgmt.serial }
    engine := { t.engine with steps := s.engine.steps }
    pending := s.pending }

/-- MODE as sampled (R180): low gives OPEN start, high CLOSED start. -/
def sampledMode (high : Bool) : StartMode := if high then .closedStart else .openStart

/-- RESET_N: its release returns every block to its reset values and samples MODE (R17, R180, R181). -/
def execResetN (modeHigh : Bool) (s : State) : Host.Outcome State Fault Refusal :=
  .next (s.reborn (sampledMode modeHigh))

/-- RESET_N_LOW: from now on the grain clock does not count, no samples are taken, and the part ignores the link
(R17, R172). -/
def execResetNLow (s : State) : Host.Outcome State Fault Refusal := .next { s with resetLow := true }

/-! ### Transfers (R172, R173) -/

/-- A transfer begins: the head of the outbound queue, or a null record, is latched (R172). -/
def beginTransfer (s : State) : State :=
  if s.mgmt.transfer.isSome then s
  else s.modMgmt fun m => { m with transfer := some ⟨m.outbound.head?, false⟩ }

/-- TRANSFER_START: SELN falls (R172). -/
def execTransferStart (s : State) : Host.Outcome State Fault Refusal := event beginTransfer s

/-- What becomes of the host's record (R173). -/
inductive Judgement where
  | nothing
  | form
  | short
  | crc
  | overflow
  | joins (q : Request)
  deriving DecidableEq, Repr

/-- The host's record as its bytes give it: the byte after the length byte is the kind, then the tag, the payload, and the
CRC in the last two bytes (section 11.6). -/
def requestOf (body : List Byte) : Request :=
  ⟨body.getD 0 0, body.getD 1 0, (body.take (body.length - 2)).drop 2⟩

/-- The CRC of the host's record matches: its last two bytes are the CRC of those before (R173). -/
def crcMatches (body : List Byte) : Bool :=
  body.drop (body.length - 2) == beBytes 2 (crc16 (body.take (body.length - 2))).toNat

/-- The host's record is judged by the first line of R173's table that applies. `rest` is what came after the length
byte. -/
def judge (inbound : List Request) (n : Nat) (rest : List Byte) : Judgement :=
  if n = 0 then .nothing
  else if n < 4 ∨ 63 < n then .form
  else if rest.length < n then .short
  else if !crcMatches (rest.take n) then .crc
  else if Config.inboundPlaces ≤ inbound.length then .overflow
  else .joins (requestOf (rest.take n))

/-- The link counters and the inbound queue after a judgement (R173). -/
def takeJudgement (m : MgmtLink) : Judgement → MgmtLink
  | .nothing => m
  | .form => { m with form := satInc m.form }
  | .short => { m with short := satInc m.short }
  | .crc => { m with crc := satInc m.crc }
  | .overflow => { m with overflow := satInc m.overflow }
  | .joins q => { m with inbound := m.inbound ++ [q] }

/-- The outbound queue at the end of a transfer of `k` byte times: a record that was shifted out whole leaves it, unless a
RESTART has emptied the queue it stood in (R172, R180). -/
def afterShift (x : Transfer) (k : Nat) (out : List OutRecord) : List OutRecord :=
  match x.latched with
  | some r => if !x.detached && r.shifted k then out.tail else out
  | none => out

/-- The link at the end of a transfer in which the host shifted these whole bytes (R172, R173). -/
def endOf (x : Transfer) (mosi : List Byte) (m : MgmtLink) : MgmtLink :=
  match mosi with
  | [] => { m with transfer := none }
  | n :: rest =>
    takeJudgement { m with transfer := none, outbound := afterShift x mosi.length m.outbound }
      (judge m.inbound n.toNat rest)

/-- TRANSFER_END: SELN rises (R172, R173). -/
def execTransferEnd (mosi : List Byte) (s : State) : Host.Outcome State Fault Refusal :=
  event (fun s =>
    match s.mgmt.transfer with
    | none => s
    | some x => s.modMgmt (endOf x mosi)) s

/-! ### Taking requests (R175) -/

/-- The kind is a request kind of section 11.5. -/
def knownKind (kind : Byte) : Bool := decide (1 ≤ kind.toNat) && decide (kind.toNat ≤ 0x20)

/-- BAD_KIND: a request of no request kind is taken, and replied with reply kind 0xFF (R175). -/
def execBadKind (s : State) : Host.Outcome State Fault Refusal :=
  event (fun s =>
    match s.mgmt.inbound with
    | [] => s
    | q :: rest =>
      if s.requestOffered && !knownKind q.kind then
        push (.reply 0xFF q.tag (.badKind q.kind)) (s.modMgmt fun m => { m with inbound := rest })
      else s) s

/-- The part code (R179). -/
def partCode : BitVec 16 := 0x0816

/-- The revision (R179). -/
def revision : Nat := 2

/-- IDENTIFY (R179). -/
def runIdentify (q : Request) (s : State) : State :=
  answer q (.identity partCode revision s.mgmt.mode s.engine.locked) s

def execIdentify (s : State) : Host.Outcome State Fault Refusal := event (taking 0x01 0 runIdentify) s

/-- RESTART (R180): every block returns to its reset values, the queues are emptied, the reply is the first record of the
outbound queue, and a transfer in progress runs to its end without removing a record. -/
def runRestart (q : Request) (s : State) : State :=
  if s.engine.locked then refuse q .locked s
  else
    let x := s.mgmt.transfer.map fun x => { x with detached := true }
    answer q (.restarted s.mgmt.mode) ((s.reborn s.mgmt.mode).modMgmt fun m => { m with transfer := x })

def execRestart (s : State) : Host.Outcome State Fault Refusal := event (taking 0x02 0 runRestart) s

/-- The LINK_STATUS reply, as the link stands with the request taken (R179). -/
def linkStatus (m : MgmtLink) : LinkStatusReply where
  short := m.short
  crc := m.crc
  overflow := m.overflow
  form := m.form
  unrouted := m.unrouted
  requests := m.inbound.length
  records := m.outbound.length
  notices := m.notices
  sources := m.sources.toList.map fun x => (x.number, x.pending.map fun n => n.data.kind)

/-- The five link counters become 0 (R179). -/
def clearLink (m : MgmtLink) : MgmtLink :=
  { m with short := 0, crc := 0, overflow := 0, form := 0, unrouted := 0 }

/-- LINK_STATUS (R179). -/
def runLinkStatus (q : Request) (s : State) : State :=
  if !isBit (q.b 0) then badField q 0 s
  else answer q (.linkStatus (linkStatus s.mgmt)) (if q.b 0 = 1 then s.modMgmt clearLink else s)

def execLinkStatus (s : State) : Host.Outcome State Fault Refusal := event (taking 0x03 1 runLinkStatus) s

/-! ### Notices (R177, R178) -/

/-- A source takes a new arbitration number; number 0 discards what is pending there, each counted unrouted (R178). -/
def setNumber (src : Fin 12) (number : Nat) (m : MgmtLink) : MgmtLink :=
  if number = 0 then
    { m with
      sources := Table.upd m.sources src fun _ => ⟨0, []⟩
      unrouted := satAdd m.unrouted m.sources[src].pending.length }
  else { m with sources := Table.upd m.sources src fun x => { x with number := number } }

/-- SET_NOTICE (R178); of an index and a number that both fail, the index is named (DESIGN CHOICE, log entry 32). -/
def runSetNotice (q : Request) (s : State) : State :=
  match asSource (q.b 0) with
  | none => badField q 0 s
  | some src =>
    if 15 < q.b 1 then badField q 1 s
    else
      answer q (.noticeSet src.val (q.b 1) (if q.b 1 = 0 then s.mgmt.sources[src].pending.length else 0))
        (s.modMgmt (setNumber src (q.b 1)))

def execSetNotice (s : State) : Host.Outcome State Fault Refusal := event (taking 0x1D 2 runSetNotice) s

/-- Of two pending notices, with their sources, the second is picked ahead of the first: by level, then by arbitration
number; of equals the earlier stays (R177). -/
def ahead (m : MgmtLink) (x y : Fin 12 × Notice) : Bool :=
  decide (x.2.data.kind.level < y.2.data.kind.level) ||
  (x.2.data.kind.level == y.2.data.kind.level && decide (m.sources[x.1].number < m.sources[y.1].number))

/-- Every pending notice with its source, in ascending source index. -/
def MgmtLink.waitingNotices (m : MgmtLink) : List (Fin 12 × Notice) :=
  (List.finRange 12).flatMap fun i => m.sources[i].pending.map fun n => (i, n)

/-- The pick of R177. -/
def MgmtLink.pick (m : MgmtLink) : Option (Fin 12 × Notice) :=
  m.waitingNotices.foldl (fun best y =>
    match best with
    | none => some y
    | some x => if ahead m x y then some y else some x) none

/-- R174 offers a place to the notice arbiter: a place is free, no finished reply and no request claims it, and fewer than
12 notices are in the queue. -/
def State.noticeOffered (s : State) : Bool :=
  s.requestOffered && s.mgmt.inbound.isEmpty && decide (s.mgmt.notices < Config.outboundNotices)

/-- A picked notice leaves its pending set and enters the outbound queue (R177). -/
def moveNotice (src : Fin 12) (n : Notice) (s : State) : State :=
  push (.notice src n) (s.modMgmt fun m =>
    { m with sources := Table.upd m.sources src fun x => { x with pending := x.pending.filter (· != n) } })

/-- NOTICE_PICK (R177). -/
def execNoticePick (s : State) : Host.Outcome State Fault Refusal :=
  event (fun s =>
    match s.mgmt.pick with
    | some (src, n) => if s.noticeOffered then moveNotice src n s else s
    | none => s) s

end Sys2Proof.Machine
end

