-- ==== Sys2Proof/Machine/Arithmetic.lean ====
section
/-! DEFINITION. The reservation arithmetic (chapter 4): bounds, searches and checks of one leg step, and timelines as
lists of windows in start order. -/

namespace Sys2Proof.Machine

/-! ### Timelines -/

/-- A window put in start order (R61). -/
def insertWindow (w : Window) : List Window → List Window
  | [] => [w]
  | x :: xs => if x.start ≤ w.start then x :: insertWindow w xs else w :: x :: xs

def insertWindows (ws : List Window) (tl : List Window) : List Window := ws.foldl (fun t w => insertWindow w t) tl

/-- R_e: the sum of the window lengths of a timeline (R61). -/
def reservedTime (tl : List Window) : Nat := (tl.map fun w => w.stop - w.start).sum

/-- The windows of every stream but one. -/
def withoutStream (n : StreamNo) (tl : List Window) : List Window := tl.filter fun w => w.stream != n

/-- The windows of a placed leg: r primary windows, and r twin windows when twinned (R76). -/
def windowsOf (n : StreamNo) (r period : Nat) (p : Placement) : List Window :=
  let js := List.range r
  (js.map fun j => ⟨p.s + j * period, p.s + j * period + p.w, n, j, .primary⟩) ++
  match p.s2 with
  | none => []
  | some s2 => js.map fun j => ⟨s2 + j * period, s2 + j * period + p.w, n, j, .twin⟩

/-! ### The inputs and bounds of one leg (R60, R62 to R65) -/

/-- The inputs of a leg step (R60). -/
structure LegInputs where
  rho : Nat
  repeats : Nat
  bound : Nat
  lmax : Nat
  k : Nat
  twinned : Bool
  m : Nat
  gi : Nat
  ge : Nat
  mu : Nat
  tau : Nat
  kappa : Nat
  deriving DecidableEq, Repr

/-- P = M / r. -/
def legPeriod (i : LegInputs) : Nat := i.m / i.repeats

/-- W = k × (Lmax + 20) × g_e + μ_e (R62). -/
def legLength (i : LegInputs) : Nat := i.k * (i.lmax + 20) * i.ge + i.mu

/-- The earliest start e (R63); natural subtraction gives the maximum with 0. -/
def legEarliest (i : LegInputs) : Nat :=
  i.rho + (i.lmax + 8) * i.gi + Config.delta + (i.k - 1) * (i.lmax + 20) * (i.gi - i.ge)

/-- The latest end d (R64). -/
def legLatest (i : LegInputs) : Nat := min (i.rho + i.bound) (legPeriod i - Config.cycleTail)

/-! ### The searches (R66, R67, R70) -/

/-- Two half-open intervals overlap (R66). -/
def overlaps (x y a b : Nat) : Bool := decide (x < b) && decide (a < y)

/-- The first occurrence, among those listed, that overlaps a window of the view, as the candidate to jump to: the
window's end less the occurrence's offset (R67). -/
def jumpFrom (view : List Window) (period w s : Nat) : List Nat → Option Nat
  | [] => none
  | j :: js =>
    match view.find? fun x => overlaps (s + j * period) (s + j * period + w) x.start x.stop with
    | some x => some (x.stop - j * period)
    | none => jumpFrom view period w s js

/-- First fit with jumps from a candidate, up to the latest end (R67). Each jump raises the candidate, so `fuel` above
the latest end is never used up. -/
def firstFit (view : List Window) (period r w d : Nat) : Nat → Nat → Option Nat
  | 0, _ => none
  | fuel + 1, s =>
    if d < s + w then none else
    match jumpFrom view period w s (List.range r) with
    | some s' => firstFit view period r w d fuel s'
    | none => some s

/-- A leg step's checks in their order, against its view (R72 to R74). -/
def legSearch (i : LegInputs) (view : List Window) : LegResult :=
  let w := legLength i
  let d := legLatest i
  let count := if i.twinned then 2 * i.repeats else i.repeats
  if Config.timelineSize < view.length + count then .refused .tableFull
  else if i.m * i.kappa / 100 < reservedTime view + count * w then .refused .ceiling
  else if d < legEarliest i + w then .refused .infeasible
  else
    match firstFit view (legPeriod i) i.repeats w d (d + 1) (legEarliest i) with
    | none => .refused .noRoom
    | some s =>
      if i.twinned then
        match firstFit view (legPeriod i) i.repeats w d (d + 1) (s + w + i.tau) with
        | none => .refused .noRoom
        | some s2 => .placed ⟨s, some s2, w⟩
      else .placed ⟨s, none, w⟩

/-- The need of a timeline: ceil(100 × R_e / M) (R27, R73). -/
def ceilingNeed (reserved m : Nat) : Nat := ceilDiv (100 * reserved) m

end Sys2Proof.Machine
end

