-- ==== Sys2Proof/Machine/Buffer.lean ====
section
/-! DEFINITION. The frame buffer (R122 to R124) and the address table's own operations (R126). -/

namespace Sys2Proof.Machine

/-! ### Stored frames -/

/-- The record of a stored frame. -/
def State.frame (s : State) (id : FrameId) : Option FrameRecord := s.buffer.frames.find? fun r => r.id == id

/-- The length of a stored frame. -/
def State.frameLength (s : State) (id : FrameId) : Nat := ((s.frame id).map (·.len)).getD 0

/-- A pool's free cells fall by c, and its lowest figure follows (R122, R156). -/
def takeCells (pool : Pool) (c : Nat) (b : FrameBuffer) : FrameBuffer :=
  match pool with
  | .motion => { b with motionFree := b.motionFree - c, motionLow := min b.motionLow (b.motionFree - c) }
  | .bestEffort => { b with beFree := b.beFree - c, beLow := min b.beLow (b.beFree - c) }

/-- A pool's free cells rise by c (R122). -/
def giveCells (pool : Pool) (c : Nat) (b : FrameBuffer) : FrameBuffer :=
  match pool with
  | .motion => { b with motionFree := b.motionFree + c }
  | .bestEffort => { b with beFree := b.beFree + c }

/-- A frame is stored under the next handle: cells taken, record written (R123). -/
def storeFrame (pool : Pool) (refs : Nat) (ingress : Port) (start : Stamp) (n : Option StreamNo)
    (cls : Option ClassNo) (f : RxFrame) (s : State) : State :=
  s.modBuffer fun b => takeCells pool (cellsOf (frameLen f)) { b with
    frames := b.frames ++ [⟨b.nextId, pool, cellsOf (frameLen f), refs, frameLen f, ingress, start, s.timer.grain, n, cls,
      false, f.bytes⟩]
    nextId := b.nextId + 1 }

/-- The last reference is returned: the record goes, its cells return to their pool, and a motion frame's stream has one
frame fewer alive unless it became FREE since (R57, R124). -/
def freeFrame (r : FrameRecord) (s : State) : State :=
  let s := s.modBuffer fun b => giveCells r.pool r.cells { b with frames := b.frames.filter fun x => x.id != r.id }
  match r.stream with
  | some n => if r.orphan then s else s.modStream n fun t => { t with alive := t.alive - 1 }
  | none => s

/-- A holder returns one reference (R124). -/
def returnRef (id : FrameId) (s : State) : State :=
  match s.frame id with
  | none => s
  | some r =>
    if r.refs ≤ 1 then freeFrame r s
    else s.modBuffer fun b => { b with
      frames := b.frames.map fun x => if x.id == id then { x with refs := x.refs - 1 } else x }

/-- References of several frames are returned, oldest first. -/
def returnRefs (ids : List FrameId) (s : State) : State := forAll ids returnRef s

/-- The frames of a stream that becomes FREE change no stream's alive count when they are freed (R46). -/
def orphanFrames (n : StreamNo) (s : State) : State :=
  s.modBuffer fun b => { b with frames := b.frames.map fun r => if r.stream == some n then { r with orphan := true } else r }

/-- A frame's ready time, Δ after its reception, has come (R103). -/
def State.ready (s : State) (id : FrameId) : Bool :=
  match s.frame id with
  | none => false
  | some r => decide (Config.delta ≤ s.since r.received)

/-! ### The address table (R126) -/

/-- The entry holding a key. -/
def State.addrEntry (s : State) (mac : Mac) (vlan : Option Nat) : Option AddrEntry :=
  s.addr.entries.find? fun x => x.mac == mac && x.vlan == vlan

/-- The lowest free position from `p`, the entries being in ascending position. -/
def lowestFree : Nat → List AddrEntry → Nat
  | p, [] => p
  | p, x :: xs => if x.pos = p then lowestFree (p + 1) xs else p

/-- An entry put at its place in ascending position. -/
def insertEntry (x : AddrEntry) : List AddrEntry → List AddrEntry
  | [] => [x]
  | y :: ys => if y.pos < x.pos then y :: insertEntry x ys else x :: y :: ys

/-- Every position holds an entry. -/
def State.addrFull (s : State) : Bool := decide (Config.addressPositions ≤ s.addr.entries.length)

/-- A new entry takes the lowest free position (R126). -/
def addrInsert (mac : Mac) (vlan : Option Nat) (p : Port) (kind : EntryKind) (s : State) : State :=
  s.modAddr fun t => { t with entries := insertEntry ⟨lowestFree 0 t.entries, mac, vlan, p, kind, 0⟩ t.entries }

/-- The entry at a position is changed in place. -/
def addrUpdate (pos : Nat) (f : AddrEntry → AddrEntry) (s : State) : State :=
  s.modAddr fun t => { t with entries := t.entries.map fun x => if x.pos == pos then f x else x }

/-- An aging sweep (R130). -/
def sweepEntries (xs : List AddrEntry) : List AddrEntry :=
  (xs.filter fun x => !(x.kind == .learned && decide (3 ≤ x.age))).map fun x =>
    if x.kind = .learned then { x with age := x.age + 1 } else x

/-- The entries an aging sweep removes (R130). -/
def agedOut (xs : List AddrEntry) : Nat := xs.countP fun x => x.kind == .learned && decide (3 ≤ x.age)

end Sys2Proof.Machine
end

