-- ==== Sys2Proof/Machine/Probes.lean ====
section
/-! DEFINITION. The frame probes (chapter 10): capture, expiry, cancellation, and the requests PROBE_ARM, PROBE_READ
and PROBE_CANCEL. -/

namespace Sys2Proof.Machine

/-- The state of a probe. -/
def Probe.state : Probe → ProbeState
  | .idle => .idle
  | .armed _ => .armed
  | .captured .. => .captured
  | .expired .. => .expired
  | .cancelled .. => .cancelled

/-- A probe watches this stream and egress: it is ARMED on them. -/
def Probe.watches (n : StreamNo) (e : Port) : Probe → Bool
  | .armed w => w.stream == n && w.egress == e
  | _ => false

/-- What a frame that starts in a primary window at this instant gives a probe (R166). -/
def captureOf (s : State) (e : Port) (r : FrameRecord) (w : Window) (g : Nat) : Capture where
  cycle := s.timer.cycle
  ingressStart := r.ingressStart
  egressStart := s.timer.grain
  residence := s.timer.grain - r.ingressStart
  windowStart := w.start
  startPhase := s.phase
  slack := w.stop - (s.phase + wireTime r.len g)
  len := r.len
  noise := s.noise[e].state

/-- One probe at a frame start: an ARMED one on the frame's stream and egress captures and raises PROBE_DONE
(R166, R171). -/
def probeCaptures (n : StreamNo) (e : Port) (c : Capture) (q : Fin 4) (s : State) : State :=
  match s.probes[q] with
  | .armed w =>
    if w.stream = n ∧ w.egress = e then
      raise srcProbe s.timer.cycle (.probeDone q n e (some (c.residence, c.slack)))
        (s.setProbe q (.captured w s.timer.cycle c))
    else s
  | _ => s

/-- The egress tells the probe unit of a frame that starts in a primary window (R105, R166). Probes that capture at one
start do so in ascending number (DESIGN CHOICE, log entry 35). -/
def probeStart (n : StreamNo) (e : Port) (r : FrameRecord) (w : Window) (g : Nat) (s : State) : State :=
  forAll allProbes (probeCaptures n e (captureOf s e r w g)) s

/-- The deadline count of one probe at the start of the cycle with this number (R168). -/
def probeCount (cycle : CycleNo) (q : Fin 4) (s : State) : State :=
  match s.probes[q] with
  | .armed w =>
    if w.remaining ≤ 1 then
      raise srcProbe cycle (.probeDone q w.stream w.egress none) (s.setProbe q (.expired { w with remaining := 0 } cycle))
    else s.setProbe q (.armed { w with remaining := w.remaining - 1 })
  | _ => s

/-- The commit frees a stream: a probe ARMED on it becomes CANCELLED, without a notice (R169). -/
def probeFreed (cycle : CycleNo) (n : StreamNo) (q : Fin 4) (s : State) : State :=
  match s.probes[q] with
  | .armed w => if w.stream = n then s.setProbe q (.cancelled w cycle) else s
  | _ => s

/-! ### The commands -/

/-- PROBE_EXPIRY: at the cycle start that is due, the deadline count of an ARMED probe reaches 0 (R168). -/
def execProbeExpiry (q : Fin 4) (s : State) : Host.Outcome State Fault Refusal :=
  event (fun s =>
    match s.probes[q] with
    | .armed w => if s.cycleDue && decide (w.remaining ≤ 1) then probeCount (s.timer.cycle + 1) q s else s
    | _ => s) s

/-- PROBE_ARM (R165); of several numbers out of range the first in the payload is named (DESIGN CHOICE, log entry 32). -/
def runProbeArm (r : Request) (s : State) : State :=
  match asProbe (r.b 0), asStream (r.b 1), asPort (r.b 2) with
  | none, _, _ => badField r 0 s
  | some _, none, _ => badField r 1 s
  | some _, some _, none => badField r 2 s
  | some q, some n, some e =>
    if (s.streams[n].map (·.stage)) = some .active ∧ (s.leg n e).isSome then
      let deadline := clamp 1 65535 (r.field 3 4)
      answer r (.probeArmed q deadline s.timer.cycle s.probes[q].state)
        (s.setProbe q (.armed ⟨n, e, s.timer.cycle, deadline⟩))
    else refuse r .noSuch s

def execProbeArm (s : State) : Host.Outcome State Fault Refusal := event (taking 0x1E 7 runProbeArm) s

/-- PROBE_READ (R170). -/
def runProbeRead (r : Request) (s : State) : State :=
  match asProbe (r.b 0) with
  | none => badField r 0 s
  | some q => answer r (.probe q s.probes[q]) s

def execProbeRead (s : State) : Host.Outcome State Fault Refusal := event (taking 0x1F 1 runProbeRead) s

/-- PROBE_CANCEL (R170). -/
def runProbeCancel (r : Request) (s : State) : State :=
  match asProbe (r.b 0) with
  | none => badField r 0 s
  | some q => answer r (.probeCancelled s.probes[q].state) (s.setProbe q .idle)

def execProbeCancel (s : State) : Host.Outcome State Fault Refusal := event (taking 0x20 1 runProbeCancel) s

end Sys2Proof.Machine
end

