-- ==== Sys2Proof/Machine/Egress.lean ====
section
/-! DEFINITION. The egress schedulers at run time (chapter 6): what starts on the wire, windows, copies, ready times and
the ends of transmissions. -/

namespace Sys2Proof.Machine

/-! ### Best effort on the wire (R114 to R117) -/

/-- The timeline the next cycle will use on an egress (R115). -/
def State.nextTimeline (s : State) (e : Port) : List Window :=
  if s.engine.commitDue then s.engine.timelines[e] else s.egress[e].timeline

/-- next_open: the start phase of the next window that is not released (R115). -/
def State.nextOpen (s : State) (e : Port) : Option Nat :=
  match (s.egress[e].timeline.drop s.egress[e].nextWindow).head? with
  | some w => some w.start
  | none => (s.nextTimeline e).head?.map fun w => s.timer.endE + w.start

/-- The fit check for a best-effort frame of this length (R114). -/
def State.fitsBefore (s : State) (e : Port) (len g : Nat) : Bool :=
  match s.nextOpen e with
  | none => true
  | some x => decide (s.phase + wireTime len g ≤ x)

/-- The head of a class queue may start: it is ready and fits (R116). -/
def State.headStarts (s : State) (e : Port) (g : Nat) (c : ClassNo) : Option FrameId :=
  match s.egress[e].queues[c].head? with
  | some id => if s.ready id && s.fitsBefore e (s.frameLength id) g then some id else none
  | none => none

/-- A frame of a class starts as best effort (R117). -/
def startBestEffort (e : Port) (c : ClassNo) (id : FrameId) (s : State) : State :=
  bumpPort e .beSent (s.modEgress e fun x => { x with
    queues := Table.upd x.queues c List.tail
    wire := some ⟨id, s.timer.grain, .bestEffort⟩ })

/-- The egress looks at the heads from class 3 down to class 0 and starts the first that may start (R116). -/
def chooseBestEffort (e : Port) (g : Nat) : List ClassNo → State → State
  | [], s => s
  | c :: cs, s =>
    match s.headStarts e g c with
    | some id => startBestEffort e c id s
    | none => chooseBestEffort e g cs s

/-! ### Motion frames and copies on the wire (R104 to R106, R110) -/

/-- The head of a leg's slot is dropped at a try (R104). -/
def dropHead (cause : Cause) (n : StreamNo) (e : Port) (id : FrameId) (s : State) : State :=
  returnRef id (legDrop cause n e (s.modLeg n e fun l => { l with slot := l.slot.tail }))

/-- A motion frame starts in the open primary window of its leg (R105); the start of the k-th frame releases the rest of
the window (R106). -/
def startMotion (e : Port) (g : Nat) (o : OpenWindow) (d : Desc) (r : FrameRecord) (s : State) : State :=
  let n := o.window.stream
  let twinned := d.twin != .off
  let s := s.modLeg n e fun l => { l with
    slot := l.slot.tail
    retained := if twinned then l.retained ++ [r.id] else l.retained
    missStreak := 0
    missNotified := false }
  let s := s.modEgress e fun x => { x with
    wire := some ⟨r.id, s.timer.grain, .motion n twinned⟩
    openWindow := some { o with sent := o.sent + 1, released := decide (d.k ≤ o.sent + 1) } }
  probeStart n e r o.window g (bumpPort e .motionSent (bumpLeg n e .sent s))

/-- A copy starts in the open twin window (R110); the last copy to start releases the rest of the window. -/
def startCopy (e : Port) (o : OpenWindow) (id : FrameId) (rest : List FrameId) (s : State) : State :=
  let n := o.window.stream
  let s := s.modEgress e fun x => { x with
    wire := some ⟨id, s.timer.grain, .copy n⟩
    openWindow := some { o with copies := rest, released := rest.isEmpty } }
  bumpPort e .copySent (bumpLeg n e .copies s)

/-- What the try of a slot's head finds (R104). -/
inductive HeadTry where
  | nothing
  | drop (cause : Cause) (id : FrameId)
  | start (r : FrameRecord)
  deriving DecidableEq, Repr

/-- The try of the head of a slot in an open, unreleased primary window: the sent count is below k, the phase still lies
in the window, the head is ready, and it passes the stale check and the late check (R103, R104). -/
def State.tryHead (s : State) (g : Nat) (o : OpenWindow) (d : Desc) (slot : List FrameId) : HeadTry :=
  match slot.head?.bind s.frame with
  | none => .nothing
  | some r =>
    if !(decide (o.sent < d.k) && decide (s.phase < o.window.stop) && s.ready r.id) then .nothing
    else if d.bound < s.since r.ingressStart then .drop .stale r.id
    else if o.window.stop - s.phase < wireTime r.len g then .drop .late r.id
    else .start r

/-- The egress chooses what starts on its idle wire (R112): in an open unreleased window its own frames alone, otherwise
best effort. A dropped head or a copy passed over makes it choose again, at most `fuel` times in all. A used twin window
that a LINK_DOWN left without copies is released here, at the first choice (DEDUCED, log entry 21). -/
def chooseAgain (e : Port) (g : Nat) : Nat → State → State
  | 0, s => s
  | fuel + 1, s =>
    match s.egress[e].openWindow with
    | none => chooseBestEffort e g [3, 2, 1, 0] s
    | some o =>
      if o.released then chooseBestEffort e g [3, 2, 1, 0] s else
      match o.window.kind with
      | .primary =>
        match s.streams[o.window.stream], s.leg o.window.stream e with
        | some t, some l =>
          match s.tryHead g o t.desc l.slot with
          | .nothing => s
          | .drop cause id => chooseAgain e g fuel (dropHead cause o.window.stream e id s)
          | .start r => startMotion e g o t.desc r s
        | _, _ => s
      | .twin =>
        match o.copies with
        | [] => chooseAgain e g fuel (s.modEgress e fun x => { x with openWindow := some { o with released := true } })
        | id :: rest =>
          if s.phase + wireTime (s.frameLength id) g ≤ o.window.stop then startCopy e o id rest s
          else chooseAgain e g fuel
            (s.modEgress e fun x => { x with openWindow := some { o with copies := rest, released := rest.isEmpty } })

/-- More than the heads and copies that one choice can pass over. -/
def State.attempts (s : State) (e : Port) : Nat :=
  match s.egress[e].openWindow with
  | none => 1
  | some o => ((s.leg o.window.stream e).map fun l => l.slot.length).getD 0 + o.copies.length + 2

/-- The egress chooses, when its wire is idle, its link UP and HOLD off (R112). -/
def choose (e : Port) (s : State) : State :=
  match s.ports[e].link.factor with
  | none => s
  | some g => if s.egress[e].wire.isSome || s.ports[e].hold then s else chooseAgain e g (s.attempts e) s

/-! ### Windows (R100, R101, R107 to R111) -/

/-- The next window of the pass, when its start phase has been reached and no window is open (R100). -/
def State.opening (s : State) (e : Port) : Option Window :=
  if s.egress[e].openWindow.isSome then none else
  match (s.egress[e].timeline.drop s.egress[e].nextWindow).head? with
  | some w => if w.start ≤ s.phase then some w else none
  | none => none

/-- The open window, when its end phase has been reached (R100). -/
def State.closing (s : State) (e : Port) : Option OpenWindow :=
  match s.egress[e].openWindow with
  | some o => if o.window.stop ≤ s.phase then some o else none
  | none => none

/-- A window becomes the open window of its egress. -/
def setOpen (e : Port) (w : Window) (free : Bool) (copies : List FrameId) (s : State) : State :=
  s.modEgress e fun x => { x with openWindow := some ⟨w, free, free, 0, copies⟩, nextWindow := x.nextWindow + 1 }

/-- No window of the egress is open. -/
def clearOpen (e : Port) (s : State) : State := s.modEgress e fun x => { x with openWindow := none }

/-- The leg of a window is LIVE. -/
def State.legLive (s : State) (n : StreamNo) (e : Port) : Bool := (s.leg n e).bind (·.state) == some .live

/-- A primary window opens (R101). -/
def openPrimary (e : Port) (w : Window) (s : State) : State := choose e (setOpen e w (!s.legLive w.stream e) [] s)

/-- A twin window is used: its leg is LIVE, its stream's twin calls for it, and frames are retained (R109). -/
def State.twinUsed (s : State) (n : StreamNo) (e : Port) : Bool :=
  match s.streams[n], s.leg n e with
  | some t, some l =>
    l.state == some .live && !l.retained.isEmpty &&
      (t.desc.twin == .always || (t.desc.twin == .armed && s.noise[e].state == .disturbed))
  | _, _ => false

/-- The frames retained for a leg's twin window. -/
def State.retainedOf (s : State) (n : StreamNo) (e : Port) : List FrameId :=
  ((s.leg n e).map (·.retained)).getD []

/-- A twin window opens, used or released (R109). -/
def openTwin (e : Port) (w : Window) (s : State) : State :=
  if s.twinUsed w.stream e then choose e (setOpen e w false (s.retainedOf w.stream e) s)
  else choose e (setOpen e w true [] s)

/-- The frames waiting in a leg's slot. -/
def State.slotOf (s : State) (n : StreamNo) (e : Port) : List FrameId := ((s.leg n e).map (·.slot)).getD []

/-- Every frame of a leg's slot is dropped, oldest first, with one cause. -/
def dropSlot (cause : Cause) (n : StreamNo) (e : Port) (s : State) : State :=
  if (s.slotOf n e).isEmpty then s else
  forAll (s.slotOf n e) (fun id s => returnRef id (legDrop cause n e s)) (s.modLeg n e fun l => { l with slot := [] })

/-- Every frame of a leg's twin-retained list is let go, without a count (R111). -/
def letGo (n : StreamNo) (e : Port) (s : State) : State :=
  if (s.retainedOf n e).isEmpty then s else
  returnRefs (s.retainedOf n e) (s.modLeg n e fun l => { l with retained := [] })

/-- An empty window: its counter and the miss streak rise, and the streak reaching the miss limit raises LEG_MISSING once
(R107, R108). -/
def emptyWindow (n : StreamNo) (e : Port) (l : Leg) (d : Desc) (s : State) : State :=
  let streak := min 255 (l.missStreak + 1)
  let s := bumpLeg n e .empty s
  if streak = d.missLimit ∧ 1 ≤ d.missLimit ∧ l.missNotified = false then
    raise (srcPort e) s.timer.cycle (.legMissing n e streak d.missLimit s.phase)
      (s.modLeg n e fun l => { l with missStreak := streak, missNotified := true })
  else s.modLeg n e fun l => { l with missStreak := streak }

/-- What the close of a primary window does to its leg (R107). -/
def closeLeg (e : Port) (o : OpenWindow) (s : State) : State :=
  let n := o.window.stream
  match s.streams[n], s.leg n e with
  | some t, some l =>
    if o.openedFree || l.state != some .live then s
    else if s.ports[e].hold then dropSlot .held n e s
    else if o.sent = 0 then emptyWindow n e l t.desc s
    else s
  | _, _ => s

/-! ### The end of a transmission, and a LINK_DOWN at the egress -/

/-- A best-effort frame leaves an egress: its cells leave the best-effort count and its reference is returned (R117). -/
def leaveBestEffort (e : Port) (id : FrameId) (s : State) : State :=
  let c := ((s.frame id).map (·.cells)).getD 0
  returnRef id (s.modEgress e fun x => { x with beCount := x.beCount - c })

/-- The frame on the wire has been sent for its wire time at the live speed (R105). -/
def State.sentWhole (s : State) (e : Port) : Option Transmission :=
  match s.egress[e].wire, s.ports[e].link.factor with
  | some x, some g => if wireTime (s.frameLength x.frame) g ≤ s.since x.started then some x else none
  | _, _ => none

/-- A transmission ends: the wire falls idle, and the reference is returned unless the frame is kept for a twin window
(R105, R110, R117). -/
def endTransmission (e : Port) (x : Transmission) (s : State) : State :=
  let s := s.modEgress e fun y => { y with wire := none }
  match x.kind with
  | .motion _ kept => if kept then s else returnRef x.frame s
  | .copy _ => s
  | .bestEffort => leaveBestEffort e x.frame s

/-- A frame cut off on the wire leaves its leg's twin-retained list with the one return (R20). -/
def cutMotion (n : StreamNo) (e : Port) (id : FrameId) (s : State) : State :=
  let s := setFlag e .motionDrop (reportCutOff e (some n) s)
  returnRef id (s.modLeg n e fun l => { l with retained := l.retained.erase id })

/-- LINK_DOWN cuts off the frame or copy on the wire (R20). -/
def cutWire (e : Port) (s : State) : State :=
  match s.egress[e].wire with
  | none => s
  | some x =>
    let s := bumpPort e .txAborted (s.modEgress e fun y => { y with wire := none })
    match x.kind with
    | .motion n _ => cutMotion n e x.frame s
    | .copy n => cutMotion n e x.frame s
    | .bestEffort => leaveBestEffort e x.frame (setFlag e .beDrop (reportCutOff e none s))

/-- LINK_DOWN drops a class queue, oldest first (R20). -/
def dropQueue (e : Port) (c : ClassNo) (s : State) : State :=
  forAll s.egress[e].queues[c] (fun id s =>
      leaveBestEffort e id (beDrop .linkDown .beLinkDown (((s.frame id).map (·.ingress)).getD e) e s))
    (s.modEgress e fun x => { x with queues := Table.upd x.queues c fun _ => [] })

/-- LINK_DOWN empties an egress (R20): the wire, the class queues from class 3 down, the slots in ascending stream
number, and the frames kept for twin windows, a used twin window that is open losing its copies. -/
def emptyEgress (e : Port) (s : State) : State :=
  let s := forAll [3, 2, 1, 0] (dropQueue e) (cutWire e s)
  let s := forAll allStreams (fun n => letGo n e) (forAll allStreams (fun n => dropSlot .linkDown n e) s)
  s.modEgress e fun x => { x with openWindow := x.openWindow.map fun o => { o with copies := [] } }

/-! ### The commands -/

/-- WINDOW_OPEN (R101). -/
def execWindowOpen (e : Port) (s : State) : Host.Outcome State Fault Refusal :=
  event (fun s =>
    match s.opening e with
    | some w => if w.kind = .primary then openPrimary e w s else s
    | none => s) s

/-- WINDOW_CLOSE (R107). -/
def execWindowClose (e : Port) (s : State) : Host.Outcome State Fault Refusal :=
  event (fun s =>
    match s.closing e with
    | some o => if o.window.kind = .primary then choose e (clearOpen e (closeLeg e o s)) else s
    | none => s) s

/-- TWIN_WINDOW_OPEN (R109). -/
def execTwinWindowOpen (e : Port) (s : State) : Host.Outcome State Fault Refusal :=
  event (fun s =>
    match s.opening e with
    | some w => if w.kind = .twin then openTwin e w s else s
    | none => s) s

/-- TWIN_WINDOW_CLOSE (R111). -/
def execTwinWindowClose (e : Port) (s : State) : Host.Outcome State Fault Refusal :=
  event (fun s =>
    match s.closing e with
    | some o => if o.window.kind = .twin then choose e (clearOpen e (letGo o.window.stream e s)) else s
    | none => s) s

/-- TRANSMISSION_END (R105, R117). -/
def execTransmissionEnd (e : Port) (s : State) : Host.Outcome State Fault Refusal :=
  event (fun s =>
    match s.sentWhole e with
    | some x => choose e (endTransmission e x s)
    | none => s) s

/-- The frames waiting at an egress: in its class queues and in the slots of its legs. -/
def State.waitingFrames (s : State) (e : Port) : List FrameId :=
  s.egress[e].queues.toList.flatten ++ allStreams.flatMap fun n => s.slotOf n e

/-- A frame waiting at the egress reaches its ready time at this instant (R103). -/
def State.readyNow (s : State) (e : Port) : Bool :=
  (s.waitingFrames e).any fun id =>
    match s.frame id with
    | some r => s.since r.received == Config.delta
    | none => false

/-- READY_TIME (R103). -/
def execReadyTime (e : Port) (s : State) : Host.Outcome State Fault Refusal :=
  event (fun s =>
    if s.readyNow e then choose e (s.modEgress e fun x => { x with readyTaken := true }) else s) s

end Sys2Proof.Machine
end

