-- ==== Sys2Proof/Machine/Engine.lean ====
section
/-! DEFINITION. The reservation engine (chapter 5) and the placing of whole requests and repairs (sections 4.6 and 4.7):
the arbiter, leg steps, the ends of operations, the commit, and the engine's requests. -/

namespace Sys2Proof.Machine

/-! ### The host queue (R81) -/

/-- The host queue entries that belong to ops. -/
def Engine.used (g : Engine) : Nat :=
  g.waiting.length + (match g.current with | some (.place _) => 1 | _ => 0) + g.deferred.length + g.finished.length

/-- The host queue is full. -/
def Engine.full (g : Engine) : Bool := decide (Config.hostEntries ≤ g.used)

/-- No repair waits in the internal repair set. -/
def Engine.noRepairs (g : Engine) : Bool := g.egressRepairs.all (! ·) && g.ingressRepairs.all (! ·)

/-- The engine is idle (section 5.1). -/
def Engine.idle (g : Engine) : Bool := g.current.isNone && g.waiting.isEmpty && g.noRepairs

/-- A finished reply joins the back of the finished-reply list (R81). -/
def finishReply (kind tag : Byte) (body : Reply) (s : State) : State :=
  s.modEngine fun g => { g with finished := g.finished ++ [⟨replyKind kind, tag, body⟩] }

/-- The request kinds whose replies wait. -/
def placeKind : Byte := 0x0D
def releaseKind : Byte := 0x0E

/-- An entry is the PLACE op of a stream. -/
def Entry.places (n : StreamNo) (x : Entry) : Bool := x.op == .place n

/-- The tag of the PLACE op of a stream in a list of entries. -/
def placeTag (n : StreamNo) (xs : List Entry) : Byte := ((xs.find? (Entry.places n)).map (·.tag)).getD 0

/-! ### Pending timelines -/

/-- Every window of a stream leaves the pending timelines. -/
def dropPending (n : StreamNo) (s : State) : State :=
  s.modEngine fun g => { g with timelines := g.timelines.map (withoutStream n) }

/-- The cells reserved by a stream. -/
def State.reservedCells (s : State) (n : StreamNo) : Nat := (s.streams[n].map fun t => t.desc.cells).getD 0

/-- The egress ports of a stream's legs, ascending. -/
def State.legPorts (s : State) (n : StreamNo) : List Port := (s.streams[n].map fun t => t.legs.map (·.egress)).getD []

/-- The effective ceiling of an egress is raised where its pending timeline calls for it (R73). -/
def raiseKappa (m : Nat) (e : Port) (s : State) : State :=
  s.modPort e fun u => { u with kappa := max u.kappa (ceilingNeed (reservedTime s.engine.timelines[e]) m) }

/-- The windows of a placed leg enter the pending timeline of its egress (R76). -/
def insertLeg (n : StreamNo) (planM : Nat) (e : Port) (p : Placement) (s : State) : State :=
  let r := (s.streams[n].map fun t => t.desc.repeats).getD 1
  s.modEngine fun g =>
    { g with timelines := Table.upd g.timelines e (insertWindows (windowsOf n r (planM / r) p)) }

/-! ### Leg steps (R60, R74) -/

/-- The inputs of the leg step for a stream on an egress: the speeds and the planning length read at the operation's
start, the egress settings as they stand (R60). -/
def legInputs (d : Desc) (planM : Nat) (speeds : Table Speed 8) (e : Port) (u : PortUnit) : LegInputs where
  rho := d.rho
  repeats := d.repeats
  bound := d.bound
  lmax := d.lmax
  k := d.k
  twinned := d.twin != .off
  m := planM
  gi := speeds[d.key.ingress].factor
  ge := speeds[e].factor
  mu := u.mu
  tau := u.tau
  kappa := u.kappa

/-- A PLACE op's leg step on the next egress of its list (R75): placed and held, or refused with the leg's figures
(R77). -/
def placeStep (r : PlaceRun) (d : Desc) (e : Port) (rest : List Port) (s : State) : PlaceRun :=
  let i := legInputs d r.planM r.speeds e s.ports[e]
  match legSearch i s.engine.timelines[e] with
  | .placed p => { r with todo := rest, held := r.held ++ [(e, p)] }
  | .refused why => { r with verdict := some ⟨some why, some e, legLength i, legEarliest i, legLatest i⟩ }

/-- The least stream number from `nextStream` that a repair of this kind and port examines: PLACED or ACTIVE, with a leg on the
port, or entering by it (R89). -/
def State.nextExamined (s : State) (kind : RepairKind) (p : Port) (nextStream : Nat) : Option StreamNo :=
  allStreams.find? fun n =>
    decide (nextStream ≤ n.val) &&
    match s.streams[n] with
    | none => false
    | some t =>
      (t.stage == .placed || t.stage == .active) &&
      match kind with
      | .egress => t.legs.any fun l => l.egress == p
      | .ingress => t.desc.key.ingress == p

/-- The next leg a repair examines: the stream, the egress, the stream's legs after it, and what the leg step sets aside
when it is the stream's first (R79, R80). -/
def State.repairNext (s : State) (r : RepairRun) : Option (StreamNo × Port × List Port × List (StreamNo × Port)) :=
  match r.within with
  | some (n, e :: rest) => some (n, e, rest, [])
  | _ =>
    match s.nextExamined r.kind r.port r.nextStream with
    | none => none
    | some n =>
      match r.kind with
      | .egress => some (n, r.port, [], [(n, r.port)])
      | .ingress =>
        match s.legPorts n with
        | [] => none
        | e :: rest => some (n, e, rest, (e :: rest).map fun x => (n, x))

/-- The windows a repair holds on an egress for the legs it has placed. -/
def State.heldOn (s : State) (r : RepairRun) (e : Port) : List Window :=
  r.results.flatMap fun (n, x, res) =>
    match res with
    | .placed p =>
      if x = e then
        let k := (s.streams[n].map fun t => t.desc.repeats).getD 1
        windowsOf n k (r.planM / k) p
      else []
    | .refused _ => []

/-- A timeline of an egress without the windows that a repair has set aside there. -/
def RepairRun.keep (r : RepairRun) (e : Port) (tl : List Window) : List Window :=
  tl.filter fun w => !r.aside.contains (w.stream, e)

/-- The view of a repair's leg step (R61): pending, less what is set aside, with what is held. -/
def State.repairView (s : State) (r : RepairRun) (e : Port) : List Window :=
  insertWindows (s.heldOn r e) (r.keep e s.engine.timelines[e])

/-- A repair's leg step (R79, R80). A refused leg of an ingress repair refuses its whole stream. -/
def repairStep (r : RepairRun) (n : StreamNo) (d : Desc) (e : Port) (rest : List Port) (put : List (StreamNo × Port))
    (s : State) : RepairRun :=
  let r := { r with aside := r.aside ++ put, examined := true, nextStream := n.val + 1 }
  match legSearch (legInputs d r.planM r.speeds e s.ports[e]) (s.repairView r e), r.kind with
  | res, .egress => { r with results := r.results ++ [(n, e, res)] }
  | .placed p, .ingress =>
    { r with results := r.results ++ [(n, e, .placed p)], within := if rest.isEmpty then none else some (n, rest) }
  | .refused why, .ingress =>
    { r with
      results := (r.results.filter fun x => x.1 != n) ++ (s.legPorts n).map fun x => (n, x, .refused why)
      within := none }

/-- The current operation is set. -/
def setCurrent (c : Option CurrentOp) (s : State) : State := s.modEngine fun g => { g with current := c }

/-- A leg step has been taken: they are numbered, and a repair's next stream has its own time (R87, R89). -/
def countStep (newStream : Bool) (s : State) : State :=
  s.modEngine fun g => { g with steps := g.steps + 1, mark := if newStream then s.timer.grain else g.mark }

/-- The next leg step of the current operation, where it has one (R75, R79, R80). -/
def takeLegStep (s : State) : State :=
  match s.engine.current with
  | some (.place r) =>
    match r.verdict, r.todo, s.streams[r.stream] with
    | none, e :: rest, some t => countStep false (setCurrent (some (.place (placeStep r t.desc e rest s))) s)
    | _, _, _ => s
  | some (.repair r) =>
    match s.repairNext r with
    | some (n, e, rest, put) =>
      match s.streams[n] with
      | some t =>
        let r' := repairStep r n t.desc e rest put s
        countStep r'.within.isNone (setCurrent (some (.repair r')) s)
      | none => s
    | none => s
  | none => s

/-! ### The arbiter (R85) -/

/-- The repair the arbiter takes next: port 0 first, the egress repair before the ingress repair. -/
def Engine.nextRepair (g : Engine) : Option (RepairKind × Port) :=
  allPorts.findSome? fun p =>
    if g.egressRepairs[p] then some (.egress, p)
    else if g.ingressRepairs[p] then some (.ingress, p)
    else none

/-- The planned speeds of the eight ports, as an operation reads them at its start (R60). -/
def State.plannedSpeeds (s : State) : Table Speed 8 := s.ports.map (·.planned)

/-- A repair begins (R85). -/
def newRepair (kind : RepairKind) (p : Port) (s : State) : RepairRun :=
  ⟨kind, p, s.planM, s.plannedSpeeds, 0, none, [], [], false⟩

/-- A PLACE op begins: its inputs are read and its pool check is made (R71, R87). -/
def newPlace (tag : Byte) (n : StreamNo) (s : State) : PlaceRun :=
  let c := s.reservedCells n
  { tag := tag
    stream := n
    planM := s.planM
    speeds := s.plannedSpeeds
    todo := s.legPorts n
    held := []
    verdict := if Config.motionCells < s.engine.pool + c then some ⟨none, none, c, s.engine.pool, 0⟩ else none }

/-- A RELEASE op is carried out (R88). -/
def carryRelease (tag : Byte) (n : StreamNo) (s : State) : State :=
  let c := s.reservedCells n
  let s := (dropPending n s).modEngine fun g => { g with
    pool := g.pool - c
    deferred := g.deferred ++ [⟨tag, .release n⟩]
    commitDue := true }
  s.modStream n fun t => { t with
    stage := .releasing
    releaseQueued := false
    legs := t.legs.map fun l => { l with pendingPl := none } }

/-- A repair leaves the internal repair set (R84). -/
def unpost (kind : RepairKind) (p : Port) (s : State) : State :=
  s.modEngine fun g =>
    match kind with
    | .egress => { g with egressRepairs := Table.upd g.egressRepairs p fun _ => false }
    | .ingress => { g with ingressRepairs := Table.upd g.ingressRepairs p fun _ => false }

/-- The arbiter of a free engine takes its next operations, until one stays current or none is left (R85): a repair with no
stream to examine ends as it is taken (R89), and so does a RELEASE op (R88). -/
def arbitrate : Nat → State → State
  | 0, s => s
  | fuel + 1, s =>
    if s.engine.current.isSome then s else
    match s.engine.nextRepair with
    | some (kind, p) =>
      let s := unpost kind p s
      if (s.repairNext (newRepair kind p s)).isNone then arbitrate fuel s
      else (setCurrent (some (.repair (newRepair kind p s))) s).modEngine fun g => { g with mark := s.timer.grain }
    | none =>
      match s.engine.waiting with
      | [] => s
      | x :: xs =>
        let s := s.modEngine fun g => { g with waiting := xs }
        match x.op with
        | .release n => arbitrate fuel (carryRelease x.tag n s)
        | .place n =>
          let s := s.modStream n fun t => { t with stage := .searching }
          (setCurrent (some (.place (newPlace x.tag n s))) s).modEngine fun g => { g with mark := s.timer.grain }

/-- The engine takes what it can (R85): at most 16 repairs and the entries of the host queue can be passed over. -/
def engineTake (s : State) : State := arbitrate (17 + s.engine.waiting.length) s

/-! ### The ends of operations -/

/-- A PLACE op ends with success (R76, R87). -/
def placeSuccess (r : PlaceRun) (s : State) : State :=
  let c := s.reservedCells r.stream
  let s := forAll r.held (fun (e, p) s =>
    raiseKappa r.planM e (insertLeg r.stream r.planM e p
      (s.modLeg r.stream e fun l => { l with pendingPl := some (.place p) }))) s
  let s := s.modStream r.stream fun t => { t with stage := .placed }
  engineTake (s.modEngine fun g => { g with
    pool := g.pool + c
    current := none
    deferred := g.deferred ++ [⟨r.tag, .place r.stream⟩]
    commitDue := true })

/-- A PLACE op ends with failure: the stream becomes FREE and the refusal is finished (R77, R87). -/
def placeFailure (r : PlaceRun) (why : Refused) (s : State) : State :=
  let body : Reply := match s.streams[r.stream] with
    | some t => .search ⟨r.stream, why, t.desc.lmax, t.desc.bound⟩
    | none => .plain (refusalCode why.why)
  engineTake (setCurrent none (finishReply placeKind r.tag body (s.setStream r.stream none)))

/-- A repair ends (R79, R80, R89): set-aside windows leave pending, held windows enter, pending placements are written. -/
def repairSuccess (r : RepairRun) (s : State) : State :=
  let s := forAll allPorts (fun e s =>
    s.modEngine fun g => { g with timelines := Table.upd g.timelines e (r.keep e) }) s
  let s := forAll r.results (fun (n, e, res) s =>
    match res with
    | .placed p => raiseKappa r.planM e (insertLeg n r.planM e p
        (s.modLeg n e fun l => { l with pendingPl := some (.place p) }))
    | .refused why => s.modLeg n e fun l => { l with pendingPl := some (.suspend why r.kind r.port) }) s
  engineTake (s.modEngine fun g => { g with current := none, commitDue := g.commitDue || r.examined })

/-- The current PLACE op ends, unless the commit guard holds its success (R86, R87). -/
def endPlace (s : State) : State :=
  match s.engine.current with
  | some (.place r) =>
    match r.verdict with
    | some why => placeFailure r why s
    | none => if r.todo.isEmpty && !s.inGuard then placeSuccess r s else s
  | _ => s

/-- The current repair ends once its last stream has been examined, unless the commit guard holds it (R86, R89). R86 holds a
repair whose last leg step is taken in the guard; that the guard holds also one whose last leg step came before it, or that
took none, the streams it had still to examine having been released in the guard, is a DESIGN CHOICE (log entry 37). -/
def endRepair (s : State) : State :=
  match s.engine.current with
  | some (.repair r) => if (s.repairNext r).isNone && !s.inGuard then repairSuccess r s else s
  | _ => s

/-- At a cycle start an operation that the commit guard held ends (R86, R91). -/
def endHeld (s : State) : State :=
  match s.engine.current with
  | some (.place r) => if r.verdict.isNone && r.todo.isEmpty then placeSuccess r s else s
  | some (.repair r) => if (s.repairNext r).isNone then repairSuccess r s else s
  | none => s

/-! ### The commit (R91) -/

/-- A leg state by the live link against the planned speed (R45). -/
def legStateBy (u : PortUnit) : LegState :=
  match u.link with
  | .down => .dormant
  | .up x => if x = u.planned then .live else .mismatch

/-- A leg of a stream that becomes ACTIVE (R45). -/
def activateLeg (s : State) (l : Leg) : Leg :=
  match l.pendingPl with
  | some (.place p) =>
    { egress := l.egress, state := some (legStateBy s.ports[l.egress]), placement := some p, pendingPl := none, slot := [],
      retained := [], missStreak := 0, missNotified := false }
  | some (.suspend ..) =>
    { egress := l.egress, state := some .suspended, placement := none, pendingPl := none, slot := [], retained := [],
      missStreak := 0, missNotified := false }
  | none =>
    { egress := l.egress, state := some (legStateBy s.ports[l.egress]), placement := l.placement, pendingPl := none,
      slot := [], retained := [], missStreak := 0, missNotified := false }

/-- The cause of the drops when a commit takes a leg out of LIVE: that of its new state (R48). -/
def stateCause : LegState → Cause
  | .mismatch => .mismatch
  | .suspended => .suspended
  | _ => .linkDown

/-- A leg takes a new state at a commit; leaving LIVE it drops its slot and lets its retained frames go (R48). -/
def commitState (n : StreamNo) (e : Port) (old : Option LegState) (new : LegState) (s : State) : State :=
  let s := s.modLeg n e fun l => { l with state := some new, pendingPl := none }
  if old = some .live ∧ new ≠ .live then letGo n e (dropSlot (stateCause new) n e s) else s

/-- The pending placement of a leg of an ACTIVE stream is consumed (R47). -/
def commitLeg (n : StreamNo) (l : Leg) (s : State) : State :=
  match l.pendingPl with
  | none => s
  | some (.place p) =>
    commitState n l.egress l.state (legStateBy s.ports[l.egress])
      (s.modLeg n l.egress fun x => { x with placement := some p })
  | some (.suspend ..) =>
    commitState n l.egress l.state .suspended (s.modLeg n l.egress fun x => { x with placement := none })

/-- A RELEASING stream becomes FREE at a commit (R46). -/
def freeReleasing (n : StreamNo) (t : Stream) (s : State) : State :=
  let s := forAll t.legs (fun l s => letGo n l.egress (dropSlot .released n l.egress s)) s
  forAll allProbes (probeFreed s.timer.cycle n) ((orphanFrames n s).setStream n none)

/-- What the commit does to one stream (R44). -/
def commitStream (n : StreamNo) (s : State) : State :=
  match s.streams[n] with
  | none => s
  | some t =>
    match t.stage with
    | .placed =>
      s.setStream n (some { t with
        stage := .active
        alive := 0
        firstActive := some s.timer.cycle
        releaseQueued := false
        legs := t.legs.map (activateLeg s) })
    | .active => forAll t.legs (commitLeg n) s
    | .releasing => freeReleasing n t s
    | _ => s

/-- The LEG_SUSPENDED notices that a commit raises: one for each pending SUSPEND of a PLACED or ACTIVE stream, in ascending
stream number and egress (R93). -/
def State.suspensions (s : State) : List NoticeData :=
  allStreams.flatMap fun n =>
    match s.streams[n] with
    | none => []
    | some t =>
      if t.stage = .placed ∨ t.stage = .active then
        t.legs.filterMap fun l =>
          match l.pendingPl with
          | some (.suspend why kind p) => some (.legSuspended n l.egress why kind p)
          | _ => none
      else []

/-- A stream's PLACED reply at the commit that makes it ACTIVE (R92). -/
def placedReply (s : State) (n : StreamNo) (t : Stream) : PlacedReply where
  stream := n
  part := 0
  firstActive := s.timer.cycle
  lmax := t.desc.lmax
  bound := t.desc.bound
  handling := t.desc.handling
  legs := t.legs.map fun l => ⟨l.egress, l.state, l.placement⟩

/-- The reply of a DEFERRED entry at the commit (R92). -/
def deferredReply (s : State) (x : Entry) : FinishedReply :=
  match x.op with
  | .place n =>
    match s.streams[n] with
    | some t => ⟨replyKind placeKind, x.tag, .placed (placedReply s n t)⟩
    | none => ⟨replyKind placeKind, x.tag, .plain .cancelled⟩
  | .release n => ⟨replyKind releaseKind, x.tag, .released n s.timer.cycle⟩

/-- The commit (R91), with the number of the cycle that begins in the cycle timer. -/
def commit (s : State) : State :=
  let notices := s.suspensions
  let s := forAll allPorts (fun e s => s.modEgress e fun x => { x with timeline := s.engine.timelines[e] }) s
  let s := forAll allStreams commitStream s
  let s := s.modEngine fun g => { g with
    finished := g.finished ++ g.deferred.map (deferredReply s)
    deferred := [] }
  let s := forAll notices (raise srcEngine s.timer.cycle) s
  s.modEngine fun g => { g with lastCommit := some s.timer.cycle, commitDue := false }

/-- The engine at a cycle start (R86, R91). -/
def engineCycle (s : State) : State := endHeld (if s.engine.commitDue then commit s else s)

/-! ### The commands -/

/-- LEG_STEP (R74). -/
def execLegStep (s : State) : Host.Outcome State Fault Refusal := event takeLegStep s

/-- PLACE_OP_END (R87). -/
def execPlaceOpEnd (s : State) : Host.Outcome State Fault Refusal := event endPlace s

/-- REPAIR_END (R89). -/
def execRepairEnd (s : State) : Host.Outcome State Fault Refusal := event endRepair s

/-- The key of a PLACE request is held by a non-FREE stream (R43); its port field is checked only afterwards. -/
def State.keyHeld (s : State) (port : Nat) (dest : Mac) (vlan : Option Nat) : Bool :=
  allStreams.any fun n => s.streams[n].any fun t =>
    t.desc.key.ingress.val == port && t.desc.key.dest == dest && t.desc.key.vlan == vlan

/-- A new leg (R47). -/
def newLeg (e : Port) : Leg := ⟨e, none, none, none, [], [], 0, false⟩

/-- An accepted PLACE: the stream is QUEUED with its legs, and its op WAITING (R82). -/
def acceptPlace (tag : Byte) (n : StreamNo) (d : Desc) (s : State) : State :=
  engineTake ((s.setStream n (some ⟨.queued, d, 0, none, false, (portsOf d.egressSet).map newLeg⟩)).modEngine fun g =>
    { g with waiting := g.waiting ++ [⟨tag, .place n⟩] })

/-- PLACE, with its checks in their order (R82). -/
def runPlace (q : Request) (s : State) : State :=
  match asStream (q.b 0) with
  | none => badField q 0 s
  | some n =>
    if s.streams[n].isSome then refuse q .exists s
    else if s.keyHeld (q.b 1) (BitVec.ofNat 48 (q.field 2 6)) (asVlan (q.field 8 2)) then refuse q .exists s
    else
      match q.desc s.planM with
      | .error offset => badField q offset s
      | .ok d =>
        if s.engine.locked then refuse q .locked s
        else if s.engine.full then refuse q .busy s
        else acceptPlace q.tag n d s

def execPlace (s : State) : Host.Outcome State Fault Refusal := event (taking placeKind 26 runPlace) s

/-- The PLACE of a released stream is replied CANCELLED through the finished-reply list, and its RELEASE OK (R83). -/
def cancelPlace (q : Request) (tag : Byte) (s : State) : State :=
  answer q (.plain .ok) (finishReply placeKind tag (.plain .cancelled) s)

/-- A repair that is the current operation forgets a PLACED stream that is released (R90). -/
def RepairRun.forget (n : StreamNo) (r : RepairRun) : RepairRun :=
  { r with
    within := r.within.filter fun x => x.1 != n
    aside := r.aside.filter fun x => x.1 != n
    results := r.results.filter fun x => x.1 != n }

/-- The RELEASE of a QUEUED stream (R83). -/
def releaseQueuedStream (q : Request) (n : StreamNo) (s : State) : State :=
  let tag := placeTag n s.engine.waiting
  cancelPlace q tag ((s.setStream n none).modEngine fun g =>
    { g with waiting := g.waiting.filter fun x => !x.places n })

/-- The RELEASE of a SEARCHING stream abandons the current operation, which is its PLACE op (R77, R83, R87). -/
def releaseSearching (q : Request) (n : StreamNo) (s : State) : State :=
  match s.engine.current with
  | some (.place r) => engineTake (cancelPlace q r.tag (setCurrent none (s.setStream n none)))
  | _ => answer q (.plain .ok) (s.setStream n none)

/-- The RELEASE of a PLACED stream (R83, R90). -/
def releasePlaced (q : Request) (n : StreamNo) (s : State) : State :=
  let tag := placeTag n s.engine.deferred
  let c := s.reservedCells n
  cancelPlace q tag (((dropPending n s).setStream n none).modEngine fun g => { g with
    pool := g.pool - c
    deferred := g.deferred.filter fun x => !x.places n
    current := g.current.map fun op =>
      match op with
      | .repair r => .repair (r.forget n)
      | .place r => .place r })

/-- RELEASE, by the stream's state and the lock (R83). -/
def runRelease (q : Request) (s : State) : State :=
  match asStream (q.b 0) with
  | none => badField q 0 s
  | some n =>
    match s.streams[n] with
    | none => refuse q .noSuch s
    | some t =>
      if t.stage = .releasing then refuse q .state s
      else if s.engine.locked then refuse q .locked s
      else
        match t.stage with
        | .queued => releaseQueuedStream q n s
        | .searching => releaseSearching q n s
        | .placed => releasePlaced q n s
        | _ =>
          if t.releaseQueued then refuse q .state s
          else if s.engine.full then refuse q .busy s
          else
            engineTake ((s.modStream n fun t => { t with releaseQueued := true }).modEngine fun g =>
              { g with waiting := g.waiting ++ [⟨q.tag, .release n⟩] })

def execRelease (s : State) : Host.Outcome State Fault Refusal := event (taking releaseKind 1 runRelease) s

/-- SET_CYCLE (R95). -/
def runSetCycle (q : Request) (s : State) : State :=
  if s.engine.locked then refuse q .locked s
  else if (allStreams.all fun n => s.streams[n].isNone) && s.engine.idle then
    let n := clamp 32 1000 (q.field 0 2)
    answer q (.cycleSet n s.timer.m (n * 1000)) (s.modTimer fun t => { t with nextN := some n })
  else refuse q .notEmpty s

def execSetCycle (s : State) : Host.Outcome State Fault Refusal := event (taking 0x0F 2 runSetCycle) s

/-- LOCK (R96). -/
def runLock (q : Request) (s : State) : State :=
  if s.engine.idle && !s.engine.commitDue then
    answer q (.plain .ok) (s.modEngine fun g => { g with locked := true })
  else refuse q .busy s

def execLock (s : State) : Host.Outcome State Fault Refusal := event (taking 0x10 0 runLock) s

/-- TIMELINE_READ (R97); of an egress and an index that both fail, the egress is named (DESIGN CHOICE, log entry 32). -/
def runTimelineRead (q : Request) (s : State) : State :=
  match asPort (q.b 0) with
  | none => badField q 0 s
  | some e =>
    if 255 < q.field 1 2 then badField q 1 s
    else
      let tl := s.egress[e].timeline
      answer q (.timeline ⟨e, s.engine.lastCommit, tl.length, reservedTime tl, q.field 1 2,
        (tl.drop (q.field 1 2)).take 4⟩) s

def execTimelineRead (s : State) : Host.Outcome State Fault Refusal := event (taking 0x11 3 runTimelineRead) s

/-- The records of a finished reply: a PLACED reply of five or more legs is a pair (section 11.6). -/
def replyParts : Reply → List Reply
  | .placed r =>
    if 4 < r.legs.length then
      [.placed { r with part := 1, legs := r.legs.take 4 }, .placed { r with part := 2, legs := r.legs.drop 4 }]
    else [.placed r]
  | r => [r]

/-- FINISHED_REPLY_MOVE: the head of the finished-reply list enters the outbound queue when there is a place for each of
its records, and its host queue entry becomes free (R94, R174). -/
def execFinishedReplyMove (s : State) : Host.Outcome State Fault Refusal :=
  event (fun s =>
    match s.engine.finished with
    | [] => s
    | x :: xs =>
      if s.mgmt.outbound.length + (replyParts x.body).length ≤ Config.outboundPlaces then
        forAll (replyParts x.body) (fun r => push (.reply x.kind x.tag r))
          (s.modEngine fun g => { g with finished := xs })
      else s) s

end Sys2Proof.Machine
end

