-- ==== Sys2Proof/Machine/Noise.lean ====
section
/-! DEFINITION. The noise monitors (chapter 8): receive faults, the ARC edges, cycle-end checks, and the commands
QUIET_COOL_DOWN, CALM_COOL_DOWN and SET_ARC. -/

namespace Sys2Proof.Machine

/-- A change of noise state with its effects (R147). Every entry leaves both streaks at 0, as R147 and section 8.7 give;
the notice carries the count, cycle number and phase of the change. -/
def noiseChange (p : Port) (new : NoiseState) (cause : NoiseCause) (count : Nat) (cycle : CycleNo) (phase : Nat)
    (s : State) : State :=
  let old := s.noise[p].state
  let s := s.modNoise p fun m => { m with state := new, quiet := 0, calm := 0 }
  let s := if new = .disturbed then bumpPort p .disturbedEntries (setFlag p .noiseDisturbed s) else s
  raise (srcPort p) cycle (.noiseState p new old cause count phase) s

/-- A change of noise state at the present instant, with the count so far. -/
def noiseChangeNow (p : Port) (new : NoiseState) (cause : NoiseCause) (s : State) : State :=
  noiseChange p new cause s.noise[p].count s.timer.cycle s.phase s

/-- The upward test after a receive fault (R141). -/
def upwardTest (p : Port) (s : State) : State :=
  let m := s.noise[p]
  let u := s.ports[p]
  match m.state with
  | .clean =>
    if u.thetaD ≤ m.count then noiseChangeNow p .disturbed .faultCount s
    else if u.thetaW ≤ m.count then noiseChangeNow p .watch .faultCount s
    else s
  | .watch => if u.thetaD ≤ m.count then noiseChangeNow p .disturbed .faultCount s else s
  | .disturbed => s

/-- A receive fault is reported to the port's monitor (R140). -/
def receiveFault (p : Port) (s : State) : State :=
  let s := s.modNoise p fun m => { m with count := min 65535 (m.count + 1) }
  let s := s.modNoise p fun m =>
    match m.state with
    | .disturbed => { m with quiet := 0 }
    | .watch => if s.ports[p].thetaW ≤ m.count then { m with calm := 0 } else m
    | .clean => m
  upwardTest p s

/-- The quiet streak the cycle-end check of a DISTURBED port finds (R143). -/
def State.quietNext (s : State) (p : Port) : Nat :=
  if s.noise[p].count = 0 ∧ (s.arc.filter.accepted = false ∨ s.ports[p].arcExposed = false)
  then min 255 (s.noise[p].quiet + 1) else 0

/-- The calm streak the cycle-end check of a WATCH port finds (R144). -/
def State.calmNext (s : State) (p : Port) : Nat :=
  if s.noise[p].count < s.ports[p].thetaW then min 255 (s.noise[p].calm + 1) else 0

/-- The cycle-end check of a monitor, at the start of the cycle with this number (R143, R144); the count of the new
cycle starts from 0 (R140), and a state DISTURBED before the check counts a disturbed cycle (R147). -/
def noiseCheck (cycle : CycleNo) (p : Port) (s : State) : State :=
  let s :=
    match s.noise[p].state with
    | .disturbed =>
      let t := bumpPort p .disturbedCycles s
      if s.ports[p].coolDown ≤ s.quietNext p then noiseChange p .watch .coolDown s.noise[p].count cycle 0 t
      else t.modNoise p fun m => { m with quiet := s.quietNext p }
    | .watch =>
      if s.ports[p].coolDown ≤ s.calmNext p then noiseChange p .clean .coolDown s.noise[p].count cycle 0 s
      else s.modNoise p fun m => { m with calm := s.calmNext p }
    | .clean => s
  s.modNoise p fun m => { m with count := 0 }

/-- The monitor at a cycle start: its check, unless it has been made already for this cycle start. -/
def noiseCycle (cycle : CycleNo) (p : Port) (s : State) : State :=
  (if s.noise[p].checked then s else noiseCheck cycle p s).modNoise p fun m => { m with checked := false }

/-- An accepted edge of the ARC filter (R142, R150). -/
def arcEdge (on : Bool) (stamp : Stamp) (s : State) : State :=
  let s := bumpDevice (if on then .arcOn else .arcOff) s
  let s := s.modArc fun a => { a with lastEdge := some ⟨on, stamp, s.timer.cycle, s.phase⟩ }
  if on then
    forAll allPorts (fun p s =>
      if s.ports[p].arcExposed then
        if s.noise[p].state = .disturbed then s.modNoise p fun m => { m with quiet := 0 }
        else noiseChangeNow p .disturbed .arcOn s
      else s) s
  else s

/-- Arc-exposed is turned on at a port (R145). -/
def exposedOn (p : Port) (s : State) : State :=
  if s.arc.filter.accepted then
    if s.noise[p].state = .disturbed then s.modNoise p fun m => { m with quiet := 0 }
    else noiseChangeNow p .disturbed .exposedSet s
  else s

/-- PORT_RESTART sets the monitor to CLEAN with its count and streaks at 0 (R148); the notice carries the count at the
instant of the change. -/
def noiseRestart (p : Port) (s : State) : State :=
  let s := if s.noise[p].state = .clean then s else noiseChangeNow p .clean .portRestart s
  s.modNoise p fun m => { m with count := 0, quiet := 0, calm := 0 }

/-! ### The commands -/

/-- The check of one monitor taken ahead of the rest of the cycle start that is due. -/
def checkAhead (p : Port) (s : State) : State :=
  (noiseCheck (s.timer.cycle + 1) p s).modNoise p fun m => { m with checked := true }

/-- QUIET_COOL_DOWN: at the cycle start that is due, the quiet streak of a DISTURBED port reaches Q (R143). -/
def execQuietCoolDown (p : Port) (s : State) : Host.Outcome State Fault Refusal :=
  event (fun s =>
    if s.cycleDue && !s.noise[p].checked && s.noise[p].state == .disturbed && decide (s.ports[p].coolDown ≤ s.quietNext p)
    then checkAhead p s else s) s

/-- CALM_COOL_DOWN: at the cycle start that is due, the calm streak of a WATCH port reaches Q (R144). -/
def execCalmCoolDown (p : Port) (s : State) : Host.Outcome State Fault Refusal :=
  event (fun s =>
    if s.cycleDue && !s.noise[p].checked && s.noise[p].state == .watch && decide (s.ports[p].coolDown ≤ s.calmNext p)
    then checkAhead p s else s) s

/-- A change of a filter's sampling interval (R5); the interval in force leaves the filter as it is (R149). -/
def LineFilter.setInterval (v : Nat) (f : LineFilter) : LineFilter :=
  if f.interval = v then f else { f with interval := v, count := 0 }

/-- The SET_ARC reply (R149). -/
def arcReply (s : State) : ArcReply where
  interval := s.arc.filter.interval
  level := s.arc.filter.accepted
  lastEdge := s.arc.lastEdge
  ports := allPorts.map fun p =>
    ⟨s.ports[p].arcExposed, s.noise[p].state, s.noise[p].count, s.noise[p].quiet, s.noise[p].calm⟩

/-- SET_ARC (R149). -/
def runSetArc (r : Request) (s : State) : State :=
  let s := s.modArc fun a => { a with filter := a.filter.setInterval (nearestInterval (r.b 0)) }
  answer r (.arc (arcReply s)) s

def execSetArc (s : State) : Host.Outcome State Fault Refusal := event (taking 0x17 1 runSetArc) s

end Sys2Proof.Machine
end

