-- ==== Sys2Proof/Machine/Forwarding.lean ====
section
/-! DEFINITION. A frame's way through the part: reception and ingress checks (R31 to R34), classification and the motion
path (R51 to R56, R102), learning, lookup and admission (R127 to R138), and the address table's requests. -/

namespace Sys2Proof.Machine

/-! ### Ingress checks (R32 to R34) -/

/-- A VLAN filter window covers a VID (section 2.6). -/
def VlanWindow.covers (w : VlanWindow) (v : Nat) : Bool :=
  w.enable && decide (w.base ≤ v) && decide (v ≤ min (w.base + w.size - 1) 4095)

/-- The VLAN filter passes a frame (R34). -/
def filterPasses (u : PortUnit) (f : RxFrame) : Bool :=
  if u.windows.all fun w => !w.enable then true
  else
    match frameVlan f with
    | some v => u.windows.any fun w => w.covers v
    | none => u.untaggedAllowed

/-- The ingress cause of priority 0 to 5 that a frame gets when it ends, if any (R32). -/
def portCause (u : PortUnit) (f : RxFrame) : Option Cause :=
  if f.symbolError then some .symbol
  else if !f.fcsOk then some .fcs
  else if frameLen f < 64 then some .runt
  else if 1522 < frameLen f then some .oversize
  else if !u.ingressEnable then some .ingressOff
  else if !filterPasses u f then some .filtered
  else none

/-- A frame with an ingress cause is dropped: counted on the port and reported (R33). -/
def ingressDrop (p : Port) (cause : Cause) (n : Option StreamNo) (s : State) : State :=
  report cause (.ingress p) n (bumpPort p (.ingress cause) s)

/-- A drop of cause 0 to 5, with the receive fault or the flag that goes with it (R33). -/
def portDrop (p : Port) (cause : Cause) (s : State) : State :=
  let s := ingressDrop p cause none s
  match cause with
  | .symbol => receiveFault p s
  | .fcs => receiveFault p s
  | .runt => receiveFault p s
  | .filtered => setFlag p .filterHit s
  | _ => s

/-! ### The motion path (R53 to R56, R102) -/

/-- The stream that holds a key (R43, R51). -/
def State.streamOf (s : State) (key : Key) : Option StreamNo :=
  allStreams.find? fun n => s.streams[n].any fun t => t.desc.key == key

/-- A frame handed to the slot of a LIVE leg (R102), upon which the egress makes its try (R104). The report of an OVERRUN
comes behind those of older frames of its stream that the try drops (R152). -/
def slotEntry (n : StreamNo) (e : Port) (d : Desc) (id : FrameId) (s : State) : State :=
  let slot := s.slotOf n e
  if slot.length < d.k then choose e (s.modLeg n e fun l => { l with slot := l.slot ++ [id] })
  else
    match d.handling, slot with
    | .latest, old :: rest =>
      choose e (bumpLeg n e .replaced (returnRef old (s.modLeg n e fun l => { l with slot := rest ++ [id] })))
    | _, _ => returnRef id (legDrop .overrun n e (choose e s))

/-- One leg of an ACTIVE stream at the arrival of a stored frame: a LIVE leg takes it and its egress chooses, any other
drops it with the cause of its state (R54, R56). -/
def legArrival (n : StreamNo) (d : Desc) (id : FrameId) (l : Leg) (s : State) : State :=
  match l.state with
  | some .live => slotEntry n l.egress d id s
  | some .dormant => legDrop .linkDown n l.egress s
  | some .mismatch => legDrop .mismatch n l.egress s
  | some .suspended => legDrop .suspended n l.egress s
  | none => s

/-- The storage check refuses a frame of an ACTIVE stream: one ingress NO_BUFFER, counted on every leg and flagged on every
leg's egress (R33, R55). -/
def motionRefused (p : Port) (n : StreamNo) (t : Stream) (s : State) : State :=
  forAll t.legs (fun l s => setFlag l.egress .motionDrop (bumpLeg n l.egress .noBuffer s))
    (ingressDrop p .noBuffer (some n) s)

/-- The number of LIVE legs of a stream. -/
def Stream.liveLegs (t : Stream) : Nat := t.legs.countP fun l => l.state == some .live

/-- A frame arrives on the motion path (R54 to R56). -/
def motionArrival (p : Port) (start : Stamp) (n : StreamNo) (t : Stream) (f : RxFrame) (s : State) : State :=
  let s := bumpStream n .matched s
  if t.liveLegs = 0 then forAll t.legs (legArrival n t.desc s.buffer.nextId) s
  else if 2 * t.desc.k ≤ t.alive ∨ s.buffer.motionFree < cellsOf (frameLen f) then motionRefused p n t s
  else
    forAll t.legs (legArrival n t.desc s.buffer.nextId)
      ((storeFrame .motion t.liveLegs p start (some n) none f s).modStream n fun t => { t with alive := t.alive + 1 })

/-- A frame of an ACTIVE stream that is longer than its Lmax (R33, R53). -/
def streamOversize (p : Port) (n : StreamNo) (s : State) : State :=
  setFlag p .motionDrop (bumpStream n .oversize (ingressDrop p .streamOversize (some n) s))

/-! ### Best effort (R127 to R129, R136 to R138) -/

/-- The address table learns a best-effort frame's source (R127, R128). -/
def learn (p : Port) (f : RxFrame) (s : State) : State :=
  if isGroup (frameSource f) then s else
  match s.addrEntry (frameSource f) (frameVlan f) with
  | none =>
    if s.addrFull then
      raise (srcPort p) s.timer.cycle (.learnFull p (frameSource f) (frameVlan f))
        (report .learnFull (.ingress p) none s)
    else bumpDevice .learn (addrInsert (frameSource f) (frameVlan f) p .learned s)
  | some x =>
    match x.kind with
    | .learned =>
      let s := addrUpdate x.pos (fun y => { y with port := p, age := 0 }) s
      if x.port = p then s else bumpDevice .move s
    | .static => if x.port = p then s else bumpDevice .staticConflict s

/-- The targets of a best-effort frame; `none` is the SAME_PORT drop (R129). -/
def State.targets (s : State) (p : Port) (f : RxFrame) : Option (List Port) :=
  let flood := allPorts.filter fun e => e != p
  if isGroup (frameDest f) then some flood
  else
    match s.addrEntry (frameDest f) (frameVlan f) with
    | none => some flood
    | some x => if x.port = p then none else some [x.port]

/-- A best-effort frame joins an egress: counted, queued, and the egress chooses (R137). -/
def joinClass (cls : ClassNo) (c : Nat) (id : FrameId) (e : Port) (s : State) : State :=
  choose e (s.modEgress e fun x => { x with
    beCount := x.beCount + c
    queues := Table.upd x.queues cls fun q => q ++ [id] })

/-- A target egress can take c cells more: it is UP and within its limit (R136). -/
def State.hasRoom (s : State) (c : Nat) (e : Port) : Bool :=
  s.ports[e].link != .down && decide (s.egress[e].beCount + c ≤ s.ports[e].beLimit)

/-- What a target that does not take a stored frame counts (R137, R138). -/
def targetDrop (p : Port) (e : Port) (s : State) : State :=
  if s.ports[e].link = .down then beDrop .linkDown .beLinkDown p e s else beDrop .noBuffer .beNoBuffer p e s

/-- Admission of a best-effort frame to its targets (R136, R137). -/
def admitFrame (p : Port) (start : Stamp) (f : RxFrame) (cls : ClassNo) (targets : List Port) (s : State) : State :=
  let c := cellsOf (frameLen f)
  let takers := if c ≤ s.buffer.beFree then targets.filter (s.hasRoom c) else []
  if takers.isEmpty then
    let down := targets.filter fun e => s.ports[e].link == .down
    let s := forAll down (targetDrop p) s
    if down.length < targets.length then setFlag p .beDrop (ingressDrop p .noBuffer none s) else s
  else
    let id := s.buffer.nextId
    let s := forAll (targets.filter fun e => !takers.contains e) (targetDrop p) s
    forAll takers (joinClass cls c id) (storeFrame .bestEffort takers.length p start none (some cls) f s)

/-- A best-effort frame: class, learning, lookup, admission (section 7.3). -/
def bestEffort (p : Port) (start : Stamp) (f : RxFrame) (s : State) : State :=
  let cls := frameClass f s.ports[p].defaultClass
  let s := learn p f s
  match s.targets p f with
  | none => setFlag p .beDrop (report .samePort (.ingress p) none (bumpPort p .samePort s))
  | some ts => admitFrame p start f cls ts s

/-- The classifier's decision for a good frame (R51). -/
def classify (p : Port) (start : Stamp) (f : RxFrame) (s : State) : State :=
  match s.streamOf ⟨p, frameDest f, frameVlan f⟩ with
  | none => bestEffort p start f s
  | some n =>
    match s.streams[n] with
    | none => bestEffort p start f s
    | some t =>
      if t.stage = .active then
        if t.desc.lmax < frameLen f then streamOversize p n s else motionArrival p start n t f s
      else bestEffort p start f (bumpStream n .unreserved s)

/-! ### The commands of reception -/

/-- RECEPTION_START: a port whose link is UP begins a frame and stamps it (R31). -/
def execReceptionStart (p : Port) (s : State) : Host.Outcome State Fault Refusal :=
  event (fun s =>
    if s.ports[p].link != .down && s.ports[p].receiving.isNone then
      s.modPort p fun u => { u with receiving := some s.timer.grain }
    else s) s

/-- FRAME_END: the frame being received ends and is checked (R32, R33). -/
def execFrameEnd (p : Port) (f : RxFrame) (s : State) : Host.Outcome State Fault Refusal :=
  event (fun s =>
    match s.ports[p].receiving with
    | none => s
    | some start =>
      let s := s.modPort p fun u => { u with receiving := none }
      match portCause s.ports[p] f with
      | some cause => portDrop p cause s
      | none => classify p start f (bumpPort p .good s)) s

/-! ### The address requests (R130 to R135) -/

/-- The aging of one cycle start: the count rises and, at A, a sweep is made (R130). -/
def ageTable (s : State) : State :=
  if s.addr.interval = 0 then s.modAddr fun t => { t with count := 0 }
  else if s.addr.interval ≤ s.addr.count + 1 then
    { s with
      addr := { s.addr with count := 0, entries := sweepEntries s.addr.entries }
      deviceCounters := Table.upd s.deviceCounters DeviceCounter.agedOut.index fun c => satAdd c (agedOut s.addr.entries) }
  else s.modAddr fun t => { t with count := t.count + 1 }

/-- The address table at a cycle start: its aging, unless it has been made already for this cycle start. -/
def ageCycle (s : State) : State :=
  (if s.addr.swept then s else ageTable s).modAddr fun t => { t with swept := false }

/-- AGING_SWEEP: at the cycle start that is due, the aging count reaches A (R130). -/
def execAgingSweep (s : State) : Host.Outcome State Fault Refusal :=
  event (fun s =>
    if s.cycleDue && !s.addr.swept && decide (0 < s.addr.interval) && decide (s.addr.interval ≤ s.addr.count + 1)
    then (ageTable s).modAddr fun t => { t with swept := true } else s) s

/-- SET_AGING (R131). -/
def runSetAging (q : Request) (s : State) : State :=
  let a := clamp 0 65535 (q.field 0 4)
  answer q (.agingSet a) (s.modAddr fun t => { t with interval := a, count := 0 })

def execSetAging (s : State) : Host.Outcome State Fault Refusal := event (taking 0x16 4 runSetAging) s

/-- ADDR_ADD_STATIC (R132). -/
def runAddrAddStatic (q : Request) (s : State) : State :=
  let mac := BitVec.ofNat 48 (q.field 0 6)
  let vlan := asVlan (q.field 6 2)
  match asPort (q.b 8) with
  | none => badField q 8 s
  | some p =>
    if 4095 < q.field 6 2 then badField q 6 s
    else if isGroup mac then badField q 0 s
    else
      match s.addrEntry mac vlan with
      | none =>
        if s.addrFull then refuse q .full s
        else answer q (.addrAdded (lowestFree 0 s.addr.entries) p none) (addrInsert mac vlan p .static s)
      | some x =>
        answer q (.addrAdded x.pos p (some x.kind))
          (addrUpdate x.pos (fun y =>
            { y with kind := .static, port := p, age := if y.kind = .learned then 0 else y.age }) s)

def execAddrAddStatic (s : State) : Host.Outcome State Fault Refusal := event (taking 0x12 9 runAddrAddStatic) s

/-- ADDR_REMOVE (R133). -/
def runAddrRemove (q : Request) (s : State) : State :=
  if 4095 < q.field 6 2 then badField q 6 s
  else
    match s.addrEntry (BitVec.ofNat 48 (q.field 0 6)) (asVlan (q.field 6 2)) with
    | none => refuse q .noSuch s
    | some x =>
      answer q (.addrRemoved x.pos x.port x.kind)
        (s.modAddr fun t => { t with entries := t.entries.filter fun y => y.pos != x.pos })

def execAddrRemove (s : State) : Host.Outcome State Fault Refusal := event (taking 0x13 8 runAddrRemove) s

/-- ADDR_FLUSH: scope LEARNED 0, ALL 1 (R134). -/
def runAddrFlush (q : Request) (s : State) : State :=
  if !isBit (q.b 0) then badField q 0 s
  else
    let left := if q.b 0 = 0 then s.addr.entries.filter fun x => x.kind == .static else []
    answer q (.addrFlushed (s.addr.entries.length - left.length) left.length)
      (s.modAddr fun t => { t with entries := left })

def execAddrFlush (s : State) : Host.Outcome State Fault Refusal := event (taking 0x15 1 runAddrFlush) s

/-- ADDR_READ (R135). -/
def runAddrRead (q : Request) (s : State) : State :=
  if 1023 < q.field 0 2 then badField q 0 s
  else
    let above := s.addr.entries.filter fun x => decide (q.field 0 2 ≤ x.pos)
    let page := above.take 4
    let next := if above.length ≤ 4 then Config.addressPositions else ((page.getLast?.map (·.pos)).getD 0) + 1
    answer q (.addrPage s.addr.entries.length page next) s

def execAddrRead (s : State) : Host.Outcome State Fault Refusal := event (taking 0x14 2 runAddrRead) s

end Sys2Proof.Machine
end

