-- ==== Sys2Proof/Machine/Sync.lean ====
section
/-! DEFINITION. Cell time (chapter 1): the line filters, strobes and their handling, the cycle-end check, the cycle start
with what every block does on it, and the requests SET_SYNC and SYNC_STATUS. -/

namespace Sys2Proof.Machine

/-! ### Strobes (R7 to R12) -/

/-- A change of sync state raises SYNC_STATE (R6). -/
def changeSync (new : SyncState) (s : State) : State :=
  if s.timer.sync = new then s
  else raise srcSync s.timer.cycle (.syncState new s.timer.sync s.phase) (s.modTimer fun t => { t with sync := new })

/-- A device event of the sync logic is reported (R16). -/
def deviceReport (cause : Cause) (strobe : Option Stamp) (s : State) : State :=
  reportWith cause .device none none strobe s

/-- The phase of a strobe's timestamp in the current cycle; negative when it lies before the cycle's start (R7). -/
def Timer.strobePhase (x : Timer) (stamp : Stamp) : Int := (stamp - x.start).toInt

/-- The start a strobe is matched to, with its distance ε (R7): case A below 0, case B from E − M/2, else case C. -/
def Timer.matchStart (x : Timer) (t : Int) : StartRef × Int :=
  if t < 0 then (.current, t)
  else if (x.endE : Int) - (x.m / 2 : Nat) ≤ t then (.next, t - x.endE)
  else (.current, t)

/-- The start is already marked (R8). -/
def Timer.marked (x : Timer) : StartRef → Bool
  | .current => x.currentMark
  | .next => x.nextMark

/-- A start is marked (R9). -/
def Timer.setMark (ref : StartRef) (x : Timer) : Timer :=
  match ref with
  | .current => { x with currentMark := true }
  | .next => { x with nextMark := true }

/-- A strobe replaces the last-strobe record (R15). -/
def recordStrobe (r : StrobeRecord) (s : State) : State := s.modTimer fun x => { x with lastStrobe := some r }

/-- The least t + j × M, j ≥ 1, that is not less than E (R12). -/
def realignedEnd (endE m : Nat) (t : Int) : Nat := (t + max 1 (-((t - endE) / (m : Int))) * m).toNat

/-- A realign places the cycle grid on the strobe (R12). -/
def realign (stamp : Stamp) (t : Int) (s : State) : State :=
  deviceReport .realign (some stamp) (changeSync .locked (s.modTimer fun x => { x.moveEnd (realignedEnd x.endE x.m t) with
    currentMark := true
    nextMark := false
    realigned := true
    adjust := 0
    outRun := 0
    missRun := 0 }))

/-- ε clamped to −σ..+σ (R10). -/
def clampSigma (sigma : Nat) (eps : Int) : Int := max (-(sigma : Int)) (min sigma eps)

/-- The cycle timer after an in-window strobe: case C and case A move the current cycle's end, case B earns the next-cycle
adjustment (R10). -/
def correctTimer (ref : StartRef) (c : Int) (x : Timer) : Timer :=
  let x := { x.setMark ref with outRun := 0 }
  match ref with
  | .current => x.moveEnd (x.endE + c).toNat
  | .next => { x with adjust := c }

/-- An in-window strobe (R10). -/
def inWindow (stamp : Stamp) (t : Int) (ref : StartRef) (eps : Int) (s : State) : State :=
  let c := clampSigma s.timer.sigma eps
  let s' := s.modTimer (correctTimer ref c)
  let s' := if s.timer.sync = .holdover then changeSync .locked (s'.modTimer fun x => { x with missRun := 0 }) else s'
  recordStrobe ⟨stamp, t, some ref, some eps, some c, .corrected⟩ s'

/-- An out-of-window strobe (R11). -/
def outOfWindow (stamp : Stamp) (t : Int) (ref : StartRef) (eps : Int) (s : State) : State :=
  let s := deviceReport .outOfWindow (some stamp) (s.modTimer (Timer.setMark ref))
  if s.timer.sync = .holdover ∨ 3 ≤ s.timer.outRun + 1 then
    recordStrobe ⟨stamp, t, some ref, some eps, none, .realigned⟩ (realign stamp t s)
  else
    recordStrobe ⟨stamp, t, some ref, some eps, none, .outOfWindow⟩
      (s.modTimer fun x => { x with outRun := x.outRun + 1 })

/-- A strobe is taken, with the timestamp of its first sample (R7 to R12). -/
def takeStrobe (stamp : Stamp) (s : State) : State :=
  let t := s.timer.strobePhase stamp
  if s.timer.sync = .disabled then recordStrobe ⟨stamp, t, none, none, none, .ignored⟩ s
  else
    let (ref, eps) := s.timer.matchStart t
    if s.timer.realigned || s.timer.marked ref then
      recordStrobe ⟨stamp, t, some ref, some eps, none, .extra⟩ (deviceReport .extraStrobe (some stamp) s)
    else if s.timer.sync = .locked ∨ s.timer.sync = .holdover then
      if eps.natAbs ≤ s.timer.lambda then inWindow stamp t ref eps s else outOfWindow stamp t ref eps s
    else
      recordStrobe ⟨stamp, t, some ref, some eps, none, .realigned⟩
        (realign stamp t (s.modTimer (Timer.setMark ref)))

/-! ### The line filters (R4) -/

/-- A sample of the line is taken at this instant: the grain clock is a multiple of the interval (R4). -/
def State.sampleDue (s : State) (f : LineFilter) : Bool :=
  !f.sampled && decide (s.timer.grain.toNat % f.interval = 0)

/-- A sample that differs from the accepted level and finds the count at 2 qualifies the new level (R4). -/
def LineFilter.qualifies (f : LineFilter) (level : Bool) : Bool := level != f.accepted && decide (2 ≤ f.count)

/-- The filter after a sample of this level (R4). -/
def LineFilter.sample (f : LineFilter) (level : Bool) (now : Stamp) : LineFilter :=
  let f' := { f with pin := level, sampled := true }
  if level = f.accepted then { f' with count := 0 }
  else if f.count = 0 then { f' with stamp := now, count := 1 }
  else if f.count = 1 then { f' with count := 2 }
  else { f' with accepted := level, count := 0 }

/-- A sample of CYC; a qualified rise is a strobe, a qualified fall changes the accepted level only (R4). -/
def sampleCyc (level : Bool) (s : State) : State :=
  let f := s.timer.cyc
  let s := s.modTimer fun x => { x with cyc := f.sample level x.grain }
  if f.qualifies level && level then takeStrobe f.stamp s else s

/-- A sample of ARC; a qualified edge goes to the noise monitors (R4). -/
def sampleArc (level : Bool) (s : State) : State :=
  let f := s.arc.filter
  let s := s.modArc fun a => { a with filter := f.sample level s.timer.grain }
  if f.qualifies level then arcEdge level f.stamp s else s

/-- FILTER_SAMPLE (R4). -/
def execFilterSample (line : Line) (level : Bool) (s : State) : Host.Outcome State Fault Refusal :=
  event (fun s =>
    match line with
    | .cyc => if s.sampleDue s.timer.cyc then sampleCyc level s else s
    | .arc => if s.sampleDue s.arc.filter then sampleArc level s else s) s

/-- The sample of CYC at this instant, where it qualifies this level. -/
def qualifyCyc (level : Bool) (s : State) : State :=
  if s.sampleDue s.timer.cyc && s.timer.cyc.qualifies level then sampleCyc level s else s

/-- The sample of ARC at this instant, where it qualifies this level. -/
def qualifyArc (level : Bool) (s : State) : State :=
  if s.sampleDue s.arc.filter && s.arc.filter.qualifies level then sampleArc level s else s

/-- STROBE: the sample that qualifies a rise on CYC (R4, R7). -/
def execStrobe (s : State) : Host.Outcome State Fault Refusal := event (qualifyCyc true) s

/-- CYC_FALL: the sample that qualifies a fall on CYC (R4). -/
def execCycFall (s : State) : Host.Outcome State Fault Refusal := event (qualifyCyc false) s

/-- ARC_ON: the sample that qualifies a rise on ARC (R4, R142). -/
def execArcOn (s : State) : Host.Outcome State Fault Refusal := event (qualifyArc true) s

/-- ARC_OFF: the sample that qualifies a fall on ARC (R4, R142). -/
def execArcOff (s : State) : Host.Outcome State Fault Refusal := event (qualifyArc false) s

/-! ### The cycle start (R3, R13) -/

/-- The cycle-end check of the sync state on the cycle that is ending (R13). -/
def endCheck (s : State) : State :=
  if s.timer.currentMark then s else
  match s.timer.sync with
  | .locked =>
    let s := deviceReport .missedStrobe none s
    if s.timer.nextMark then s
    else changeSync .holdover (s.modTimer fun x => { x with missRun := 1, outRun := 0 })
  | .holdover =>
    let s := (deviceReport .missedStrobe none s).modTimer fun x => { x with missRun := min 255 (x.missRun + 1) }
    if s.timer.holdLimit ≤ s.timer.missRun then changeSync .lost s else s
  | _ => s

/-- The cycle timer begins the next cycle (R3, R9); the next-cycle adjustment is taken as it stands, clamped by the σ in force
when it was made (R10), not again by a lower one set since (DESIGN CHOICE, log entry 36). -/
def timerCycle (x : Timer) : Timer :=
  let n := x.nextN.getD x.n
  { x with
    start := x.grain
    cycle := x.cycle + 1
    n := n
    nextN := none
    endE := ((n * 1000 : Nat) + x.adjust).toNat
    guarded := false
    adjust := 0
    currentMark := x.nextMark
    nextMark := false
    realigned := false }

/-- Every egress scheduler begins a new pass (R99). -/
def startPasses (s : State) : State :=
  forAll allPorts (fun e => State.modEgress e fun x => { x with openWindow := none, nextWindow := 0 }) s

/-- A cycle start (R3): the cycle timer's steps in their order, then the engine (its commit is complete before the passes
begin, R99), the egress schedulers, the noise monitors, the probes and the address table. -/
def cycleStart (s : State) : State :=
  let s := (endCheck s).modTimer timerCycle
  let s := startPasses (engineCycle s)
  let s := forAll allPorts (noiseCycle s.timer.cycle) s
  let s := forAll allProbes (probeCount s.timer.cycle) s
  ageCycle s

/-- CYCLE_START: the phase has reached the scheduled end (R3). -/
def execCycleStart (s : State) : Host.Outcome State Fault Refusal :=
  event (fun s => if s.cycleDue then cycleStart s else s) s

/-- SYNC_LOST: at the cycle start that is due, the miss that brings the miss run to H in HOLDOVER (R13). -/
def execSyncLost (s : State) : Host.Outcome State Fault Refusal :=
  event (fun s =>
    if s.cycleDue && s.timer.sync == .holdover && !s.timer.currentMark &&
        decide (s.timer.holdLimit ≤ min 255 (s.timer.missRun + 1))
    then endCheck s else s) s

/-! ### The sync requests (R14, R15) -/

/-- The effective sync settings and the sync state (R14). -/
def syncSettings (x : Timer) : SyncSetReply :=
  ⟨x.lambda, x.sigma, x.holdLimit, x.cyc.interval, x.sync != .disabled, x.sync⟩

/-- Marks, runs and the next-cycle adjustment are cleared (R14). -/
def clearMarks (x : Timer) : Timer :=
  { x with currentMark := false, nextMark := false, realigned := false, outRun := 0, missRun := 0, adjust := 0 }

/-- The sync enable acts on the state (R14). -/
def setEnable (enable : Bool) (s : State) : State :=
  if enable then
    if s.timer.sync = .disabled then changeSync .acquiring (s.modTimer clearMarks) else s
  else if s.timer.sync = .disabled then s
  else changeSync .disabled (s.modTimer clearMarks)

/-- SET_SYNC (R14). A next-cycle adjustment that already stands is not clamped to a lowered σ (DESIGN CHOICE, log entry 36). -/
def runSetSync (q : Request) (s : State) : State :=
  if !isBit (q.b 0) then badField q 0 s
  else
    let s := s.modTimer fun x => { x with
      lambda := clamp 1 4095 (q.field 1 2)
      sigma := clamp 0 64 (q.b 3)
      holdLimit := clamp 1 255 (q.b 4)
      cyc := x.cyc.setInterval (nearestInterval (q.b 5)) }
    let s := setEnable (q.b 0 == 1) s
    answer q (.syncSet (syncSettings s.timer)) s

def execSetSync (s : State) : Host.Outcome State Fault Refusal := event (taking 0x04 6 runSetSync) s

/-- The SYNC_STATUS reply (R15). -/
def syncStatus (s : State) : SyncStatusReply :=
  let x := s.timer
  { settings := syncSettings x
    m := x.m
    nextM := x.nextN.map (· * 1000)
    cycle := x.cycle
    phase := s.phase
    endE := x.endE
    adjust := x.adjust
    currentMark := x.currentMark
    nextMark := x.nextMark
    realigned := x.realigned
    outRun := x.outRun
    missRun := x.missRun
    grain := x.grain
    lastStrobe := x.lastStrobe }

/-- SYNC_STATUS (R15). -/
def runSyncStatus (q : Request) (s : State) : State := answer q (.syncStatus (syncStatus s)) s

def execSyncStatus (s : State) : Host.Outcome State Fault Refusal := event (taking 0x05 0 runSyncStatus) s

end Sys2Proof.Machine
end

