-- ==== Sys2Proof/Machine/Idle.lean ====
section
/-! DEFINITION. What the part does of itself when no command waits (log entry 4): the first of its own events that is due
at this instant, and once none is due, the next grain. -/

namespace Sys2Proof.Machine

/-- The command by which a request of this kind is taken (section 11.5). -/
def requestCommand (kind : Byte) : Instr :=
  match kind.toNat with
  | 0x01 => .identify
  | 0x02 => .restart
  | 0x03 => .linkStatus
  | 0x04 => .setSync
  | 0x05 => .syncStatus
  | 0x06 => .portConfig
  | 0x07 => .portRestart
  | 0x08 => .portStatus
  | 0x09 => .setFilter
  | 0x0A => .clearFlags
  | 0x0B => .streamStatus
  | 0x0C => .legStatus
  | 0x0D => .place
  | 0x0E => .release
  | 0x0F => .setCycle
  | 0x10 => .lock
  | 0x11 => .timelineRead
  | 0x12 => .addrAddStatic
  | 0x13 => .addrRemove
  | 0x14 => .addrRead
  | 0x15 => .addrFlush
  | 0x16 => .setAging
  | 0x17 => .setArc
  | 0x18 => .countersRead
  | 0x19 => .countersClear
  | 0x1A => .faultRead
  | 0x1B => .faultUnlock
  | 0x1C => .setCaptureMask
  | 0x1D => .setNotice
  | 0x1E => .probeArm
  | 0x1F => .probeRead
  | 0x20 => .probeCancel
  | _ => .badKind

/-- A command, where its condition holds. -/
def dueIf (c : Bool) (i : Instr) : Option Instr := if c then some i else none

/-- The end of the frame or copy on an egress wire (R105). -/
def State.endDue (s : State) (e : Port) : Option Instr := dueIf (s.sentWhole e).isSome (.transmissionEnd e)

/-- The close of an egress's open window (R100). -/
def State.closeDue (s : State) (e : Port) : Option Instr :=
  (s.closing e).map fun o =>
    match o.window.kind with
    | .primary => .windowClose e
    | .twin => .twinWindowClose e

/-- The opening of an egress's next window (R100). -/
def State.openDue (s : State) (e : Port) : Option Instr :=
  (s.opening e).map fun w =>
    match w.kind with
    | .primary => .windowOpen e
    | .twin => .twinWindowOpen e

/-- A ready time at an egress, not yet taken at this instant (R103). -/
def State.readyDue (s : State) (e : Port) : Option Instr :=
  dueIf (s.readyNow e && !s.egress[e].readyTaken) (.readyTime e)

/-- A leg step of the current operation waits: of a PLACE op that no check has refused, or of a repair (R74). -/
def State.stepWaits (s : State) : Bool :=
  match s.engine.current with
  | some (.place r) => r.verdict.isNone && !r.todo.isEmpty
  | some (.repair r) => (s.repairNext r).isSome
  | none => false

/-- The time of the next leg step has come: free within the bound of R87 (log entry 4). -/
def State.stepTime (s : State) : Bool :=
  decide (Config.opBound ≤ s.since s.engine.mark) ||
  decide (Config.legStepDelay s.engine.steps ≤ s.since s.engine.mark)

/-- The current operation has ended, and no commit guard holds it (R86, R87, R89). -/
def State.opDue (s : State) : Option Instr :=
  match s.engine.current with
  | some (.place r) => dueIf (r.verdict.isSome || (r.todo.isEmpty && !s.inGuard)) .placeOpEnd
  | some (.repair r) => dueIf ((s.repairNext r).isNone && !s.inGuard) .repairEnd
  | none => none

/-- The head of the finished-reply list has its places (R94, R174). -/
def State.replyDue (s : State) : Option Instr :=
  match s.engine.finished with
  | [] => none
  | x :: _ => dueIf (decide (s.mgmt.outbound.length + (replyParts x.body).length ≤ Config.outboundPlaces)) .finishedReplyMove

/-- The request at the head of the inbound queue is offered a place (R175). -/
def State.requestDue (s : State) : Option Instr :=
  match s.mgmt.inbound with
  | [] => none
  | q :: _ => dueIf s.requestOffered (requestCommand q.kind)

/-- A notice is pending, and a place is offered to the arbiter (R177). -/
def State.noticeDue (s : State) : Option Instr := dueIf (s.mgmt.pick.isSome && s.noticeOffered) .noticePick

/-- The part's own events at this instant, in the order in which the model takes them (log entry 4). -/
def State.due (s : State) : Option Instr :=
  if s.resetLow then none else
  allPorts.findSome? s.endDue <|>
  allPorts.findSome? s.closeDue <|>
  dueIf s.cycleDue .cycleStart <|>
  allPorts.findSome? s.openDue <|>
  allPorts.findSome? s.readyDue <|>
  dueIf (s.sampleDue s.timer.cyc) (.filterSample .cyc s.timer.cyc.pin) <|>
  dueIf (s.sampleDue s.arc.filter) (.filterSample .arc s.arc.filter.pin) <|>
  s.opDue <|>
  dueIf (s.stepWaits && s.stepTime) .legStep <|>
  s.replyDue <|>
  s.requestDue <|>
  s.noticeDue

end Sys2Proof.Machine
end

