-- ==== Sys2Proof/Machine/Ports.lean ====
section
/-! DEFINITION. The port units (chapter 2): link events, PORT_CONFIG, PORT_RESTART, PORT_STATUS, SET_FILTER and
CLEAR_FLAGS. -/

namespace Sys2Proof.Machine

/-! ### Link events (R19 to R24) -/

/-- The legs on an egress of the streams that are ACTIVE or RELEASING are changed (R24). -/
def modRunningLegs (e : Port) (f : Leg → Leg) (s : State) : State :=
  { s with streams := s.streams.map fun x => x.map fun t =>
      if t.stage = .active ∨ t.stage = .releasing then
        { t with legs := t.legs.map fun l => if l.egress == e then f l else l }
      else t }

/-- A link event replaces the port's record, is counted and raises LINK_STATE (R19). -/
def linkEvent (p : Port) (kind : LinkEventKind) (link : LinkState) (s : State) : State :=
  let s := s.modPort p fun u => { u with link := link, lastEvent := some ⟨kind, s.timer.grain, s.timer.cycle⟩ }
  let s := bumpPort p (if kind = .linkDown then .downEvents else .upEvents) s
  raise (srcPort p) s.timer.cycle (.linkState p link s.ports[p].planned) s

/-- A LINK_DOWN (R20, R21). -/
def takeLinkDown (p : Port) (s : State) : State :=
  let s := emptyEgress p s
  let s := modRunningLegs p (fun l =>
    if l.state = some .live ∨ l.state = some .mismatch then { l with state := some .dormant } else l) s
  let s := setFlag p .linkLost s
  let s := if s.ports[p].receiving.isSome then
      (bumpPort p .rxAborted s).modPort p fun u => { u with receiving := none }
    else s
  linkEvent p .linkDown .down s

/-- A LINK_UP at a speed: DORMANT legs become LIVE at the planned speed and MISMATCH at another, which sets SPEED_MISMATCH
(R22, R23); the egress then chooses (R112). -/
def takeLinkUp (p : Port) (x : Speed) (s : State) : State :=
  let planned := decide (x = s.ports[p].planned)
  let s := modRunningLegs p (fun l =>
    if l.state = some .dormant then { l with state := some (if planned then .live else .mismatch) } else l) s
  let s := if planned then s else setFlag p .speedMismatch s
  let s := s.modPort p fun u => { u with restartMarker := false }
  choose p (linkEvent p (if planned then .linkUpPlanned else .linkUpOther) (.up x) s)

/-- The port unit compares a report of its PHY with its link state (R19). -/
def phyReport (p : Port) (r : LinkState) (s : State) : State :=
  match s.ports[p].link, r with
  | .down, .down => s
  | .down, .up y => takeLinkUp p y s
  | .up _, .down => takeLinkDown p s
  | .up x, .up y => if x = y then s else takeLinkUp p y (takeLinkDown p s)

/-- LINK_DOWN: the PHY reports down (R19, R20). -/
def execLinkDown (p : Port) (s : State) : Host.Outcome State Fault Refusal := event (phyReport p .down) s

/-- LINK_UP: the PHY reports up at the planned speed (R19, R22). -/
def execLinkUp (p : Port) (s : State) : Host.Outcome State Fault Refusal :=
  event (fun s => phyReport p (.up s.ports[p].planned) s) s

/-- LINK_UP_OTHER_SPEED: the PHY reports up at the speed that is not the planned one (R19, R23). -/
def execLinkUpOtherSpeed (p : Port) (s : State) : Host.Outcome State Fault Refusal :=
  event (fun s => phyReport p (.up s.ports[p].planned.other) s) s

/-! ### PORT_CONFIG (R25 to R28) -/

/-- The settings of a port. -/
def PortUnit.settings (u : PortUnit) : PortSettings where
  planned := u.planned
  ingressEnable := u.ingressEnable
  hold := u.hold
  arcExposed := u.arcExposed
  defaultClass := u.defaultClass
  beLimit := u.beLimit
  mu := u.mu
  tau := u.tau
  kappa := u.kappa
  thetaW := u.thetaW
  thetaD := u.thetaD
  coolDown := u.coolDown
  flagMask := u.flagMask

/-- The settings replaced. -/
def PortUnit.withSettings (c : PortSettings) (u : PortUnit) : PortUnit :=
  { u with
    planned := c.planned
    ingressEnable := c.ingressEnable
    hold := c.hold
    arcExposed := c.arcExposed
    defaultClass := c.defaultClass
    beLimit := c.beLimit
    mu := c.mu
    tau := c.tau
    kappa := c.kappa
    thetaW := c.thetaW
    thetaD := c.thetaD
    coolDown := c.coolDown
    flagMask := c.flagMask }

/-- The current need of an egress: that of the fuller of its two timelines at the M in effect (R27). -/
def State.currentNeed (s : State) (e : Port) : Nat :=
  ceilingNeed (max (reservedTime s.egress[e].timeline) (reservedTime s.engine.timelines[e])) s.timer.m

/-- The settings that a PORT_CONFIG gives, after clamping (R27). -/
def Request.settings (q : Request) (planned : Speed) (need : Nat) : PortSettings where
  planned := planned
  ingressEnable := q.b 3 == 1
  hold := q.b 4 == 1
  arcExposed := q.b 5 == 1
  defaultClass := clamp 0 3 (q.b 6)
  beLimit := clamp 64 1536 (q.field 7 2)
  mu := clamp 0 255 (q.field 9 2)
  tau := clamp 0 4095 (q.field 11 2)
  kappa := max (clamp 10 90 (q.b 13)) need
  thetaW := clamp 1 255 (q.b 14)
  thetaD := max (clamp 1 255 (q.b 15)) (clamp 1 255 (q.b 14))
  coolDown := clamp 1 255 (q.b 16)
  flagMask := BitVec.ofNat 6 (q.b 17)

/-- A change of planned speed posts both repairs of the port, and sets SPEED_MISMATCH where the link is UP at another speed
(R25, R84). -/
def changePlan (p : Port) (s : State) : State :=
  let s := s.modEngine fun g => { g with
    egressRepairs := Table.upd g.egressRepairs p fun _ => true
    ingressRepairs := Table.upd g.ingressRepairs p fun _ => true }
  if s.ports[p].link = .up s.ports[p].planned.other then setFlag p .speedMismatch s else s

/-- An accepted PORT_CONFIG (R25, R28, R119, R145). The order of its effects is a DESIGN CHOICE (log entry 34): the new
flag-enable mask governs the flags the request sets, and the noise state changes before the egress chooses. -/
def applyConfig (p : Port) (c : PortSettings) (s : State) : State :=
  let old := s.ports[p]
  let s := s.modPort p (PortUnit.withSettings c)
  let s := if c.planned = old.planned then s else changePlan p s
  let s := if c.arcExposed && !old.arcExposed then exposedOn p s else s
  let s := if old.hold && !c.hold then choose p s else s
  engineTake s

/-- PORT_CONFIG, with its checks in their order (R26); of several marks that fail in one check the lowest offset is named
(DESIGN CHOICE, log entry 32). -/
def runPortConfig (q : Request) (s : State) : State :=
  match asPort (q.b 0), asSpeed (q.field 1 2) with
  | none, _ => badField q 0 s
  | some _, none => badField q 1 s
  | some p, some x =>
    if !isBit (q.b 3) then badField q 3 s
    else if !isBit (q.b 4) then badField q 4 s
    else if !isBit (q.b 5) then badField q 5 s
    else if s.engine.locked && x != s.ports[p].planned then refuse q .locked s
    else
      let c := q.settings x (s.currentNeed p)
      answer q (.portConfigured p c (x != s.ports[p].planned)) (applyConfig p c s)

def execPortConfig (s : State) : Host.Outcome State Fault Refusal := event (taking 0x06 18 runPortConfig) s

/-! ### PORT_RESTART, PORT_STATUS, SET_FILTER, CLEAR_FLAGS (R29, R30, R35, R37) -/

/-- PORT_RESTART (R29). -/
def runPortRestart (q : Request) (s : State) : State :=
  match asPort (q.b 0) with
  | none => badField q 0 s
  | some p =>
    let s := s.modPort p fun u => { u with restartMarker := true }
    let s := noiseRestart p (phyReport p .down s)
    answer q (.portRestarted p s.ports[p].link) s

def execPortRestart (s : State) : Host.Outcome State Fault Refusal := event (taking 0x07 1 runPortRestart) s

/-- The number of legs on an egress in a state, of ACTIVE and RELEASING streams (R30). -/
def State.legCount (s : State) (e : Port) (x : LegState) : Nat :=
  allStreams.countP fun n =>
    match s.streams[n] with
    | none => false
    | some t =>
      (t.stage == .active || t.stage == .releasing) && t.legs.any fun l => l.egress == e && l.state == some x

/-- The PORT_STATUS reply (R30). -/
def portStatus (s : State) (p : Port) : PortStatusReply where
  link := s.ports[p].link
  restartMarker := s.ports[p].restartMarker
  lastEvent := s.ports[p].lastEvent
  settings := s.ports[p].settings
  flags := s.ports[p].flags
  noise := s.noise[p].state
  beCount := s.egress[p].beCount
  live := s.legCount p .live
  dormant := s.legCount p .dormant
  mismatch := s.legCount p .mismatch
  suspended := s.legCount p .suspended

/-- PORT_STATUS (R30). -/
def runPortStatus (q : Request) (s : State) : State :=
  match asPort (q.b 0) with
  | none => badField q 0 s
  | some p => answer q (.portStatus p (portStatus s p)) s

def execPortStatus (s : State) : Host.Outcome State Fault Refusal := event (taking 0x08 1 runPortStatus) s

/-- The effective base and size of a VLAN filter window: a base's low four bits are 0 and it is at most 4080; a size is
clamped to 16..4096 and rounded up to a multiple of 16 (R35). -/
def adjustWindow (base size : Nat) (enable : Bool) : VlanWindow where
  base := min 4080 (base / 16 * 16)
  size := ceilDiv (clamp 16 4096 size) 16 * 16
  enable := enable

/-- The window that a SET_FILTER request gives at index i. -/
def Request.window (q : Request) (i : Nat) : VlanWindow :=
  adjustWindow (q.field (2 + 5 * i) 2) (q.field (4 + 5 * i) 2) (q.b (6 + 5 * i) == 1)

/-- The first offset of a SET_FILTER request's enables that holds neither 0 nor 1 (DESIGN CHOICE, log entry 32). -/
def Request.badEnable (q : Request) : Option Nat := ((List.range 8).map fun i => 6 + 5 * i).find? fun o => !isBit (q.b o)

/-- The end of a window: the lesser of base + size − 1 and 4095 (section 2.6). -/
def VlanWindow.last (w : VlanWindow) : Nat := min (w.base + w.size - 1) 4095

/-- SET_FILTER (R35). -/
def runSetFilter (q : Request) (s : State) : State :=
  match asPort (q.b 0) with
  | none => badField q 0 s
  | some p =>
    if !isBit (q.b 1) then badField q 1 s
    else
      match q.badEnable with
      | some offset => badField q offset s
      | none =>
        let s := s.modPort p fun u => { u with
          untaggedAllowed := q.b 1 == 1
          windows := Vector.ofFn fun i => q.window i.val }
        answer q (.filterSet p (q.b 1 == 1) (s.ports[p].windows.toList.map fun w => (w, w.last))) s

def execSetFilter (s : State) : Host.Outcome State Fault Refusal := event (taking 0x09 42 runSetFilter) s

/-- CLEAR_FLAGS (R37). -/
def runClearFlags (q : Request) (s : State) : State :=
  match asPort (q.b 0) with
  | none => badField q 0 s
  | some p =>
    let s := s.modPort p fun u => { u with flags := u.flags &&& ~~~(BitVec.ofNat 6 (q.b 1)) }
    answer q (.flags p s.ports[p].flags) s

def execClearFlags (s : State) : Host.Outcome State Fault Refusal := event (taking 0x0A 2 runClearFlags) s

end Sys2Proof.Machine
end

