-- ==== Sys2Proof/Machine/Streams.lean ====
section
/-! DEFINITION. The stream queries (section 3.7): STREAM_STATUS and LEG_STATUS. -/

namespace Sys2Proof.Machine

/-- The STREAM_STATUS reply for a stream that is not FREE (R58). -/
def streamStatus (s : State) (n : StreamNo) (t : Stream) : StreamStatusReply where
  stage := t.stage
  desc := t.desc
  cells := t.desc.cells
  alive := t.alive
  firstActive := t.firstActive
  releaseQueued := t.releaseQueued
  legs := t.legs.map fun l => (l.egress, l.state)
  unreserved := s.streamCounters[n][StreamCounter.unreserved.index]

/-- STREAM_STATUS (R58). -/
def runStreamStatus (q : Request) (s : State) : State :=
  match asStream (q.b 0) with
  | none => badField q 0 s
  | some n =>
    match s.streams[n] with
    | none => answer q .streamFree s
    | some t => answer q (.streamStatus (streamStatus s n t)) s

def execStreamStatus (s : State) : Host.Outcome State Fault Refusal := event (taking 0x0B 1 runStreamStatus) s

/-- The LEG_STATUS reply (R59). -/
def legStatus (t : Stream) (l : Leg) : LegStatusReply where
  stage := t.stage
  state := l.state
  placement := l.placement
  pendingPl := l.pendingPl
  slot := l.slot.length
  retained := l.retained.length
  missStreak := l.missStreak
  missNotified := l.missNotified

/-- LEG_STATUS (R59); of a stream and a port that both fail, the stream is named (DESIGN CHOICE, log entry 32). -/
def runLegStatus (q : Request) (s : State) : State :=
  match asStream (q.b 0), asPort (q.b 1) with
  | none, _ => badField q 0 s
  | some _, none => badField q 1 s
  | some n, some e =>
    match s.streams[n], s.leg n e with
    | some t, some l => answer q (.legStatus (legStatus t l)) s
    | _, _ => refuse q .noSuch s

def execLegStatus (s : State) : Host.Outcome State Fault Refusal := event (taking 0x0C 2 runLegStatus) s

end Sys2Proof.Machine
end

