-- ==== Sys2Proof/Machine/Dispatch.lean ====
section
/-! DEFINITION. One arm per command, each one direct call of its meaning. -/

namespace Sys2Proof.Machine

def exec (i : Instr) (s : State) : Host.Outcome State Fault Refusal :=
  match i with
  | .resetN modeHigh => Sys2Proof.Machine.execResetN modeHigh s
  | .transferStart => Sys2Proof.Machine.execTransferStart s
  | .transferEnd mosi => Sys2Proof.Machine.execTransferEnd mosi s
  | .badKind => Sys2Proof.Machine.execBadKind s
  | .identify => Sys2Proof.Machine.execIdentify s
  | .restart => Sys2Proof.Machine.execRestart s
  | .linkStatus => Sys2Proof.Machine.execLinkStatus s
  | .setSync => Sys2Proof.Machine.execSetSync s
  | .syncStatus => Sys2Proof.Machine.execSyncStatus s
  | .portConfig => Sys2Proof.Machine.execPortConfig s
  | .portRestart => Sys2Proof.Machine.execPortRestart s
  | .portStatus => Sys2Proof.Machine.execPortStatus s
  | .setFilter => Sys2Proof.Machine.execSetFilter s
  | .clearFlags => Sys2Proof.Machine.execClearFlags s
  | .streamStatus => Sys2Proof.Machine.execStreamStatus s
  | .legStatus => Sys2Proof.Machine.execLegStatus s
  | .place => Sys2Proof.Machine.execPlace s
  | .release => Sys2Proof.Machine.execRelease s
  | .setCycle => Sys2Proof.Machine.execSetCycle s
  | .lock => Sys2Proof.Machine.execLock s
  | .timelineRead => Sys2Proof.Machine.execTimelineRead s
  | .addrAddStatic => Sys2Proof.Machine.execAddrAddStatic s
  | .addrRemove => Sys2Proof.Machine.execAddrRemove s
  | .addrFlush => Sys2Proof.Machine.execAddrFlush s
  | .addrRead => Sys2Proof.Machine.execAddrRead s
  | .setAging => Sys2Proof.Machine.execSetAging s
  | .setArc => Sys2Proof.Machine.execSetArc s
  | .countersRead => Sys2Proof.Machine.execCountersRead s
  | .countersClear => Sys2Proof.Machine.execCountersClear s
  | .faultRead => Sys2Proof.Machine.execFaultRead s
  | .faultUnlock => Sys2Proof.Machine.execFaultUnlock s
  | .setCaptureMask => Sys2Proof.Machine.execSetCaptureMask s
  | .setNotice => Sys2Proof.Machine.execSetNotice s
  | .probeArm => Sys2Proof.Machine.execProbeArm s
  | .probeRead => Sys2Proof.Machine.execProbeRead s
  | .probeCancel => Sys2Proof.Machine.execProbeCancel s
  | .finishedReplyMove => Sys2Proof.Machine.execFinishedReplyMove s
  | .noticePick => Sys2Proof.Machine.execNoticePick s
  | .cycleStart => Sys2Proof.Machine.execCycleStart s
  | .syncLost => Sys2Proof.Machine.execSyncLost s
  | .strobe => Sys2Proof.Machine.execStrobe s
  | .cycFall => Sys2Proof.Machine.execCycFall s
  | .arcOn => Sys2Proof.Machine.execArcOn s
  | .arcOff => Sys2Proof.Machine.execArcOff s
  | .linkDown p => Sys2Proof.Machine.execLinkDown p s
  | .linkUp p => Sys2Proof.Machine.execLinkUp p s
  | .linkUpOtherSpeed p => Sys2Proof.Machine.execLinkUpOtherSpeed p s
  | .frameEnd p frame => Sys2Proof.Machine.execFrameEnd p frame s
  | .readyTime e => Sys2Proof.Machine.execReadyTime e s
  | .windowOpen e => Sys2Proof.Machine.execWindowOpen e s
  | .windowClose e => Sys2Proof.Machine.execWindowClose e s
  | .twinWindowOpen e => Sys2Proof.Machine.execTwinWindowOpen e s
  | .twinWindowClose e => Sys2Proof.Machine.execTwinWindowClose e s
  | .transmissionEnd e => Sys2Proof.Machine.execTransmissionEnd e s
  | .legStep => Sys2Proof.Machine.execLegStep s
  | .placeOpEnd => Sys2Proof.Machine.execPlaceOpEnd s
  | .repairEnd => Sys2Proof.Machine.execRepairEnd s
  | .probeExpiry q => Sys2Proof.Machine.execProbeExpiry q s
  | .agingSweep => Sys2Proof.Machine.execAgingSweep s
  | .quietCoolDown p => Sys2Proof.Machine.execQuietCoolDown p s
  | .calmCoolDown p => Sys2Proof.Machine.execCalmCoolDown p s
  | .filterSample line level => Sys2Proof.Machine.execFilterSample line level s
  | .receptionStart p => Sys2Proof.Machine.execReceptionStart p s
  | .resetNLow => Sys2Proof.Machine.execResetNLow s

end Sys2Proof.Machine
end

