-- ==== Sys2Proof/Machine/Step.lean ====
section
/-! DEFINITION. One step of the block: the command at the front of the queue, or, when none waits, what the part does of
itself (log entry 4). -/

namespace Sys2Proof.Machine

/-- Nothing is commanded: the part takes its first event that is due, and otherwise a grain passes (log entry 4). -/
def idle (s : State) : Host.Outcome State Fault Refusal :=
  match s.due with
  | some i => exec i s
  | none => .next (tick s)

/-- One step: the command at the front of the queue, carried out with the rest of the queue waiting. -/
def step (s : State) : Host.Outcome State Fault Refusal :=
  match s.pending with
  | c :: rest => exec c { s with pending := rest }
  | [] => idle s

/-- The command that a word spells, put at the front of the queue; the table gives no bits, so no word spells one. -/
def State.withFetchWord (s : State) (nbits w : Nat) : State :=
  match decodeTableWord nbits w with
  | some i => { s with pending := i :: s.pending }
  | none => s

end Sys2Proof.Machine
end

