-- ==== Sys2Proof/Safety.lean ====
section
/-! DEFINITION. The terms in which the statements speak: when a request can be taken and what a reply makes of the link,
and what every state between two events keeps. -/

namespace Sys2Proof.Safety

open Sys2Proof.Machine

/-! ### Taking a request -/

/-- Nothing holds the part back: RESET_N is high, and the fault unit has taken every report made so far (R152). -/
structure Awake (s : State) : Prop where
  high : s.resetLow = false
  noReports : s.fault.inbox = []

/-- The request `q` is at the head of the inbound queue, `rest` behind it, and a place of the outbound queue is offered to
it: no finished reply claims one first, and one is free (R174, R175). -/
structure Offers (s : State) (q : Request) (rest : List Request) : Prop extends Awake s where
  head : s.mgmt.inbound = q :: rest
  noneFinished : s.engine.finished = []
  room : s.mgmt.outbound.length < 16

/-- The state with a request taken from the inbound queue and a reply of this kind, carrying its tag, at the back of the
outbound queue (R175). -/
def repliedAs (kind : Byte) (q : Request) (rest : List Request) (r : Reply) (s : State) : State :=
  { s with mgmt := { s.mgmt with
    inbound := rest
    outbound := s.mgmt.outbound ++ [⟨s.mgmt.serial, .reply kind q.tag r⟩]
    serial := s.mgmt.serial + 1 } }

/-- The reply kind is the request kind plus 0x80 (R175). -/
def replied (q : Request) (rest : List Request) (r : Reply) (s : State) : State :=
  repliedAs (q.kind + 0x80) q rest r s

/-- The request kinds of section 11.5: the command that takes each, its kind and its payload length. -/
def requestTable : List (Instr × Byte × Nat) :=
  [(.identify, 0x01, 0), (.restart, 0x02, 0), (.linkStatus, 0x03, 1), (.setSync, 0x04, 6), (.syncStatus, 0x05, 0),
   (.portConfig, 0x06, 18), (.portRestart, 0x07, 1), (.portStatus, 0x08, 1), (.setFilter, 0x09, 42),
   (.clearFlags, 0x0A, 2), (.streamStatus, 0x0B, 1), (.legStatus, 0x0C, 2), (.place, 0x0D, 26), (.release, 0x0E, 1),
   (.setCycle, 0x0F, 2), (.lock, 0x10, 0), (.timelineRead, 0x11, 3), (.addrAddStatic, 0x12, 9), (.addrRemove, 0x13, 8),
   (.addrRead, 0x14, 2), (.addrFlush, 0x15, 1), (.setAging, 0x16, 4), (.setArc, 0x17, 1), (.countersRead, 0x18, 5),
   (.countersClear, 0x19, 3), (.faultRead, 0x1A, 0), (.faultUnlock, 0x1B, 0), (.setCaptureMask, 0x1C, 4),
   (.setNotice, 0x1D, 2), (.probeArm, 0x1E, 7), (.probeRead, 0x1F, 1), (.probeCancel, 0x20, 1)]

/-! ### Bytes of a record -/

/-- The bytes hold these fields, each given by its offset, its length in bytes and its value, most significant byte first
(section 11.5). -/
def Holds (bytes : List Byte) (fields : List (Nat × Nat × Nat)) : Prop :=
  ∀ x ∈ fields, x.1 + x.2.1 ≤ bytes.length ∧ beValue ((bytes.drop x.1).take x.2.1) = x.2.2 % 256 ^ x.2.1

/-- The fields of a field that may be absent: none where it is absent. -/
def present (x : Option (List (Nat × Nat × Nat))) : List (Nat × Nat × Nat) := x.getD []

/-- A one-byte field that may be absent, which is then 0xFF (section 11.6). -/
def byteOr (offset : Nat) (x : Option Nat) : List (Nat × Nat × Nat) := [(offset, 1, x.getD 0xFF)]

/-! ### Conditions of events -/

/-- The sample of CYC at this instant qualifies a level: it is due, and two samples before it differed from the accepted
level, which is the other one. -/
def cycQualifies (s : State) (level : Bool) : Prop :=
  Awake s ∧ s.timer.cyc.sampled = false ∧ s.timer.grain.toNat % s.timer.cyc.interval = 0 ∧
    s.timer.cyc.accepted = !level ∧ 2 ≤ s.timer.cyc.count

/-- The sample of ARC at this instant qualifies a level. -/
def arcQualifies (s : State) (level : Bool) : Prop :=
  Awake s ∧ s.arc.filter.sampled = false ∧ s.timer.grain.toNat % s.arc.filter.interval = 0 ∧
    s.arc.filter.accepted = !level ∧ 2 ≤ s.arc.filter.count

/-- The scheduled end `e` puts the grid of cycles of `m` grains on a strobe of phase `t`: it is the least t + j × m, j ≥ 1,
that is not before the scheduled end in force, `old` (R12). -/
structure OnGrid (t : Int) (m old e : Nat) : Prop where
  on : ∃ j : Int, 1 ≤ j ∧ (e : Int) = t + j * m
  notBefore : old ≤ e
  least : ∀ j : Int, 1 ≤ j → (old : Int) ≤ t + j * m → (e : Int) ≤ t + j * m

/-- The commit guard of R86: it was reached before the scheduled end last moved, or the phase lies in its span now. -/
def Guarded (s : State) : Prop := s.timer.guarded = true ∨ s.timer.endE ≤ s.phase + 16384

/-- The frames that wait in the class queues of an egress. -/
def classFrames (s : State) (p : Port) : Nat := (s.egress[p].queues.toList.map List.length).sum

/-- The frames that wait in the slots of the legs on an egress. -/
def slotFrames (s : State) (p : Port) : Nat := ((List.finRange 128).map fun n => (s.slotOf n p).length).sum

/-- The cells that the stored frames of a pool take. -/
def cellsIn (pool : Pool) (frames : List FrameRecord) : Nat :=
  ((frames.filter fun r => r.pool == pool).map (·.cells)).sum

/-- References have been returned between two states, one for each place in the list (R124): a frame whose last one is gone is
no longer stored, its cells free in its pool, and every other frame keeps its record; the frames of a stream that became
FREE are marked (R46). -/
structure Returned (s t : State) (ids : List FrameId) (freed : StreamNo → Bool) : Prop where
  handles : (t.buffer.frames.map (·.id)).Sublist (s.buffer.frames.map (·.id))
  absent : ∀ id, s.frame id = none → t.frame id = none
  frames : ∀ id r, s.frame id = some r → t.frame id =
    if ids.count id ≠ 0 ∧ r.refs ≤ ids.count id then none
    else some { r with refs := r.refs - ids.count id, orphan := r.orphan || r.stream.any freed }
  cells : (s.buffer.frames.map (·.id)).Nodup →
    t.buffer.motionFree + cellsIn .motion t.buffer.frames = s.buffer.motionFree + cellsIn .motion s.buffer.frames ∧
    t.buffer.beFree + cellsIn .bestEffort t.buffer.frames = s.buffer.beFree + cellsIn .bestEffort s.buffer.frames

/-- The frames kept for twin copies on a leg, but for the one that is cut off on the wire (R20). -/
def keptBehind (s : State) (p : Port) (n : StreamNo) : List FrameId :=
  match s.egress[p].wire with
  | some ⟨id, _, .motion m _⟩ => if m = n then (s.retainedOf n p).erase id else s.retainedOf n p
  | some ⟨id, _, .copy m⟩ => if m = n then (s.retainedOf n p).erase id else s.retainedOf n p
  | _ => s.retainedOf n p

/-- The frames of an egress whose references a LINK_DOWN returns (R20): the one on the wire, those of the class queues and
of the slots, and those kept for twin copies. -/
def lostFrames (s : State) (p : Port) : List FrameId :=
  s.egress[p].wire.toList.map (·.frame) ++ s.egress[p].queues.toList.flatten ++
    (List.finRange 128).flatMap fun n => s.slotOf n p ++ keptBehind s p n

/-- The best-effort frames among them. -/
def lostBestEffort (s : State) (p : Port) : List FrameId :=
  (s.egress[p].wire.toList.filter (·.kind == .bestEffort)).map (·.frame) ++ s.egress[p].queues.toList.flatten

/-- A LINK_DOWN of a port has been taken between two states (R19, R20, R21): the event is recorded, counted and notified; the
egress is emptied, every frame with its counter and its report, its reference returned and, for best effort, its cells taken
from the egress's count; the LIVE and MISMATCH legs of running streams are DORMANT and the others as they were; LINK_LOST is set, and a reception is cut off. -/
structure TakenDown (s t : State) (p : Port) : Prop where
  link : t.ports[p].link = .down
  event : t.ports[p].lastEvent = some ⟨.linkDown, s.timer.grain, s.timer.cycle⟩
  notice : s.mgmt.sources[p.val + 1].number ≠ 0 → ∃ n ∈ t.mgmt.sources[p.val + 1].pending,
    n.cycle = s.timer.cycle ∧ n.data = .linkState p .down s.ports[p].planned
  receiving : t.ports[p].receiving = none
  counters : ∀ i : Fin 21, t.ports[p].counters[i] = satAdd s.ports[p].counters[i]
    (if i = 10 then (if s.ports[p].receiving.isSome then 1 else 0)
     else if i = 14 then (if s.egress[p].wire.isSome then 1 else 0)
     else if i = 16 then classFrames s p
     else if i = 17 then 1 else 0)
  legCounters : ∀ (n : StreamNo) (e : Port), t.legCounters[legIndex n e] =
    Table.upd s.legCounters[legIndex n e] 9 fun c => satAdd c (if e = p then (s.slotOf n p).length else 0)
  reports : ∀ i : Fin 28, t.deviceCounters[i] = satAdd s.deviceCounters[i]
    (if i = 11 then (if s.egress[p].wire.isSome then 1 else 0) + classFrames s p + slotFrames s p else 0)
  flags : ∀ k < 6, t.ports[p].flags.getLsbD k = (s.ports[p].flags.getLsbD k || (s.ports[p].flagMask.getLsbD k &&
    (k == 0 ||
     (k == 3 && (s.egress[p].wire.any (fun x => x.kind != .bestEffort) || slotFrames s p != 0)) ||
     (k == 4 && (s.egress[p].wire.any (fun x => x.kind == .bestEffort) || classFrames s p != 0)))))
  wire : t.egress[p].wire = none
  queues : ∀ c : ClassNo, t.egress[p].queues[c] = []
  slots : ∀ n : StreamNo, t.slotOf n p = [] ∧ t.retainedOf n p = []
  returned : Returned s t (lostFrames s p) fun _ => false
  alive : (s.buffer.frames.map (·.id)).Nodup → ∀ (n : StreamNo) (x : Stream), s.streams[n] = some x →
    ∃ y, t.streams[n] = some y ∧ y.alive =
      x.alive - s.buffer.frames.countP fun r => r.stream == some n && !r.orphan && (t.frame r.id).isNone
  beCount : (s.egress[p].wire.toList.map (·.frame) ++ s.egress[p].queues.toList.flatten).Nodup →
    t.egress[p].beCount =
      s.egress[p].beCount - ((lostBestEffort s p).map fun id => ((s.frame id).map (·.cells)).getD 0).sum
  legs : ∀ n : StreamNo, (t.streams[n].map fun y => (y.stage, y.legs.map fun l => (l.egress, l.state))) =
    (s.streams[n].map fun y => (y.stage, y.legs.map fun l => (l.egress,
      if l.egress = p ∧ (y.stage = .active ∨ y.stage = .releasing) ∧ (l.state = some .live ∨ l.state = some .mismatch) then
        some .dormant
      else l.state)))
  otherLegs : ∀ n : StreamNo,
    (t.streams[n].map fun y => (y.stage, y.desc, y.firstActive, y.releaseQueued, y.legs.filter (·.egress ≠ p))) =
    (s.streams[n].map fun y => (y.stage, y.desc, y.firstActive, y.releaseQueued, y.legs.filter (·.egress ≠ p)))

/-! ### What an egress may start -/

/-- A best-effort frame of this length would end by the start of the next window: the next one of the pass, or else the first
one of the next cycle's timeline (R114, R115). -/
def Fits (s : State) (e : Port) (len g : Nat) : Prop :=
  match (s.egress[e].timeline.drop s.egress[e].nextWindow).head? with
  | some w => s.phase + (len + 20) * g ≤ w.start
  | none => ∀ w ∈ (if s.engine.commitDue then s.engine.timelines[e] else s.egress[e].timeline).head?,
      s.phase + (len + 20) * g ≤ s.timer.endE + w.start

/-- The frame at the head of a class queue may start: it is ready and fits (R116). -/
def HeadStarts (s : State) (e : Port) (c : ClassNo) (g : Nat) : Prop :=
  ∃ r, (s.egress[e].queues[c].head?.bind s.frame) = some r ∧ 120 ≤ s.since r.received ∧ Fits s e r.len g

/-- On the idle wire of an egress that is UP the turn is best effort's: no window is open, or the open one is released
(R112). -/
structure BestEffortTurn (s : State) (e : Port) (v : Speed) : Prop where
  up : s.ports[e].link = .up v
  idle : s.egress[e].wire = none
  free : ∀ o ∈ s.egress[e].openWindow, o.released = true

/-- In that turn the frame `r` starts, `rest` behind it in its class queue: it is ready and fits, and the head of no higher
class may start (R116). -/
structure BestEffortStart (s : State) (e : Port) (c : ClassNo) (r : FrameRecord) (rest : List FrameId) (v : Speed) :
    Prop extends BestEffortTurn s e v where
  queue : s.egress[e].queues[c] = r.id :: rest
  stored : s.frame r.id = some r
  ready : 120 ≤ s.since r.received
  fits : Fits s e r.len v.factor
  first : ∀ c' : ClassNo, c < c' → ¬HeadStarts s e c' v.factor

/-- On the idle wire of an egress that is UP a primary window `o` of stream record `x` is open and unreleased, and the frame
`r` at the head of the slot of leg `l`, `rest` behind it, is ready and neither stale nor late (R103, R104). -/
structure MotionStart (s : State) (e : Port) (o : OpenWindow) (x : Stream) (l : Leg) (r : FrameRecord)
    (rest : List FrameId) (v : Speed) : Prop where
  up : s.ports[e].link = .up v
  idle : s.egress[e].wire = none
  opened : s.egress[e].openWindow = some o
  primary : o.window.kind = .primary
  unreleased : o.released = false
  stream : s.streams[o.window.stream] = some x
  leg : s.leg o.window.stream e = some l
  slot : l.slot = r.id :: rest
  stored : s.frame r.id = some r
  room : o.sent < x.desc.k
  within : s.phase < o.window.stop
  ready : 120 ≤ s.since r.received
  fresh : s.since r.ingressStart ≤ x.desc.bound
  inTime : (r.len + 20) * v.factor ≤ o.window.stop - s.phase

/-- What waits in an open, unreleased primary window of the egress may not start yet: the window is used up, or no frame of
the slot is ready (R103, R104). -/
def MotionWaits (s : State) (e : Port) : Prop :=
  ∃ o x l, s.egress[e].openWindow = some o ∧ o.window.kind = .primary ∧ o.released = false ∧
    s.streams[o.window.stream] = some x ∧ s.leg o.window.stream e = some l ∧
    (x.desc.k ≤ o.sent ∨ o.window.stop ≤ s.phase ∨
      ∀ id ∈ l.slot, ∀ r, s.frame id = some r → s.since r.received < 120)

/-- A choice of the egress would start nothing and drop nothing (R112): its wire is busy, HOLD is on, its link is DOWN, or
nothing that waits may start. -/
def Settled (s : State) (e : Port) : Prop :=
  s.egress[e].wire ≠ none ∨ s.ports[e].hold = true ∨ s.ports[e].link = .down ∨ MotionWaits s e ∨
    ∃ v, BestEffortTurn s e v ∧ ∀ c : ClassNo, ¬HeadStarts s e c v.factor

/-- The speed that a report of the PHY names: the planned one or the other (R19). -/
def reported (s : State) (p : Port) (planned : Bool) : Speed :=
  if planned then s.ports[p].planned else s.ports[p].planned.other

/-- The state with the port's link UP at a speed. -/
def withLink (s : State) (p : Port) (v : Speed) : State := s.modPort p fun u => { u with link := .up v }

/-- A LINK_UP of a port, at the planned speed or at the other, has been taken between two states (R19, R22, R23): the event is
recorded, counted and notified, the restart marker is cleared, the DORMANT legs of running streams are LIVE or MISMATCH, the
latter with SPEED_MISMATCH, and no other leg changes its state. Then the egress chooses (R112): where nothing that waits may
start nothing does, where a frame may, it starts; a used twin window that a LINK_DOWN left without copies is released first
(log entry 21). -/
structure CameUp (s t : State) (p : Port) (planned : Bool) : Prop where
  link : t.ports[p].link = .up (reported s p planned)
  event : t.ports[p].lastEvent =
    some ⟨if planned then .linkUpPlanned else .linkUpOther, s.timer.grain, s.timer.cycle⟩
  counted : t.ports[p].counters[18] = satInc s.ports[p].counters[18]
  notice : s.mgmt.sources[p.val + 1].number ≠ 0 → ∃ n ∈ t.mgmt.sources[p.val + 1].pending,
    n.cycle = s.timer.cycle ∧ n.data = .linkState p (.up (reported s p planned)) s.ports[p].planned
  marker : t.ports[p].restartMarker = false
  flags : ∀ k < 6, k ≠ 3 → t.ports[p].flags.getLsbD k =
    (s.ports[p].flags.getLsbD k || (s.ports[p].flagMask.getLsbD k && k == 1 && !planned))
  settings : t.ports[p].settings = s.ports[p].settings ∧ t.ports[p].windows = s.ports[p].windows ∧
    t.ports[p].untaggedAllowed = s.ports[p].untaggedAllowed ∧ t.ports[p].receiving = s.ports[p].receiving
  legs : ∀ n : StreamNo, (t.streams[n].map fun y => (y.stage, y.legs.map fun l => (l.egress, l.state))) =
    (s.streams[n].map fun y => (y.stage, y.legs.map fun l => (l.egress,
      if l.egress = p ∧ (y.stage = .active ∨ y.stage = .releasing) ∧ l.state = some .dormant then
        some (if planned then .live else .mismatch)
      else l.state)))
  otherPorts : ∀ e : Port, e ≠ p → t.ports[e] = s.ports[e] ∧ t.egress[e] = s.egress[e]
  others : t.timer = s.timer ∧ t.engine = s.engine ∧ t.addr = s.addr ∧ t.noise = s.noise ∧
    t.streamCounters = s.streamCounters
  settled : Settled (withLink s p (reported s p planned)) p →
    t.egress[p] = s.egress[p] ∧ t.ports[p].counters = Table.upd s.ports[p].counters 18 satInc ∧ t.buffer = s.buffer ∧
      t.deviceCounters = s.deviceCounters ∧ t.legCounters = s.legCounters ∧ t.probes = s.probes ∧
      ∀ n : StreamNo, t.slotOf n p = s.slotOf n p ∧ t.retainedOf n p = s.retainedOf n p
  bestEffort : ∀ c r rest v, s.ports[p].hold = false →
    BestEffortStart (withLink s p (reported s p planned)) p c r rest v →
    t.egress[p] = { s.egress[p] with
      queues := Table.upd s.egress[p].queues c fun _ => rest, wire := some ⟨r.id, s.timer.grain, .bestEffort⟩ }
  motion : ∀ o x l r rest v, s.ports[p].hold = false →
    MotionStart (withLink s p (reported s p planned)) p o x l r rest v →
    t.egress[p] = { s.egress[p] with
      wire := some ⟨r.id, s.timer.grain, .motion o.window.stream (x.desc.twin != .off)⟩
      openWindow := some { o with sent := o.sent + 1, released := decide (x.desc.k ≤ o.sent + 1) } } ∧
    t.slotOf o.window.stream p = rest
  spent : ∀ o, s.ports[p].hold = false → s.egress[p].wire = none → s.egress[p].openWindow = some o →
    o.window.kind = .twin → o.released = false → o.copies = [] →
    t.egress[p].openWindow = some { o with released := true }

/-- The next window of the pass is the primary window `w`, whose time it is; its leg `l` is LIVE, and its egress is UP and
idle with HOLD off (R100, R101). -/
structure OpensIdle (s : State) (e : Port) (w : Window) (x : Stream) (l : Leg) (v : Speed) : Prop extends Awake s where
  shut : s.egress[e].openWindow = none
  next : (s.egress[e].timeline.drop s.egress[e].nextWindow).head? = some w
  primary : w.kind = .primary
  begun : w.start ≤ s.phase
  within : s.phase < w.stop
  stream : s.streams[w.stream] = some x
  leg : s.leg w.stream e = some l
  live : l.state = some .live
  up : s.ports[e].link = .up v
  noHold : s.ports[e].hold = false
  idle : s.egress[e].wire = none
  takes : 1 ≤ x.desc.k

/-- The frame `r`, ready, is dropped when it is tried: STALE with leg counter 3 and device total 9, or else LATE with 2 and 8
(R104, R49, R152). -/
def Fails (s : State) (w : Window) (x : Stream) (r : FrameRecord) (v : Speed) (k : Fin 13) (d : Fin 28) : Prop :=
  s.frame r.id = some r ∧ 120 ≤ s.since r.received ∧
    ((x.desc.bound < s.since r.ingressStart ∧ k = 3 ∧ d = 9) ∨
     (s.since r.ingressStart ≤ x.desc.bound ∧ w.stop - s.phase < (r.len + 20) * v.factor ∧ k = 2 ∧ d = 8))

/-- A received frame of 64 to 1,522 bytes that no ingress cause of the port drops (R32). -/
structure FrameIsGood (s : State) (p : Port) (f : RxFrame) (start : Stamp) : Prop extends Awake s where
  receiving : s.ports[p].receiving = some start
  noError : f.symbolError = false
  fcs : f.fcsOk = true
  long : 64 ≤ f.bytes.length
  short : f.bytes.length ≤ 1522
  enabled : s.ports[p].ingressEnable = true
  passes : filterPasses s.ports[p] f = true

/-- A start `s` is free (R66): at every occurrence the window of length `w` overlaps no window of the view. -/
def freeAt (view : List Window) (period r w s : Nat) : Prop :=
  ∀ j < r, ∀ x ∈ view, ¬(s + j * period < x.stop ∧ x.start < s + j * period + w)

/-- Nothing waits before the engine: no op and no repair (R85). -/
def NothingWaits (s : State) : Prop :=
  s.engine.waiting = [] ∧ ∀ e : Port, s.engine.egressRepairs[e] = false ∧ s.engine.ingressRepairs[e] = false

/-! ### What every state between two events keeps -/

/-- Every report of an event is taken before the event is over, and the queues of the management link keep their bounds
(R152, R174, R175, R176): at most 16 records, of them at most 12 notices, at most four requests, and at every notice
source at most one pending notice of each kind. -/
structure LinkBounds (s : State) : Prop where
  noReports : s.fault.inbox = []
  records : s.mgmt.outbound.length ≤ 16
  notices : s.mgmt.notices ≤ 12
  requests : s.mgmt.inbound.length ≤ 4
  kinds : ∀ i : Fin 12, (s.mgmt.sources[i].pending.map fun n => n.data.kind).Nodup

/-- The frame buffer loses and invents no cell: the free cells of each pool and the cells of its stored frames are
together its size, its lowest figure is not above its free cells, and no two stored frames share a handle (R122, R156). -/
structure CellsOk (b : FrameBuffer) : Prop where
  motion : b.motionFree + cellsIn .motion b.frames = 512
  bestEffort : b.beFree + cellsIn .bestEffort b.frames = 1536
  motionLow : b.motionLow ≤ b.motionFree
  beLow : b.beLow ≤ b.beFree
  handles : (b.frames.map (·.id)).Nodup
  fresh : ∀ r ∈ b.frames, r.id < b.nextId

/-- The address table's entries stand in ascending position below 1,024, no two hold the same key (R126), and no age is above
3 (R130). -/
structure AddrOk (xs : List AddrEntry) : Prop where
  ascending : xs.Pairwise fun x y => x.pos < y.pos
  bounded : ∀ x ∈ xs, x.pos < 1024
  keys : xs.Pairwise fun x y => ¬(x.mac = y.mac ∧ x.vlan = y.vlan)
  ages : ∀ x ∈ xs, x.age ≤ 3

/-- A timeline stands in start order, no two of its windows overlap, and it holds at most 256 (R61, R72). -/
structure TimelineOk (tl : List Window) : Prop where
  proper : ∀ w ∈ tl, w.start < w.stop
  ordered : tl.Pairwise fun x y => x.stop ≤ y.start
  size : tl.length ≤ 256

/-- A stream counts at most 2 k frames alive (R55), takes at least one frame in a window (R40), and has one leg an egress
(R47). -/
structure StreamOk (x : Stream) : Prop where
  takes : 1 ≤ x.desc.k
  alive : x.alive ≤ 2 * x.desc.k
  legs : (x.legs.map (·.egress)).Nodup

/-- The stream table: its streams are in order, and no two hold the same key (R43). -/
structure StreamsOk (s : State) : Prop where
  each : ∀ (n : StreamNo) (x : Stream), s.streams[n] = some x → StreamOk x
  keys : ∀ (n m : StreamNo) (x y : Stream), s.streams[n] = some x → s.streams[m] = some y → x.desc.key = y.desc.key → n = m

/-- A stream stands in one of these states. -/
def InStage (s : State) (n : StreamNo) (stages : List Stage) : Prop := ∃ x, s.streams[n] = some x ∧ x.stage ∈ stages

/-- The PLACE op `r`, of a stream with this description: an egress is searched once; each leg that is placed fits its
pending timeline as it stands; and an op that has passed the pool check finds its cells at its end (R71, R75, R76). -/
structure PlaceOk (s : State) (r : PlaceRun) (d : Desc) : Prop where
  once : (r.todo ++ r.held.map (·.1)).Nodup
  fits : ∀ e p, (e, p) ∈ r.held →
    TimelineOk (insertWindows (windowsOf r.stream d.repeats (r.planM / d.repeats) p) s.engine.timelines[e])
  pool : r.verdict = none → s.engine.pool + 2 * d.k * ((d.lmax + 127) / 128) ≤ 512

/-- The repair `r`: what it holds fits each pending timeline less what it has set aside, and the streams it has placed or is
placing are PLACED or ACTIVE (R61, R79, R80, R90). -/
structure RepairOk (s : State) (r : RepairRun) : Prop where
  fits : ∀ e : Port, TimelineOk
    (insertWindows (s.heldOn r e) (s.engine.timelines[e].filter fun w => !r.aside.contains (w.stream, e)))
  held : ∀ n e p, (n, e, .placed p) ∈ r.results → InStage s n [.placed, .active]
  within : ∀ n es, r.within = some (n, es) → InStage s n [.placed, .active]

/-- The reservation engine: at most eight host entries (R81), at most 512 cells in the pool accounting (R71), timelines in
order (R61, R72); a QUEUED stream has its op WAITING, a SEARCHING one is the current op's, a PLACED one has its op DEFERRED,
and a RELEASE op waits for an ACTIVE stream (R81, R83, R87); and the current operation can end as it stands. -/
structure EngineOk (s : State) : Prop where
  entries : s.engine.used ≤ 8
  pool : s.engine.pool ≤ 512
  pending : ∀ e : Port, TimelineOk s.engine.timelines[e]
  active : ∀ e : Port, TimelineOk s.egress[e].timeline
  once : (s.engine.waiting.map (·.op)).Nodup
  queued : ∀ n : StreamNo, InStage s n [.queued] ↔ ∃ y ∈ s.engine.waiting, y.op = .place n
  searching : ∀ n : StreamNo, InStage s n [.searching] ↔ ∃ r, s.engine.current = some (.place r) ∧ r.stream = n
  placed : ∀ n : StreamNo, InStage s n [.placed] ↔ ∃ y ∈ s.engine.deferred, y.op = .place n
  releases : ∀ (n : StreamNo) (y : Entry), y ∈ s.engine.waiting → y.op = .release n →
    ∃ x, s.streams[n] = some x ∧ x.stage = .active ∧ x.releaseQueued = true
  place : ∀ r x, s.engine.current = some (.place r) → s.streams[r.stream] = some x → PlaceOk s r x.desc
  repair : ∀ r, s.engine.current = some (.repair r) → RepairOk s r

/-- What every step keeps. -/
structure Inv (s : State) : Prop where
  link : LinkBounds s
  cells : CellsOk s.buffer
  addr : AddrOk s.addr.entries
  streams : StreamsOk s
  engine : EngineOk s

end Sys2Proof.Safety
end

