-- ==== Sys2Proof/Certificates/Slice0/Obligations.lean ====
section
/-! DEFINITION. The statements for the provers. -/

open Sys2Proof Sys2Proof.Machine Sys2Proof.Safety

/-! ### The queue of commands, reset and idling -/

/-- The command at the front of the queue is carried out with the rest of the queue waiting. That there is a queue of
commands, and that a step takes the command in front before any event of the part that is due, are the model's own (DESIGN
CHOICE, log entries 31 and 4); the spec gives what each command does. -/
def Obligations.StepRunsTheFrontCommand : Prop :=
  ∀ (s : State) (c : Instr) (rest : List Instr), s.pending = c :: rest → step s = exec c { s with pending := rest }

/-- On an empty queue the part takes its first event that is due; when none is due and RESET_N is high, the grain
clock counts one grain and every block stands as it was, but for the model's own marks of what the old grain had
taken. The order of events and the tick are the model's choice (log entry 4); the count is R1's. RESET_N pulled low
holds the part: no command but the release has an effect, and the grain clock does not count (R17, R172; that nothing
else happens either is the model's choice, log entry 2). -/
def Obligations.IdleAndHeldSteps : Prop :=
  (∀ s : State, s.pending = [] →
     (∀ c, s.due = some c → step s = exec c s) ∧
     (s.due = none → s.resetLow = false →
       ∃ t, step s = .next t ∧ t.timer.grain = s.timer.grain + 1 ∧
         { t.timer with grain := s.timer.grain, cyc := s.timer.cyc } = s.timer ∧
         t.timer.cyc = { s.timer.cyc with sampled := false } ∧
         t.arc = { s.arc with filter := { s.arc.filter with sampled := false } } ∧
         (∀ e : Port, t.egress[e] = { s.egress[e] with readyTaken := false }) ∧
         { t with timer := s.timer, arc := s.arc, egress := s.egress } = s)) ∧
  ((∀ s : State, exec .resetNLow s = .next { s with resetLow := true }) ∧
   (∀ (s : State) (c : Instr), s.resetLow = true → (∀ high, c ≠ .resetN high) → exec c s = .next s) ∧
   (∀ s : State, s.resetLow = true → s.pending = [] → step s = .next s))

/-- The release of RESET_N leaves every block at the values of R5, R17, R38, R39, R98, R99, R122, R126, R130, R139, R150,
R159, R164 and R181, with the ingress of every port enabled exactly when MODE is low (R180): the whole state after it,
field by field. The levels of the pins and the model's own counts of records and leg steps stay, and the model's own marks
are cleared (log entries 1 and 22); a filter's timestamp becomes 0 (log entry 28). -/
def Obligations.ResetNGivesTheResetValues : Prop :=
  ∀ (high : Bool) (s : State), exec (.resetN high) s = .next
    { resetLow := false
      timer :=
        { grain := 0, n := 125, nextN := none, cycle := 0, start := 0, endE := 125000, guarded := false, adjust := 0
          sync := .disabled, lambda := 250, sigma := 16, holdLimit := 16, currentMark := false, nextMark := false
          realigned := false, outRun := 0, missRun := 0, lastStrobe := none
          cyc := ⟨false, 16, 0, 0, s.timer.cyc.pin, false⟩ }
      ports := .replicate 8
        { link := .down, restartMarker := false, lastEvent := none, planned := .s1000, ingressEnable := !high
          hold := false, arcExposed := false, defaultClass := 0, beLimit := 384, mu := 16, tau := 512, kappa := 75
          thetaW := 4, thetaD := 16, coolDown := 8, windows := .replicate 8 ⟨0, 16, false⟩, untaggedAllowed := true
          flags := 0, flagMask := 63#6, receiving := none, counters := .replicate 21 0 }
      streams := .replicate 128 none
      streamCounters := .replicate 128 (.replicate 3 0)
      legCounters := .replicate 1024 (.replicate 13 0)
      engine :=
        { timelines := .replicate 8 [], pool := 0, waiting := [], current := none, deferred := [], finished := []
          egressRepairs := .replicate 8 false, ingressRepairs := .replicate 8 false, commitDue := false
          locked := false, lastCommit := none, mark := 0, steps := s.engine.steps }
      egress := .replicate 8
        { timeline := [], nextWindow := 0, openWindow := none, wire := none, queues := .replicate 4 [], beCount := 0
          readyTaken := false }
      buffer := { frames := [], motionFree := 512, motionLow := 512, beFree := 1536, beLow := 1536, nextId := 0 }
      addr := { entries := [], interval := 1000, count := 0, swept := false }
      noise := .replicate 8 { state := .clean, count := 0, quiet := 0, calm := 0, checked := false }
      arc := { filter := ⟨false, 16, 0, 0, s.arc.filter.pin, false⟩, lastEdge := none }
      fault := { record := none, mask := 0x3FFFDF#22, inbox := [] }
      deviceCounters := .replicate 28 0
      probes := .replicate 4 .idle
      mgmt :=
        { transfer := none, inbound := [], outbound := []
          sources := #v[⟨15, []⟩, ⟨0, []⟩, ⟨0, []⟩, ⟨0, []⟩, ⟨0, []⟩, ⟨0, []⟩, ⟨0, []⟩, ⟨0, []⟩, ⟨0, []⟩, ⟨14, []⟩,
            ⟨0, []⟩, ⟨0, []⟩]
          short := 0, crc := 0, overflow := 0, form := 0, unrouted := 0
          mode := if high then .closedStart else .openStart, serial := s.mgmt.serial }
      pending := s.pending }

/-- TRANSFER_START latches the head of the outbound queue, or a null record when it is empty (R172). A transfer in
progress goes on. MISO carries the latched record's bytes, its length byte first, then zeros; for a null record zeros, the
first of which is its length byte; and zeros while RESET_N is low (R172). TRANSFER_END, the part's side (R172, R180): the
latched record leaves the head of the outbound queue exactly when all its bytes were shifted out (no record has more than
64, section 11.6), and not at all when a RESTART has emptied the queue since; a null record removes nothing. (A
TRANSFER_START during a transfer: log entry 3.) -/
def Obligations.TransfersLatchAndRemoveTheHead : Prop :=
  (∀ s : State, Awake s →
     (s.mgmt.transfer = none →
       exec .transferStart s = .next { s with mgmt := { s.mgmt with transfer := some ⟨s.mgmt.outbound.head?, false⟩ } }) ∧
     (s.mgmt.transfer ≠ none → exec .transferStart s = .next s)) ∧
  (∀ (s : State) (k : Nat),
     (misoBytes s k).length = k ∧
     (s.resetLow = true → misoBytes s k = List.replicate k 0) ∧
     (∀ x : Transfer, s.resetLow = false → s.mgmt.transfer = some x →
       (x.latched = none → misoBytes s k = List.replicate k 0) ∧
       (∀ r, x.latched = some r →
         (misoBytes s k).take r.bytes.length = r.bytes.take k ∧
         (misoBytes s k).drop r.bytes.length = List.replicate (k - r.bytes.length) 0))) ∧
  (∀ (s : State) (x : Transfer) (mosi : List Byte), Awake s → s.mgmt.transfer = some x →
     ∃ t, exec (.transferEnd mosi) s = .next t ∧ t.mgmt.transfer = none ∧
       t.mgmt.outbound =
         (match x.latched with
          | none => s.mgmt.outbound
          | some r =>
            if x.detached = false ∧ min 64 r.bytes.length ≤ mosi.length then s.mgmt.outbound.drop 1 else s.mgmt.outbound) ∧
       t.mgmt.sources = s.mgmt.sources ∧ t.mgmt.unrouted = s.mgmt.unrouted ∧ t.mgmt.mode = s.mgmt.mode ∧
       { t with mgmt := s.mgmt } = s)

/-! ### The management link (chapter 11) -/

/-- TRANSFER_END, the host's side: the table of R173, line by line, for a length byte `n` and the bytes after it. -/
def Obligations.TransferEndJudgesTheHostRecord : Prop :=
  (∀ (s : State) (x : Transfer) (n : Byte) (rest : List Byte), Awake s → s.mgmt.transfer = some x →
    ∃ t, exec (.transferEnd (n :: rest)) s = .next t ∧
      (t.mgmt.inbound, t.mgmt.form, t.mgmt.short, t.mgmt.crc, t.mgmt.overflow) =
        (let m := s.mgmt
         let record := rest.take n.toNat
         if n = 0 then (m.inbound, m.form, m.short, m.crc, m.overflow)
         else if n.toNat < 4 ∨ 63 < n.toNat then (m.inbound, satInc m.form, m.short, m.crc, m.overflow)
         else if rest.length < n.toNat then (m.inbound, m.form, satInc m.short, m.crc, m.overflow)
         else if beValue (record.drop (n.toNat - 2)) ≠ (crc16 (record.take (n.toNat - 2))).toNat then
           (m.inbound, m.form, m.short, satInc m.crc, m.overflow)
         else if 4 ≤ m.inbound.length then (m.inbound, m.form, m.short, m.crc, satInc m.overflow)
         else (m.inbound ++ [⟨record.getD 0 0, record.getD 1 0, (record.take (n.toNat - 2)).drop 2⟩],
           m.form, m.short, m.crc, m.overflow))) ∧
  (∀ (s : State) (x : Transfer), Awake s → s.mgmt.transfer = some x →
    exec (.transferEnd []) s = .next { s with mgmt := { s.mgmt with transfer := none } })

/-- The record CRC over "123456789" is 0x29B1, and every record the part sends is its length byte, kind, tag and
payload with that CRC over all but the length byte, high byte first (R173, section 11.6). A notice record has the code of its
kind, tag 0, and a payload of its source index, repeat count, cycle number and the data of its kind, its length byte
counting the bytes after it (section 11.6). The encodings of sections 11.5 and 11.6. A reply's payload begins with its
code (R175); the PLACED, LEG_STATUS, TIMELINE_READ, SET_ARC, FAULT_READ and PROBE_READ replies, a search refusal and a BAD_FIELD
reply have the layouts of those sections. (What an absent field of more than one byte holds is free, and the statement
gives no value for it: log entry 8. Which s2 the presence byte of LEG_STATUS marks, and that a pending SUSPEND sets 0x08
alone: log entry 33. That LEG_SUSPENDED's reason is the reply code of that reason, and that LEARN_FULL's VLAN is 0 for
NONE: DEDUCED, log entry 19.) -/
def Obligations.RecordsAreFramed : Prop :=
  (crc16 [0x31, 0x32, 0x33, 0x34, 0x35, 0x36, 0x37, 0x38, 0x39] = 0x29B1#16 ∧
   ∀ r : OutRecord, ∃ hi lo : Byte,
     r.bytes = BitVec.ofNat 8 (r.payload.length + 4) :: r.kind :: r.tag :: r.payload ++ [hi, lo] ∧
     hi ++ lo = crc16 (r.kind :: r.tag :: r.payload)) ∧
  (([.ok, .badKind, .badLength, .badField, .busy, .locked, .exists, .noSuch, .notEmpty, .state, .infeasible, .noRoom,
      .ceiling, .pool, .tableFull, .full, .cancelled] : List Code).map Code.byte = (List.range 17).map (BitVec.ofNat 8) ∧
   ([.queued, .searching, .placed, .active, .releasing] : List Stage).map Stage.byte = [1, 2, 3, 4, 5] ∧
   ([.live, .dormant, .mismatch, .suspended] : List LegState).map LegState.byte = [0, 1, 2, 3] ∧
   ([.disabled, .acquiring, .locked, .holdover, .lost] : List SyncState).map SyncState.byte = [0, 1, 2, 3, 4] ∧
   ([.down, .up .s100, .up .s1000] : List LinkState).map LinkState.byte = [0, 1, 2] ∧
   ([.s100, .s1000] : List Speed).map Speed.byte = [0, 1] ∧
   ([.clean, .watch, .disturbed] : List NoiseState).map NoiseState.byte = [0, 1, 2] ∧
   ([.faultCount, .arcOn, .exposedSet, .coolDown, .portRestart] : List NoiseCause).map NoiseCause.byte = [0, 1, 2, 3, 4] ∧
   ([.ingress, .egress, .none] : List Side).map Side.byte = [0, 1, 2] ∧
   ([.primary, .twin] : List WindowKind).map WindowKind.byte = [0, 1] ∧
   ([.latest, .sequenced] : List Handling).map Handling.byte = [0, 1] ∧
   ([.egress, .ingress] : List RepairKind).map RepairKind.byte = [0, 1]) ∧
  (∀ (serial : Nat) (src : Fin 12) (n : Notice),
     let r : OutRecord := ⟨serial, .notice src n⟩
     let carries (kind : Byte) (len : Nat) (data : List (Nat × Nat × Nat)) : Prop :=
       r.kind = kind ∧ r.payload.length = 6 + len ∧ Holds r.payload data
     r.tag = 0 ∧ Holds r.payload [(0, 1, src.val), (1, 1, n.repeats), (2, 4, n.cycle.toNat)] ∧
     r.bytes.length ≤ 64 ∧ (r.bytes.headD 0).toNat + 1 = r.bytes.length ∧
     (match n.data with
      | .syncState new old phase => carries 0xC1 5 [(6, 1, new.byte.toNat), (7, 1, old.byte.toNat), (8, 3, phase)]
      | .legSuspended m e why kind port => carries 0xC2 5
          [(6, 1, m.val), (7, 1, e.val), (8, 1, (refusalCode (some why)).byte.toNat), (9, 1, kind.byte.toNat),
           (10, 1, port.val)]
      | .legMissing m e streak limit phase => carries 0xC3 7
          [(6, 1, m.val), (7, 1, e.val), (8, 1, streak), (9, 1, limit), (10, 3, phase)]
      | .linkState p link planned => carries 0xC4 3
          [(6, 1, p.val), (7, 1, link.byte.toNat), (8, 1, planned.byte.toNat)]
      | .noiseState p new old cause count phase => carries 0xC5 9
          [(6, 1, p.val), (7, 1, new.byte.toNat), (8, 1, old.byte.toNat), (9, 1, cause.byte.toNat), (10, 2, count),
           (12, 3, phase)]
      | .firstFault x => carries 0xC6 11
          ([(6, 1, x.cause.code.val), (7, 1, x.side.byte.toNat), (10, 3, x.phase), (13, 4, x.grain.toNat)] ++
            byteOr 8 (x.port.map Fin.val) ++ byteOr 9 (x.stream.map Fin.val))
      | .probeDone q m e captured => carries 0xC7 11
          ([(6, 1, q.val), (7, 1, if captured.isSome then 0 else 1), (8, 1, m.val), (9, 1, e.val)] ++
            present (captured.map fun c => [(10, 4, c.1.toNat), (14, 3, c.2)]))
      | .learnFull p source vlan => carries 0xC8 9
          [(6, 1, p.val), (7, 6, source.toNat), (13, 2, vlan.getD 0)])) ∧
  (∀ (serial : Nat) (kind tag : Byte) (x : Reply),
     let r : OutRecord := ⟨serial, .reply kind tag x⟩
     let laid (len : Nat) (fields : List (Nat × Nat × Nat)) : Prop :=
       r.payload.length = len ∧ Holds r.payload ((0, 1, 0) :: fields)
     r.kind = kind ∧ r.tag = tag ∧ Holds r.payload [(0, 1, x.code.byte.toNat)] ∧
     (match x with
      | .plain c => r.payload = [c.byte]
      | .badField offset => r.payload = [3, BitVec.ofNat 8 offset]
      | .search y => r.payload.length = 20 ∧ Holds r.payload
          ([(0, 1, (refusalCode y.refused.why).byte.toNat), (1, 1, y.stream.val), (3, 4, y.refused.w), (7, 4, y.refused.e),
            (11, 4, y.refused.d), (15, 2, y.lmax), (17, 3, y.bound)] ++ byteOr 2 (y.refused.egress.map Fin.val))
      | .placed y =>
        laid (13 + 10 * y.legs.length) [(1, 1, y.stream.val), (2, 1, y.part), (3, 4, y.firstActive.toNat), (7, 2, y.lmax),
          (9, 3, y.bound), (12, 1, y.handling.byte.toNat)] ∧
        ∀ i l, y.legs[i]? = some l → Holds r.payload
          ([(13 + 10 * i, 1, l.egress.val), (15 + 10 * i, 3, (l.placement.map (·.s)).getD 0),
            (18 + 10 * i, 2, (l.placement.map (·.w)).getD 0), (20 + 10 * i, 3, (l.placement.bind (·.s2)).getD 0)] ++
            byteOr (14 + 10 * i) (l.state.map fun z => z.byte.toNat))
      | .legStatus y =>
        let mark (c : Bool) (v : Nat) : Nat := if c then v else 0
        let new : Option Placement := match y.pendingPl with | some (.place p) => some p | _ => none
        let suspended : Bool := match y.pendingPl with | some (.suspend ..) => true | _ => false
        let figures (offset : Nat) (z : Option Placement) : List (Nat × Nat × Nat) :=
          present (z.map fun p => [(offset, 3, p.s), (offset + 3, 2, p.w)]) ++
            present ((z.bind (·.s2)).map fun v => [(offset + 5, 3, v)])
        laid 24 ([(1, 1, y.stage.byte.toNat),
            (3, 1, mark y.placement.isSome 1 + mark (y.placement.bind (·.s2)).isSome 2 + mark new.isSome 4 +
              mark suspended 8),
            (20, 1, y.slot), (21, 1, y.retained), (22, 1, y.missStreak), (23, 1, if y.missNotified then 1 else 0)] ++
          byteOr 2 (y.state.map fun z => z.byte.toNat) ++ figures 4 y.placement ++ figures 12 new)
      | .timeline y =>
        laid (15 + 9 * y.records.length)
          ([(1, 1, y.egress.val), (2, 1, if y.lastCommit.isSome then 1 else 0), (7, 2, y.count), (9, 3, y.reserved),
            (12, 2, y.index), (14, 1, y.records.length)] ++ present (y.lastCommit.map fun c => [(3, 4, c.toNat)])) ∧
        ∀ i w, y.records[i]? = some w → Holds r.payload
          [(15 + 9 * i, 3, w.start), (18 + 9 * i, 3, w.stop), (21 + 9 * i, 1, w.stream.val), (22 + 9 * i, 1, w.occ),
           (23 + 9 * i, 1, w.kind.byte.toNat)]
      | .arc y =>
        laid (15 + 5 * y.ports.length)
          ([(1, 1, y.interval), (2, 1, if y.level then 1 else 0)] ++
            byteOr 3 (y.lastEdge.map fun z => if z.on then 0 else 1) ++
            present (y.lastEdge.map fun z => [(4, 4, z.stamp.toNat), (8, 4, z.cycle.toNat), (12, 3, z.phase)])) ∧
        ∀ i z, y.ports[i]? = some z → Holds r.payload
          [(15 + 5 * i, 1, (if z.exposed then 1 else 0) + 2 * z.state.byte.toNat), (16 + 5 * i, 2, z.count),
           (18 + 5 * i, 1, z.quiet), (19 + 5 * i, 1, z.calm)]
      | .fault y mask =>
        laid 21 ([(1, 1, if y.isSome then 1 else 0), (17, 4, mask.toNat)] ++ byteOr 2 (y.map fun z => z.cause.code.val) ++
          byteOr 3 (y.map fun z => z.side.byte.toNat) ++ byteOr 4 ((y.bind (·.port)).map Fin.val) ++
          byteOr 5 ((y.bind (·.stream)).map Fin.val) ++
          present (y.map fun z => [(6, 4, z.cycle.toNat), (10, 3, z.phase), (13, 4, z.grain.toNat)]))
      | .probe q y =>
        let state : Nat := match y with
          | .idle => 0 | .armed _ => 1 | .captured .. => 2 | .expired .. => 3 | .cancelled .. => 4
        let watch : Option Watch := match y with
          | .idle => none | .armed w => some w | .captured w .. => some w | .expired w _ => some w | .cancelled w _ => some w
        let ended : Option CycleNo := match y with
          | .captured _ c _ => some c | .expired _ c => some c | .cancelled _ c => some c | _ => none
        let capture : Option Capture := match y with | .captured _ _ c => some c | _ => none
        laid 43 ([(1, 1, q.val), (2, 1, state)] ++
          byteOr 3 (watch.map fun w => w.stream.val) ++ byteOr 4 (watch.map fun w => w.egress.val) ++
          present (watch.map fun w => [(5, 4, w.armCycle.toNat), (9, 2, w.remaining)]) ++
          present (ended.map fun c => [(11, 4, c.toNat)]) ++
          present (capture.map fun c => [(15, 4, c.cycle.toNat), (19, 4, c.ingressStart.toNat), (23, 4, c.egressStart.toNat),
            (27, 4, c.residence.toNat), (31, 3, c.windowStart), (34, 3, c.startPhase), (37, 3, c.slack), (40, 2, c.len)]) ++
          byteOr 42 (capture.map fun c => c.noise.byte.toNat))
      | _ => True))

/-- BAD_KIND takes a request of no request kind and replies with reply kind 0xFF, carrying the request's kind (R175).
A request whose payload has not the length of section 11.5 is taken and replied BAD_LENGTH, and nothing else changes
(R175). No request is taken while the outbound queue is full, while a finished reply claims the place first, or when
the head of the inbound queue is another request or there is none (R174, R175). (A request row for which no request of
its kind is taken changes nothing: log entries 3 and 6.) -/
def Obligations.RequestsAreTakenByKindAndLength : Prop :=
  (∀ (s : State) (q : Request) (rest : List Request), Offers s q rest →
     (q.kind.toNat = 0 ∨ 0x20 < q.kind.toNat) → exec .badKind s = .next (repliedAs 0xFF q rest (.badKind q.kind) s)) ∧
  (∀ row ∈ requestTable, ∀ (s : State) (q : Request) (rest : List Request), Offers s q rest → q.kind = row.2.1 →
     q.payload.length ≠ row.2.2 → exec row.1 s = .next (replied q rest (.badLength row.2.2) s)) ∧
  (∀ row ∈ requestTable, ∀ s : State, Awake s →
     (16 ≤ s.mgmt.outbound.length ∨ s.engine.finished ≠ [] ∨ ∀ q ∈ s.mgmt.inbound.head?, q.kind ≠ row.2.1) →
     exec row.1 s = .next s)

/-- IDENTIFY and LINK_STATUS (R179): their items, the clear mark, and that the counter requests leave the link
counters. (The clear mark is the payload's one byte: log entry 9; that the counts of requests and records leave out the
request taken and its own reply: log entry 18.) -/
def Obligations.IdentifyAndLinkStatus : Prop :=
  (∀ (s : State) (q : Request) (rest : List Request), Offers s q rest → q.kind = 0x01 → q.payload = [] →
    exec .identify s = .next (replied q rest (.identity 0x0816 2 s.mgmt.mode s.engine.locked) s)) ∧
  (∀ (s : State) (q : Request) (rest : List Request) (mark : Byte), Offers s q rest → q.kind = 0x03 →
    q.payload = [mark] →
    let items : LinkStatusReply :=
      { short := s.mgmt.short, crc := s.mgmt.crc, overflow := s.mgmt.overflow, form := s.mgmt.form
        unrouted := s.mgmt.unrouted, requests := rest.length, records := s.mgmt.outbound.length
        notices := (s.mgmt.outbound.filter fun r => r.body.isNotice).length
        sources := s.mgmt.sources.toList.map fun x => (x.number, x.pending.map fun n => n.data.kind) }
    exec .linkStatus s = .next (
      if 1 < mark.toNat then replied q rest (.badField 0) s
      else if mark = 0 then replied q rest (.linkStatus items) s
      else replied q rest (.linkStatus items)
        { s with mgmt := { s.mgmt with short := 0, crc := 0, overflow := 0, form := 0, unrouted := 0 } })) ∧
  (∀ (s t : State) (c : Instr), Awake s → (c = .countersRead ∨ c = .countersClear) → exec c s = .next t →
    [t.mgmt.short, t.mgmt.crc, t.mgmt.overflow, t.mgmt.form, t.mgmt.unrouted] =
    [s.mgmt.short, s.mgmt.crc, s.mgmt.overflow, s.mgmt.form, s.mgmt.unrouted])

/-- RESTART (R180): refused LOCKED while the production lock is set, nothing else changing; otherwise every block is
as after reset with the sampled MODE kept, both queues and all pending sets are empty but for the OK reply, and a
transfer in progress goes on without removing a record at its end. -/
def Obligations.RestartReturnsToReset : Prop :=
  ∀ (s : State) (q : Request) (rest : List Request), Offers s q rest → q.kind = 0x02 → q.payload = [] →
    (s.engine.locked = true → exec .restart s = .next (replied q rest (.plain .locked) s)) ∧
    (s.engine.locked = false → ∃ t, exec .restart s = .next t ∧
      (let z := State.resetAs s.mgmt.mode s.timer.cyc.pin s.arc.filter.pin
       { t with mgmt := z.mgmt, engine := z.engine, pending := z.pending } = z ∧
       { t.engine with steps := 0 } = z.engine ∧ t.pending = s.pending ∧
       t.mgmt.outbound = [⟨s.mgmt.serial, .reply 0x82 q.tag (.restarted s.mgmt.mode)⟩] ∧ t.mgmt.inbound = [] ∧
       t.mgmt.transfer = s.mgmt.transfer.map (fun x => { x with detached := true }) ∧
       { t.mgmt with outbound := [], transfer := none, serial := 0 } = z.mgmt))

/-- SET_NOTICE (R178). (The payload's two bytes are the index and the number: log entry 9; of an index and a number that
both fail the index is named: log entry 32.) -/
def Obligations.SetNoticeRoutesASource : Prop :=
  ∀ (s : State) (q : Request) (rest : List Request) (index number : Byte), Offers s q rest → q.kind = 0x1D →
    q.payload = [index, number] →
    (11 < index.toNat → exec .setNotice s = .next (replied q rest (.badField 0) s)) ∧
    (index.toNat ≤ 11 → 15 < number.toNat → exec .setNotice s = .next (replied q rest (.badField 1) s)) ∧
    (∀ i : Fin 12, index.toNat = i.val → number.toNat ≤ 15 →
      ∃ t, exec .setNotice s = .next t ∧ t.mgmt.sources[i].number = number.toNat ∧
        (number = 0 → t.mgmt.sources[i].pending = [] ∧
          t.mgmt.unrouted = satAdd s.mgmt.unrouted s.mgmt.sources[i].pending.length) ∧
        (number ≠ 0 → t.mgmt.sources[i].pending = s.mgmt.sources[i].pending ∧ t.mgmt.unrouted = s.mgmt.unrouted) ∧
        (∀ j : Fin 12, j ≠ i → t.mgmt.sources[j] = s.mgmt.sources[j]) ∧
        { t with mgmt := s.mgmt } = s ∧
        { t.mgmt with sources := s.mgmt.sources, unrouted := s.mgmt.unrouted } =
          (replied q rest (.noticeSet i.val number.toNat
            (if number = 0 then s.mgmt.sources[i].pending.length else 0)) s).mgmt)

/-- NOTICE_PICK moves the pending notice of the highest level, then of the source with the highest arbitration
number, then of the lowest source index, out of its pending set into the outbound queue (R177), when R174 offers it
a place. -/
def Obligations.NoticePickTakesTheHighestLevel : Prop :=
  ∀ s : State, Awake s → s.engine.finished = [] → s.mgmt.inbound = [] → s.mgmt.outbound.length < 16 →
    s.mgmt.notices < 12 → (∃ i : Fin 12, s.mgmt.sources[i].pending ≠ []) →
    ∃ (t : State) (i : Fin 12) (n : Notice), exec .noticePick s = .next t ∧ n ∈ s.mgmt.sources[i].pending ∧
      (∀ (j : Fin 12), ∀ m ∈ s.mgmt.sources[j].pending, m.data.kind.level < n.data.kind.level ∨
        (m.data.kind.level = n.data.kind.level ∧ (s.mgmt.sources[j].number < s.mgmt.sources[i].number ∨
          (s.mgmt.sources[j].number = s.mgmt.sources[i].number ∧ i ≤ j)))) ∧
      t.mgmt.outbound = s.mgmt.outbound ++ [⟨s.mgmt.serial, .notice i n⟩] ∧
      t.mgmt.sources[i].pending = s.mgmt.sources[i].pending.filter (· ≠ n) ∧
      t.mgmt.sources[i].number = s.mgmt.sources[i].number ∧
      (∀ j : Fin 12, j ≠ i → t.mgmt.sources[j] = s.mgmt.sources[j]) ∧ t.mgmt.inbound = [] ∧
      { t with mgmt := s.mgmt } = s

/-- Raising a notice follows the table of R176: number 0 discards and counts it; otherwise it joins the pending set
with repeat count 1, or takes the place of the pending notice of its kind, whose repeat count it raises up to 255. -/
def Obligations.RaiseFollowsTheArbitrationNumber : Prop :=
  ∀ (src : Fin 12) (cycle : CycleNo) (d : NoticeData) (s : State),
    let t := raise src cycle d s
    (s.mgmt.sources[src].number = 0 → t.mgmt = { s.mgmt with unrouted := satInc s.mgmt.unrouted }) ∧
    (s.mgmt.sources[src].number ≠ 0 → (∀ n ∈ s.mgmt.sources[src].pending, n.data.kind ≠ d.kind) →
      t.mgmt.sources[src].pending = s.mgmt.sources[src].pending ++ [⟨1, cycle, d⟩]) ∧
    (∀ (before after : List Notice) (n : Notice), s.mgmt.sources[src].number ≠ 0 →
      s.mgmt.sources[src].pending = before ++ n :: after → n.data.kind = d.kind →
      (∀ m ∈ before, m.data.kind ≠ d.kind) →
      t.mgmt.sources[src].pending = before ++ ⟨min 255 (n.repeats + 1), cycle, d⟩ :: after) ∧
    (∀ i : Fin 12, i ≠ src → t.mgmt.sources[i] = s.mgmt.sources[i]) ∧
    t.mgmt.sources[src].number = s.mgmt.sources[src].number ∧ t.mgmt.outbound = s.mgmt.outbound ∧
    { t with mgmt := s.mgmt } = s

/-- FINISHED_REPLY_MOVE (R94, R174): the head of the finished-reply list enters the outbound queue and frees its
host queue entry; a PLACED reply of five or more legs enters as two records, legs 1 to 4 and the rest, once two
places are free. -/
def Obligations.FinishedReplyMoveTakesItsPlaces : Prop :=
  ∀ (s : State) (x : FinishedReply) (xs : List FinishedReply), Awake s → s.engine.finished = x :: xs →
    (∀ r : PlacedReply, x.body = .placed r → 4 < r.legs.length →
      exec .finishedReplyMove s = .next (
        if s.mgmt.outbound.length ≤ 14 then
          { s with
            engine := { s.engine with finished := xs }
            mgmt := { s.mgmt with
              outbound := s.mgmt.outbound ++
                [⟨s.mgmt.serial, .reply x.kind x.tag (.placed { r with part := 1, legs := r.legs.take 4 })⟩,
                 ⟨s.mgmt.serial + 1, .reply x.kind x.tag (.placed { r with part := 2, legs := r.legs.drop 4 })⟩]
              serial := s.mgmt.serial + 2 } }
        else s)) ∧
    ((∀ r : PlacedReply, x.body = .placed r → r.legs.length ≤ 4) →
      exec .finishedReplyMove s = .next (
        if s.mgmt.outbound.length ≤ 15 then
          { s with
            engine := { s.engine with finished := xs }
            mgmt := { s.mgmt with
              outbound := s.mgmt.outbound ++ [⟨s.mgmt.serial, .reply x.kind x.tag x.body⟩]
              serial := s.mgmt.serial + 1 } }
        else s))

/-! ### Cell time (chapter 1) -/

/-- SET_SYNC (R14): an enable other than 0 or 1 is refused; otherwise λ, σ and H are clamped, the interval becomes the
nearest of 8, 16, 32 and 64 grains (the larger of two equally near), the enable acts on the sync state, a
change of it raising SYNC_STATE (R6), and the reply gives the effective values. (That a next-cycle adjustment which already
stands is kept as it is when σ is lowered: DESIGN CHOICE, log entry 36.) -/
def Obligations.SetSyncAppliesTheParameters : Prop :=
  ∀ (s : State) (q : Request) (rest : List Request) (enable l1 l0 sigma hold interval : Byte), Offers s q rest →
    q.kind = 0x04 → q.payload = [enable, l1, l0, sigma, hold, interval] →
    (1 < enable.toNat → exec .setSync s = .next (replied q rest (.badField 0) s)) ∧
    (enable.toNat ≤ 1 → ∃ t, exec .setSync s = .next t ∧
      t.timer.lambda = max 1 (min 4095 (l1.toNat * 256 + l0.toNat)) ∧ t.timer.sigma = min 64 sigma.toNat ∧
      t.timer.holdLimit = max 1 hold.toNat ∧
      (∀ v : Nat, v = 8 ∨ v = 16 ∨ v = 32 ∨ v = 64 →
        Int.natAbs ((t.timer.cyc.interval : Int) - interval.toNat) ≤ Int.natAbs ((v : Int) - interval.toNat) ∧
        (Int.natAbs ((t.timer.cyc.interval : Int) - interval.toNat) = Int.natAbs ((v : Int) - interval.toNat) →
          v ≤ t.timer.cyc.interval)) ∧
      (t.timer.cyc.interval = 8 ∨ t.timer.cyc.interval = 16 ∨ t.timer.cyc.interval = 32 ∨ t.timer.cyc.interval = 64) ∧
      t.timer.cyc.accepted = s.timer.cyc.accepted ∧
      (t.timer.cyc.interval = s.timer.cyc.interval → t.timer.cyc = s.timer.cyc) ∧
      (t.timer.cyc.interval ≠ s.timer.cyc.interval → t.timer.cyc.count = 0) ∧
      (enable = 1 → s.timer.sync = .disabled → t.timer.sync = .acquiring) ∧
      (enable = 1 → s.timer.sync ≠ .disabled → t.timer.sync = s.timer.sync) ∧
      (enable = 0 → t.timer.sync = .disabled) ∧
      (t.timer.sync ≠ s.timer.sync → t.timer.currentMark = false ∧ t.timer.nextMark = false ∧
        t.timer.realigned = false ∧ t.timer.outRun = 0 ∧ t.timer.missRun = 0 ∧ t.timer.adjust = 0) ∧
      (t.timer.sync = s.timer.sync → (t.timer.currentMark, t.timer.nextMark, t.timer.realigned, t.timer.outRun,
          t.timer.missRun, t.timer.adjust) =
        (s.timer.currentMark, s.timer.nextMark, s.timer.realigned, s.timer.outRun, s.timer.missRun, s.timer.adjust)) ∧
      (t.timer.grain, t.timer.n, t.timer.nextN, t.timer.cycle, t.timer.start, t.timer.endE, t.timer.lastStrobe) =
        (s.timer.grain, s.timer.n, s.timer.nextN, s.timer.cycle, s.timer.start, s.timer.endE, s.timer.lastStrobe) ∧
      t.mgmt.inbound = rest ∧
      (t.timer.sync = s.timer.sync → t.mgmt.sources = s.mgmt.sources ∧ t.mgmt.unrouted = s.mgmt.unrouted) ∧
      (t.timer.sync ≠ s.timer.sync → s.mgmt.sources[0].number ≠ 0 → ∃ n ∈ t.mgmt.sources[0].pending,
        n.cycle = s.timer.cycle ∧ n.data = .syncState t.timer.sync s.timer.sync s.phase) ∧
      (t.timer.sync ≠ s.timer.sync → s.mgmt.sources[0].number = 0 → t.mgmt.unrouted = satInc s.mgmt.unrouted) ∧
      (∀ i : Fin 12, i ≠ 0 → t.mgmt.sources[i] = s.mgmt.sources[i]) ∧
      t.mgmt.outbound = s.mgmt.outbound ++ [⟨s.mgmt.serial, .reply 0x84 q.tag (.syncSet ⟨t.timer.lambda, t.timer.sigma,
        t.timer.holdLimit, t.timer.cyc.interval, enable == 1, t.timer.sync⟩)⟩] ∧
      { t with timer := s.timer, mgmt := s.mgmt } = s)

/-- SET_CYCLE (R95): LOCKED while the production lock is set; NOT_EMPTY unless every stream is FREE and the engine
idle; otherwise the length, clamped to 32..1000, waits as the next length. LOCK (R96): BUSY while an op waits, a
repair is posted, an operation is current or a commit is due; otherwise the lock is set. (SET_CYCLE's two bytes are n:
log entry 9.) -/
def Obligations.SetCycleAndLock : Prop :=
  (∀ (s : State) (q : Request) (rest : List Request) (n1 n0 : Byte), Offers s q rest → q.kind = 0x0F →
     q.payload = [n1, n0] →
     let n := max 32 (min 1000 (n1.toNat * 256 + n0.toNat))
     let idle := s.engine.current = none ∧ s.engine.waiting = [] ∧
       ∀ p : Port, s.engine.egressRepairs[p] = false ∧ s.engine.ingressRepairs[p] = false
     (s.engine.locked = true → exec .setCycle s = .next (replied q rest (.plain .locked) s)) ∧
     (s.engine.locked = false → ¬((∀ i : StreamNo, s.streams[i] = none) ∧ idle) →
       exec .setCycle s = .next (replied q rest (.plain .notEmpty) s)) ∧
     (s.engine.locked = false → (∀ i : StreamNo, s.streams[i] = none) → idle →
       exec .setCycle s = .next (replied q rest (.cycleSet n (s.timer.n * 1000) (n * 1000))
         { s with timer := { s.timer with nextN := some n } }))) ∧
  (∀ (s : State) (q : Request) (rest : List Request), Offers s q rest → q.kind = 0x10 → q.payload = [] →
     let quiet := s.engine.waiting = [] ∧ s.engine.current = none ∧ s.engine.commitDue = false ∧
       ∀ e : Port, s.engine.egressRepairs[e] = false ∧ s.engine.ingressRepairs[e] = false
     (¬quiet → exec .lock s = .next (replied q rest (.plain .busy) s)) ∧
     (quiet → exec .lock s = .next (replied q rest (.plain .ok) { s with engine := { s.engine with locked := true } })))

/-- FILTER_SAMPLE (R4): a sample equal to the accepted level clears the count; the first and second that differ are
counted, the first with its timestamp. No sample is taken off a multiple of the interval, and none twice at one
instant. A FILTER_SAMPLE that is the third to differ qualifies the level, and is then STROBE or CYC_FALL, ARC_ON or
ARC_OFF (see the statements on those). CYC_FALL changes the accepted level of CYC and has no other effect (R4). (A sample
commanded when none is due changes nothing: log entry 3.) -/
def Obligations.FilterSampleAndCycFall : Prop :=
  (∀ (s : State) (level : Bool), Awake s →
     let after (f : LineFilter) : LineFilter :=
       if level = f.accepted then { f with count := 0, pin := level, sampled := true }
       else if f.count = 0 then { f with count := 1, stamp := s.timer.grain, pin := level, sampled := true }
       else { f with count := 2, pin := level, sampled := true }
     let due (f : LineFilter) : Prop := f.sampled = false ∧ s.timer.grain.toNat % f.interval = 0
     (due s.timer.cyc → (level = s.timer.cyc.accepted ∨ s.timer.cyc.count ≤ 1) →
       exec (.filterSample .cyc level) s = .next { s with timer := { s.timer with cyc := after s.timer.cyc } }) ∧
     (due s.arc.filter → (level = s.arc.filter.accepted ∨ s.arc.filter.count ≤ 1) →
       exec (.filterSample .arc level) s = .next { s with arc := { s.arc with filter := after s.arc.filter } }) ∧
     (cycQualifies s level → exec (.filterSample .cyc level) s = exec (if level then .strobe else .cycFall) s) ∧
     (arcQualifies s level → exec (.filterSample .arc level) s = exec (if level then .arcOn else .arcOff) s) ∧
     (¬due s.timer.cyc → exec (.filterSample .cyc level) s = .next s) ∧
     (¬due s.arc.filter → exec (.filterSample .arc level) s = .next s)) ∧
  (∀ s : State, cycQualifies s false →
     exec .cycFall s = .next { s with timer := { s.timer with cyc :=
       { s.timer.cyc with accepted := false, count := 0, pin := false, sampled := true } } })

/-- An in-window STROBE, by the cases of R7 with the corrections of R10: case C and case A move the current end by the
clamped ε and mark the current start, case B sets the next-cycle adjustment and marks the next start; the out-of-window
run is cleared and the record shows CORRECTED. A commit guard that has been reached stays so when the end moves (R86).
In LOCKED nothing else changes; in HOLDOVER the miss run is cleared and the state becomes LOCKED, with a SYNC_STATE
notice (R10, R6). A STROBE in DISABLED changes nothing but the record, with outcome IGNORED; in another state an extra
strobe, in a realigned cycle or matched to a marked start, moves no mark, run or cycle end, is recorded EXTRA and counted
by the fault unit as EXTRA_STROBE (R8). -/
def Obligations.StrobeCorrectsOrIsExtra : Prop :=
  (∀ (s : State) (t : Int), cycQualifies s true → s.timer.realigned = false →
     t = (s.timer.cyc.stamp - s.timer.start).toInt →
     let x := s.timer
     let clampS (v : Int) : Int := max (-(x.sigma : Int)) (min x.sigma v)
     let filter : LineFilter := { x.cyc with accepted := true, count := 0, pin := true, sampled := true }
     let caseB := 0 ≤ t ∧ (x.endE : Int) - (x.n * 500 : Nat) ≤ t
     let corrects (y : Timer) : Prop :=
       (x.sync = .locked → exec .strobe s = .next { s with timer := y }) ∧
       (x.sync = .holdover → ∃ u, exec .strobe s = .next u ∧ u.timer = { y with sync := .locked, missRun := 0 } ∧
         (s.mgmt.sources[0].number ≠ 0 → ∃ n ∈ u.mgmt.sources[0].pending,
           n.cycle = x.cycle ∧ n.data = .syncState .locked .holdover s.phase) ∧
         { u with timer := s.timer, mgmt := s.mgmt } = s)
     (¬caseB → x.currentMark = false → t.natAbs ≤ x.lambda → corrects { x with
       cyc := filter, endE := (x.endE + clampS t).toNat, currentMark := true, outRun := 0
       guarded := x.guarded || decide (x.endE ≤ s.phase + 16384)
       lastStrobe := some ⟨x.cyc.stamp, t, some .current, some t, some (clampS t), .corrected⟩ }) ∧
     (caseB → x.nextMark = false → (t - x.endE).natAbs ≤ x.lambda → corrects { x with
       cyc := filter, adjust := clampS (t - x.endE), nextMark := true, outRun := 0
       lastStrobe :=
         some ⟨x.cyc.stamp, t, some .next, some (t - x.endE), some (clampS (t - x.endE)), .corrected⟩ })) ∧
  (∀ (s : State) (t : Int), cycQualifies s true → t = (s.timer.cyc.stamp - s.timer.start).toInt →
     let x := s.timer
     let filter : LineFilter := { x.cyc with accepted := true, count := 0, pin := true, sampled := true }
     let caseB := 0 ≤ t ∧ (x.endE : Int) - (x.n * 500 : Nat) ≤ t
     (x.sync = .disabled → exec .strobe s = .next { s with timer := { x with
       cyc := filter, lastStrobe := some ⟨x.cyc.stamp, t, none, none, none, .ignored⟩ } }) ∧
     (x.sync ≠ .disabled → (x.realigned = true ∨ (caseB ∧ x.nextMark = true) ∨ (¬caseB ∧ x.currentMark = true)) →
       ∃ u, exec .strobe s = .next u ∧
         (∃ m e, u.timer = { x with cyc := filter, lastStrobe := some ⟨x.cyc.stamp, t, some m, some e, none, .extra⟩ }) ∧
         u.deviceCounters = Table.upd s.deviceCounters 17 satInc ∧
         { u with timer := s.timer, deviceCounters := s.deviceCounters, fault := s.fault, mgmt := s.mgmt } = s))

/-- An out-of-window STROBE, matched to either start, is counted OUT_OF_WINDOW (R11). In LOCKED it marks its start and
counts; the third in a row, and in HOLDOVER the first, realigns: E becomes the least t + jM, j ≥ 1, not less than the old
E, the current start and the realigned mark are set, the rest is cleared, and REALIGN is counted (R11, R12). The first
STROBE taken in ACQUIRING or LOST realigns and the state becomes LOCKED (R12). Each change of state raises SYNC_STATE
(R6). A commit guard that has been reached stays so when E moves (R86). -/
def Obligations.RealignPlacesTheGrid : Prop :=
  ∀ (s : State) (t : Int), cycQualifies s true → s.timer.realigned = false → 0 < s.timer.n →
    t = (s.timer.cyc.stamp - s.timer.start).toInt →
    let realigned (u : State) : Prop := u.timer.sync = .locked ∧ u.timer.currentMark = true ∧ u.timer.nextMark = false ∧
      u.timer.realigned = true ∧ u.timer.outRun = 0 ∧ u.timer.missRun = 0 ∧ u.timer.adjust = 0 ∧
      OnGrid t (s.timer.n * 1000) s.timer.endE u.timer.endE ∧
      u.timer.guarded = (s.timer.guarded || decide (s.timer.endE ≤ s.phase + 16384)) ∧
      u.timer.lastStrobe.map (·.outcome) = some .realigned ∧ u.deviceCounters[20] = satInc s.deviceCounters[20] ∧
      (s.timer.sync ≠ .locked → s.mgmt.sources[0].number ≠ 0 → ∃ n ∈ u.mgmt.sources[0].pending,
        n.cycle = s.timer.cycle ∧ n.data = .syncState .locked s.timer.sync s.phase)
    let stands (u : State) : Prop :=
      (u.timer.cycle, u.timer.start, u.timer.grain, u.timer.n, u.timer.nextN) =
        (s.timer.cycle, s.timer.start, s.timer.grain, s.timer.n, s.timer.nextN) ∧
      { u with timer := s.timer, deviceCounters := s.deviceCounters, fault := s.fault, mgmt := s.mgmt } = s
    (∀ caseB : Bool, (caseB = true ↔ 0 ≤ t ∧ (s.timer.endE : Int) - (s.timer.n * 500 : Nat) ≤ t) →
      (s.timer.sync = .locked ∨ s.timer.sync = .holdover) →
      (if caseB then s.timer.nextMark else s.timer.currentMark) = false →
      s.timer.lambda < (if caseB then t - s.timer.endE else t).natAbs →
      ∃ u, exec .strobe s = .next u ∧ stands u ∧ u.deviceCounters[18] = satInc s.deviceCounters[18] ∧
        (s.timer.sync = .locked → s.timer.outRun < 2 →
          u.timer.sync = .locked ∧ u.timer.outRun = s.timer.outRun + 1 ∧ u.timer.endE = s.timer.endE ∧
          u.timer.adjust = s.timer.adjust ∧ u.timer.realigned = false ∧
          u.timer.currentMark = (s.timer.currentMark || !caseB) ∧ u.timer.nextMark = (s.timer.nextMark || caseB) ∧
          u.timer.lastStrobe.map (·.outcome) = some .outOfWindow ∧ u.deviceCounters[20] = s.deviceCounters[20]) ∧
        ((s.timer.sync = .holdover ∨ 2 ≤ s.timer.outRun) → realigned u)) ∧
    ((s.timer.sync = .acquiring ∨ s.timer.sync = .lost) → s.timer.currentMark = false → s.timer.nextMark = false →
      ∃ u, exec .strobe s = .next u ∧ stands u ∧ realigned u)

/-- SET_ARC (R149): the interval becomes the nearest of 8, 16, 32 and 64 grains; another interval clears the count of
half-qualified samples, the one in force leaves the filter; the reply shows the line and the eight monitors. ARC_ON
and ARC_OFF (R142, R150, R151): the accepted level, the edge's counter and the last ARC edge record change; at arc on
every arc-exposed port is DISTURBED with its quiet streak at 0, a change being counted, flagged and notified with cause ARC_ON (R147); no other
port's monitor moves, and at arc off none does. (SET_ARC's byte is the interval: log entry 9.) -/
def Obligations.SetArcAndTheArcEdges : Prop :=
  (∀ (s : State) (q : Request) (rest : List Request) (v : Byte), Offers s q rest → q.kind = 0x17 → q.payload = [v] →
     let i := if v.toNat < 12 then 8 else if v.toNat < 24 then 16 else if v.toNat < 48 then 32 else 64
     let f := if i = s.arc.filter.interval then s.arc.filter else { s.arc.filter with interval := i, count := 0 }
     exec .setArc s = .next (replied q rest
       (.arc { interval := i, level := s.arc.filter.accepted, lastEdge := s.arc.lastEdge
               ports := ([0, 1, 2, 3, 4, 5, 6, 7] : List Port).map fun p =>
                 ⟨s.ports[p].arcExposed, s.noise[p].state, s.noise[p].count, s.noise[p].quiet, s.noise[p].calm⟩ })
       { s with arc := { s.arc with filter := f } })) ∧
  (∀ (s : State) (on : Bool), arcQualifies s on →
     ∃ t, exec (if on then .arcOn else .arcOff) s = .next t ∧ t.arc.filter.accepted = on ∧ t.arc.filter.count = 0 ∧
       t.arc.lastEdge = some ⟨on, s.arc.filter.stamp, s.timer.cycle, s.phase⟩ ∧
       t.deviceCounters = Table.upd s.deviceCounters (if on then 26 else 27) satInc ∧
       (∀ p : Port, (on = true → s.ports[p].arcExposed = true →
           t.noise[p].state = .disturbed ∧ t.noise[p].quiet = 0 ∧ t.noise[p].count = s.noise[p].count ∧
           (s.noise[p].state ≠ .disturbed →
             t.ports[p].counters = Table.upd s.ports[p].counters 19 satInc ∧
             t.ports[p].flags = s.ports[p].flags ||| (4#6 &&& s.ports[p].flagMask) ∧
             (s.mgmt.sources[p.val + 1].number ≠ 0 → ∃ n ∈ t.mgmt.sources[p.val + 1].pending,
               n.cycle = s.timer.cycle ∧
               n.data = .noiseState p .disturbed s.noise[p].state .arcOn s.noise[p].count s.phase)) ∧
           (s.noise[p].state = .disturbed → t.ports[p] = s.ports[p] ∧
             t.mgmt.sources[p.val + 1] = s.mgmt.sources[p.val + 1])) ∧
         (¬(on = true ∧ s.ports[p].arcExposed = true) → t.noise[p] = s.noise[p] ∧ t.ports[p] = s.ports[p] ∧
           t.mgmt.sources[p.val + 1] = s.mgmt.sources[p.val + 1])) ∧
       { t with arc := s.arc, deviceCounters := s.deviceCounters, noise := s.noise, ports := s.ports, mgmt := s.mgmt } = s)

/-- CYCLE_START begins the next cycle (R2, R3, R9), ends the commit guard (R86) and begins a new pass on every egress (R99)
and a count from 0 in every noise monitor whose cycle-end check is made by this command (R140). The cycle-end check at
CYCLE_START (R13): what becomes of the sync state and the runs of a cycle whose start was not matched, and that a matched
one, and the states that expect no strobe, change nothing; an unmatched start in LOCKED or HOLDOVER is counted as
MISSED_STROBE (R16), and the entry into HOLDOVER or LOST raises SYNC_STATE with the cycle that ends (R6). (A noise check
made apart from the command is marked as made: log entry 5. That an adjustment made under a larger σ is taken as it stands:
DESIGN CHOICE, log entry 36.) -/
def Obligations.CycleStartBeginsTheNextCycle : Prop :=
  (∀ s : State, Awake s → s.timer.endE ≤ s.phase →
     ∃ t, exec .cycleStart s = .next t ∧
       (let n := s.timer.nextN.getD s.timer.n
        t.timer.start = s.timer.grain ∧ t.timer.grain = s.timer.grain ∧ t.timer.cycle = s.timer.cycle + 1 ∧
        t.timer.n = n ∧ t.timer.nextN = none ∧ t.timer.endE = ((n * 1000 : Nat) + s.timer.adjust).toNat ∧
        t.timer.adjust = 0 ∧ t.timer.currentMark = s.timer.nextMark ∧ t.timer.nextMark = false ∧
        t.timer.realigned = false ∧ t.timer.guarded = false ∧ t.timer.lastStrobe = s.timer.lastStrobe ∧
        t.timer.cyc = s.timer.cyc) ∧
       (∀ e : Port, t.egress[e].openWindow = none ∧ t.egress[e].nextWindow = 0 ∧ t.egress[e].wire = s.egress[e].wire ∧
         t.egress[e].queues = s.egress[e].queues) ∧
       (∀ p : Port, s.noise[p].checked = false → t.noise[p].count = 0)) ∧
  (∀ s : State, Awake s → s.timer.endE ≤ s.phase →
     ∃ t, exec .cycleStart s = .next t ∧
       ((s.timer.currentMark = true ∨ (s.timer.sync ≠ .locked ∧ s.timer.sync ≠ .holdover) ∨
           (s.timer.sync = .locked ∧ s.timer.nextMark = true)) →
         (t.timer.sync, t.timer.missRun, t.timer.outRun) = (s.timer.sync, s.timer.missRun, s.timer.outRun)) ∧
       (s.timer.currentMark = false → s.timer.sync = .locked → s.timer.nextMark = false →
         (t.timer.sync, t.timer.missRun, t.timer.outRun) = (.holdover, 1, 0)) ∧
       (s.timer.currentMark = false → s.timer.sync = .holdover →
         let miss := min 255 (s.timer.missRun + 1)
         (t.timer.sync, t.timer.missRun, t.timer.outRun) =
           (if s.timer.holdLimit ≤ miss then .lost else .holdover, miss, s.timer.outRun)) ∧
       t.deviceCounters[19] =
         (if s.timer.currentMark = false ∧ (s.timer.sync = .locked ∨ s.timer.sync = .holdover) then
            satInc s.deviceCounters[19]
          else s.deviceCounters[19]) ∧
       (t.timer.sync = s.timer.sync → t.mgmt.sources[0] = s.mgmt.sources[0]) ∧
       (t.timer.sync ≠ s.timer.sync → s.mgmt.sources[0].number ≠ 0 → ∃ n ∈ t.mgmt.sources[0].pending,
         n.cycle = s.timer.cycle ∧ n.data = .syncState t.timer.sync s.timer.sync s.phase))

/-- SYNC_LOST (R13): in HOLDOVER, with the cycle's end reached, its start unmatched and the miss run about to
reach H, the state becomes LOST, the miss run keeps the value that reached H, the miss is counted as
MISSED_STROBE, and a SYNC_STATE notice is raised. That the check may be taken apart from CYCLE_START is the
model's reading (log entry 5). -/
def Obligations.SyncLostAtTheHoldLimit : Prop :=
  ∀ s : State, Awake s → s.timer.endE ≤ s.phase → s.timer.sync = .holdover → s.timer.currentMark = false →
    s.timer.holdLimit ≤ min 255 (s.timer.missRun + 1) →
    ∃ t, exec .syncLost s = .next t ∧
      t.timer = { s.timer with sync := .lost, missRun := min 255 (s.timer.missRun + 1) } ∧
      t.deviceCounters = Table.upd s.deviceCounters 19 satInc ∧
      (s.mgmt.sources[0].number ≠ 0 → ∃ n ∈ t.mgmt.sources[0].pending,
        n.cycle = s.timer.cycle ∧ n.data = .syncState .lost .holdover s.phase) ∧
      { t with timer := s.timer, deviceCounters := s.deviceCounters, fault := s.fault, mgmt := s.mgmt } = s

/-! ### Ports and links (chapter 2) -/

/-- PORT_CONFIG (R26): the checks in their order, a refused request changing nothing; of several marks that fail the lowest
offset is named (log entry 32). An accepted one gives the port the settings of the request, each clamped to its range, the
ceiling not below the need of the port's timelines and θd not below θw (R26, R27), and the reply shows them with the
repair mark (that it marks a change of planned speed: log entry 17); no other port changes. A change of planned speed
posts both repairs of the port, which a free engine with nothing before them takes, the egress repair first, a repair
with no stream to examine ending at once, and sets SPEED_MISMATCH when the link is up at the old one (R25, R84, R85,
R89). Arc-exposed turned on during an arc makes the port DISTURBED with its entry effects (R145, R147). HOLD turned off
lets the egress choose at once (R119). (That the flags follow the new mask, and the order of these effects: log entry
34.) -/
def Obligations.PortConfig : Prop :=
  (∀ (s : State) (q : Request) (rest : List Request), Offers s q rest → q.kind = 0x06 → q.payload.length = 18 →
     let speed := q.field 1 2
     (8 ≤ q.b 0 → exec .portConfig s = .next (replied q rest (.badField 0) s)) ∧
     (q.b 0 < 8 → speed ≠ 100 → speed ≠ 1000 → exec .portConfig s = .next (replied q rest (.badField 1) s)) ∧
     (q.b 0 < 8 → (speed = 100 ∨ speed = 1000) → 1 < q.b 3 →
       exec .portConfig s = .next (replied q rest (.badField 3) s)) ∧
     (q.b 0 < 8 → (speed = 100 ∨ speed = 1000) → q.b 3 ≤ 1 → 1 < q.b 4 →
       exec .portConfig s = .next (replied q rest (.badField 4) s)) ∧
     (q.b 0 < 8 → (speed = 100 ∨ speed = 1000) → q.b 3 ≤ 1 → q.b 4 ≤ 1 → 1 < q.b 5 →
       exec .portConfig s = .next (replied q rest (.badField 5) s)) ∧
     (∀ (p : Port) (x : Speed), q.b 0 = p.val → speed = (match x with | .s100 => 100 | .s1000 => 1000) → q.b 3 ≤ 1 →
       q.b 4 ≤ 1 → q.b 5 ≤ 1 → s.engine.locked = true → x ≠ s.ports[p].planned →
       exec .portConfig s = .next (replied q rest (.plain .locked) s))) ∧
  (∀ (s : State) (q : Request) (rest : List Request) (p : Port) (x : Speed), Offers s q rest → q.kind = 0x06 →
     q.payload.length = 18 → q.b 0 = p.val → q.field 1 2 = (match x with | .s100 => 100 | .s1000 => 1000) →
     q.b 3 ≤ 1 → q.b 4 ≤ 1 → q.b 5 ≤ 1 → (s.engine.locked = false ∨ x = s.ports[p].planned) →
     let mask : BitVec 6 := BitVec.ofNat 6 (q.b 17)
     let exposed := s.ports[p].arcExposed = false ∧ q.b 5 = 1 ∧ s.arc.filter.accepted = true
     ∃ t, exec .portConfig s = .next t ∧
       (let u := t.ports[p]
        let need := ceilDiv (100 * max (reservedTime s.egress[p].timeline) (reservedTime s.engine.timelines[p]))
          (s.timer.n * 1000)
        u.planned = x ∧ u.ingressEnable = (q.b 3 == 1) ∧ u.hold = (q.b 4 == 1) ∧ u.arcExposed = (q.b 5 == 1) ∧
        u.defaultClass = min 3 (q.b 6) ∧ u.beLimit = max 64 (min 1536 (q.field 7 2)) ∧ u.mu = min 255 (q.field 9 2) ∧
        u.tau = min 4095 (q.field 11 2) ∧ u.kappa = max (max 10 (min 90 (q.b 13))) need ∧
        u.thetaW = max 1 (q.b 14) ∧ u.thetaD = max (max 1 (q.b 15)) (max 1 (q.b 14)) ∧ u.coolDown = max 1 (q.b 16) ∧
        u.flagMask = mask ∧ u.link = s.ports[p].link ∧ u.windows = s.ports[p].windows ∧
        u.untaggedAllowed = s.ports[p].untaggedAllowed ∧ u.receiving = s.ports[p].receiving) ∧
       (∀ e : Port, e ≠ p → t.ports[e] = s.ports[e]) ∧ t.mgmt.inbound = rest ∧
       t.mgmt.outbound = s.mgmt.outbound ++ [⟨s.mgmt.serial, .reply 0x86 q.tag
         (.portConfigured p t.ports[p].settings (decide (x ≠ s.ports[p].planned)))⟩] ∧
       t.timer = s.timer ∧ t.addr = s.addr ∧
       (x = s.ports[p].planned → (s.ports[p].hold = false ∨ q.b 4 = 1) → (s.ports[p].arcExposed = true ∨ q.b 5 = 0) →
         (s.engine.current ≠ none ∨ NothingWaits s) →
         { t with ports := s.ports, mgmt := s.mgmt } = s ∧ t.ports[p].flags = s.ports[p].flags ∧
         t.ports[p].counters = s.ports[p].counters ∧ t.ports[p].lastEvent = s.ports[p].lastEvent ∧
         t.ports[p].restartMarker = s.ports[p].restartMarker) ∧
       (x ≠ s.ports[p].planned →
         t.ports[p].flags.getLsbD 1 = (s.ports[p].flags.getLsbD 1 ||
           (decide (s.ports[p].link = .up s.ports[p].planned) && mask.getLsbD 1)) ∧
         (s.engine.current ≠ none → t.engine = { s.engine with
           egressRepairs := Table.upd s.engine.egressRepairs p fun _ => true
           ingressRepairs := Table.upd s.engine.ingressRepairs p fun _ => true }) ∧
         (s.engine.current = none → NothingWaits s →
           let taken (k : RepairKind) : RepairRun :=
             { kind := k, port := p, planM := s.timer.nextN.getD s.timer.n * 1000, speeds := t.ports.map (·.planned)
               nextStream := 0, within := none, aside := [], results := [], examined := false }
           (s.repairNext (taken .egress) ≠ none → t.engine = { s.engine with
             current := some (.repair (taken .egress)), mark := s.timer.grain
             ingressRepairs := Table.upd s.engine.ingressRepairs p fun _ => true }) ∧
           (s.repairNext (taken .egress) = none → s.repairNext (taken .ingress) ≠ none → t.engine = { s.engine with
             current := some (.repair (taken .ingress)), mark := s.timer.grain }) ∧
           (s.repairNext (taken .egress) = none → s.repairNext (taken .ingress) = none → t.engine = s.engine))) ∧
       (∀ e : Port, e ≠ p → t.noise[e] = s.noise[e]) ∧ (¬exposed → t.noise[p] = s.noise[p]) ∧
       (exposed → s.noise[p].state = .disturbed → t.noise[p] = { s.noise[p] with quiet := 0 }) ∧
       (exposed → s.noise[p].state ≠ .disturbed →
         t.noise[p] = { s.noise[p] with state := .disturbed, quiet := 0, calm := 0 } ∧
         t.ports[p].counters[19] = satInc s.ports[p].counters[19] ∧
         t.ports[p].flags.getLsbD 2 = (s.ports[p].flags.getLsbD 2 || mask.getLsbD 2) ∧
         (s.mgmt.sources[p.val + 1].number ≠ 0 → ∃ n ∈ t.mgmt.sources[p.val + 1].pending, n.cycle = s.timer.cycle ∧
           n.data = .noiseState p .disturbed s.noise[p].state .exposedSet s.noise[p].count s.phase)) ∧
       (s.ports[p].hold = true → q.b 4 = 0 →
         (∀ c r queued v, BestEffortStart s p c r queued v →
           t.egress[p].wire = some ⟨r.id, s.timer.grain, .bestEffort⟩ ∧ t.egress[p].queues[c] = queued ∧
           t.ports[p].counters[13] = satInc s.ports[p].counters[13]) ∧
         (∀ o y l r slot v, MotionStart s p o y l r slot v →
           t.egress[p].wire = some ⟨r.id, s.timer.grain, .motion o.window.stream (y.desc.twin != .off)⟩ ∧
           t.slotOf o.window.stream p = slot ∧ t.ports[p].counters[11] = satInc s.ports[p].counters[11])))

/-- PORT_RESTART (R29, R148): a port above 7 is refused; otherwise the port is DOWN with its restart marker set; if the link
was UP a LINK_DOWN is taken with all its effects (R20, R21), and if it was DOWN nothing else of the port, its egress or its
legs changes; and its monitor is CLEAN with count and streaks at 0, a change raising NOISE_STATE. Its settings and the
other ports stand. (The payload's byte is the port: log entry 9; that this notice carries the count from before the restart
clears it is the model's reading, DEDUCED: log entry 16.) -/
def Obligations.PortRestartTakesTheLinkDown : Prop :=
  ∀ (s : State) (q : Request) (rest : List Request), Offers s q rest → q.kind = 0x07 → q.payload.length = 1 →
    (8 ≤ q.b 0 → exec .portRestart s = .next (replied q rest (.badField 0) s)) ∧
    (∀ p : Port, q.b 0 = p.val → ∃ t, exec .portRestart s = .next t ∧ t.ports[p].link = .down ∧
      t.ports[p].restartMarker = true ∧ t.noise[p].state = .clean ∧ t.noise[p].count = 0 ∧ t.noise[p].quiet = 0 ∧
      t.noise[p].calm = 0 ∧ t.ports[p].settings = s.ports[p].settings ∧
      (s.ports[p].link ≠ .down → TakenDown s t p) ∧
      (s.ports[p].link = .down → t.ports[p] = { s.ports[p] with restartMarker := true } ∧
        { t with ports := s.ports, noise := s.noise, mgmt := s.mgmt } = s) ∧
      (s.noise[p].state ≠ .clean → s.mgmt.sources[p.val + 1].number ≠ 0 → ∃ n ∈ t.mgmt.sources[p.val + 1].pending,
        n.cycle = s.timer.cycle ∧
        n.data = .noiseState p .clean s.noise[p].state .portRestart s.noise[p].count s.phase) ∧
      (∀ e : Port, e ≠ p → t.ports[e] = s.ports[e] ∧ t.noise[e] = s.noise[e] ∧ t.egress[e] = s.egress[e]) ∧
      t.timer = s.timer ∧ t.addr = s.addr ∧ t.probes = s.probes ∧ t.mgmt.inbound = rest ∧
      t.mgmt.outbound = s.mgmt.outbound ++ [⟨s.mgmt.serial, .reply 0x87 q.tag (.portRestarted p .down)⟩])

/-- SET_FILTER (R35): every enable and the untagged mark are 0 or 1, else BAD_FIELD (at the first that is
not: log entry 32); the windows take a base with its low four bits 0, at most 4080, and a size of 16..4096 rounded up to a multiple of 16; the
reply shows them with each window's end.
CLEAR_FLAGS (R37): each named flag becomes 0, the others stand, and the reply shows all six. (CLEAR_FLAGS names the
port and the flags in this order: log entry 9.) -/
def Obligations.SetFilterAndClearFlags : Prop :=
  (∀ (s : State) (q : Request) (rest : List Request), Offers s q rest → q.kind = 0x09 → q.payload.length = 42 →
    (8 ≤ q.b 0 → exec .setFilter s = .next (replied q rest (.badField 0) s)) ∧
    (q.b 0 < 8 → 1 < q.b 1 → exec .setFilter s = .next (replied q rest (.badField 1) s)) ∧
    (∀ i : Fin 8, q.b 0 < 8 → q.b 1 ≤ 1 → 1 < q.b (6 + 5 * i.val) → (∀ j : Fin 8, j < i → q.b (6 + 5 * j.val) ≤ 1) →
      exec .setFilter s = .next (replied q rest (.badField (6 + 5 * i.val)) s)) ∧
    (∀ p : Port, q.b 0 = p.val → q.b 1 ≤ 1 → (∀ i : Fin 8, q.b (6 + 5 * i.val) ≤ 1) →
      ∃ t, exec .setFilter s = .next t ∧ t.ports[p].untaggedAllowed = (q.b 1 == 1) ∧
        (∀ i : Fin 8, t.ports[p].windows[i] =
          ⟨min 4080 (16 * (q.field (2 + 5 * i.val) 2 / 16)),
            16 * ((max 16 (min 4096 (q.field (4 + 5 * i.val) 2)) + 15) / 16), q.b (6 + 5 * i.val) == 1⟩) ∧
        { t.ports[p] with untaggedAllowed := s.ports[p].untaggedAllowed, windows := s.ports[p].windows } = s.ports[p] ∧
        (∀ e : Port, e ≠ p → t.ports[e] = s.ports[e]) ∧ { t with ports := s.ports, mgmt := s.mgmt } = s ∧
        t.mgmt.inbound = rest ∧
        t.mgmt.outbound = s.mgmt.outbound ++ [⟨s.mgmt.serial, .reply 0x89 q.tag (.filterSet p (q.b 1 == 1)
          (t.ports[p].windows.toList.map fun w => (w, min (w.base + w.size - 1) 4095)))⟩])) ∧
  (∀ (s : State) (q : Request) (rest : List Request), Offers s q rest → q.kind = 0x0A → q.payload.length = 2 →
    (8 ≤ q.b 0 → exec .clearFlags s = .next (replied q rest (.badField 0) s)) ∧
    (∀ p : Port, q.b 0 = p.val → ∃ t, exec .clearFlags s = .next t ∧
      (∀ k, k < 6 → t.ports[p].flags.getLsbD k = (s.ports[p].flags.getLsbD k && !(BitVec.ofNat 8 (q.b 1)).getLsbD k)) ∧
      { t.ports[p] with flags := s.ports[p].flags } = s.ports[p] ∧
      (∀ e : Port, e ≠ p → t.ports[e] = s.ports[e]) ∧ { t with ports := s.ports, mgmt := s.mgmt } = s ∧
      t.mgmt.inbound = rest ∧
      t.mgmt.outbound = s.mgmt.outbound ++ [⟨s.mgmt.serial, .reply 0x8A q.tag (.flags p t.ports[p].flags)⟩]))

/-- LINK_DOWN on an UP link (R19, R20, R21): the wire, the class queues and the slots of the egress are emptied, each cut off
or dropped frame advancing the counter of its place (transmit-aborted, best-effort link-down, or its leg's LINK_DOWN) and
reported with cause LINK_DOWN; every such frame, and those kept for twin copies, return their reference, a frame without one
left giving its cells back to its pool (R124), and the egress's best-effort count falls by the cells of its frames; the LIVE
and MISMATCH legs of running streams become DORMANT and every other leg keeps its state; a reception is cut off and counted;
and the event is recorded, counted and raises LINK_STATE. A report of the link state that already holds changes nothing. -/
def Obligations.LinkDownEmptiesTheEgress : Prop :=
  ∀ (s : State) (p : Port), Awake s →
    (s.ports[p].link = .down → exec (.linkDown p) s = .next s) ∧
    (s.ports[p].link ≠ .down → ∃ t, exec (.linkDown p) s = .next t ∧ TakenDown s t p ∧
      t.ports[p].settings = s.ports[p].settings ∧ t.ports[p].windows = s.ports[p].windows ∧
      t.ports[p].untaggedAllowed = s.ports[p].untaggedAllowed ∧ t.ports[p].restartMarker = s.ports[p].restartMarker ∧
      (∀ e : Port, e ≠ p → t.ports[e] = s.ports[e] ∧ t.egress[e] = s.egress[e]) ∧ t.timer = s.timer ∧
      t.engine = s.engine ∧ t.addr = s.addr ∧ t.noise = s.noise ∧ t.probes = s.probes ∧
      t.streamCounters = s.streamCounters)

/-- LINK_UP and LINK_UP_OTHER_SPEED (R19, R22, R23). On a DOWN link a LINK_UP is taken: the link is UP, the event recorded,
counted and notified, the restart marker cleared, the DORMANT legs of running streams on the port become LIVE at the planned
speed and MISMATCH at the other, which sets SPEED_MISMATCH, no other leg state changes, and the egress chooses what starts
(R112; log entry 21: a used twin window left without copies is released). A report of the speed the link has already
changes nothing. On a link that is UP at the other speed a LINK_DOWN is taken with all its effects, as the report of a link
that is down takes it, and then the LINK_UP: two link events are counted, and two LINK_STATE notices raised, the second joining
the first where it is still pending (R176). The egress is then empty, so that nothing starts. -/
def Obligations.LinkUpWakesDormantLegs : Prop :=
  ∀ (s : State) (p : Port) (planned : Bool), Awake s →
    let report : Instr := if planned then .linkUp p else .linkUpOtherSpeed p
    let source (t : State) := t.mgmt.sources[p.val + 1]
    (s.ports[p].link = .down → ∃ t, exec report s = .next t ∧ CameUp s t p planned) ∧
    (s.ports[p].link = .up (reported s p planned) → exec report s = .next s) ∧
    (s.ports[p].link ≠ .down → s.ports[p].link ≠ .up (reported s p planned) →
      ∃ m t, exec (.linkDown p) s = .next m ∧ TakenDown s m p ∧ exec report s = .next t ∧ CameUp m t p planned ∧
        t.ports[p].counters = Table.upd m.ports[p].counters 18 satInc ∧ t.egress[p].wire = none ∧
        t.egress[p].queues = m.egress[p].queues ∧ (∀ n : StreamNo, t.slotOf n p = [] ∧ t.retainedOf n p = []) ∧
        t.buffer = m.buffer ∧ t.deviceCounters = m.deviceCounters ∧ t.legCounters = m.legCounters ∧
        ((source s).number ≠ 0 → ∃ a ∈ (source m).pending, ∃ b ∈ (source t).pending,
          a.data = .linkState p .down s.ports[p].planned ∧
          b.data = .linkState p (.up (reported s p planned)) s.ports[p].planned ∧ b.repeats = min 255 (a.repeats + 1)) ∧
        ((source s).number = 0 → t.mgmt.unrouted = satInc m.mgmt.unrouted))

/-- RECEPTION_START stamps the frame with the grain clock (R31): on an UP link that receives nothing; on a DOWN link
nothing begins. The VLAN filter (R34, section 2.6): with no window enabled it passes every frame; otherwise a frame
with a VID passes when an enabled window from its base to the lesser of base + size − 1 and 4095 holds the VID, and a
frame without one when untagged frames are allowed. (That the instant of the first address byte is a command of its
own is the table's; on a DOWN link: log entry 3.) -/
def Obligations.ReceptionStartAndTheVlanFilter : Prop :=
  (∀ (s : State) (p : Port), Awake s →
     (s.ports[p].link ≠ .down → s.ports[p].receiving = none → ∃ t, exec (.receptionStart p) s = .next t ∧
       t.ports[p] = { s.ports[p] with receiving := some s.timer.grain } ∧
       (∀ e : Port, e ≠ p → t.ports[e] = s.ports[e]) ∧ { t with ports := s.ports } = s) ∧
     (s.ports[p].link = .down → exec (.receptionStart p) s = .next s)) ∧
  (∀ (u : PortUnit) (f : RxFrame),
     filterPasses u f = true ↔
       ((∀ i : Fin 8, u.windows[i].enable = false) ∨
        (∃ v, frameVlan f = some v ∧ ∃ i : Fin 8, u.windows[i].enable = true ∧ u.windows[i].base ≤ v ∧
           v ≤ u.windows[i].base + u.windows[i].size - 1 ∧ v ≤ 4095) ∨
        (frameVlan f = none ∧ u.untaggedAllowed = true)))

/-- FRAME_END with one of the causes 0 to 5, the first that applies (R32, R33): the frame leaves the port, the port's
counter of the cause and its device total rise, a FILTERED drop sets FILTER_HIT, and nothing is stored, learned, or
matched to a stream. A SYMBOL, FCS or RUNT is a receive fault of the port's monitor: the count rises, the streak it breaks
returns to 0, and the upward test may take a CLEAN port to WATCH or DISTURBED and a WATCH port to DISTURBED, with the
entry's counter and flag and a NOISE_STATE notice (R140, R141, R143, R144, R147). -/
def Obligations.FrameEndDropsWithTheFirstCause : Prop :=
  ∀ (s : State) (p : Port) (f : RxFrame) (start : Stamp) (cause : Cause), Awake s → s.ports[p].receiving = some start →
    (if f.symbolError then some Cause.symbol else if f.fcsOk = false then some .fcs
     else if f.bytes.length < 64 then some .runt else if 1522 < f.bytes.length then some .oversize
     else if s.ports[p].ingressEnable = false then some .ingressOff
     else if filterPasses s.ports[p] f = false then some .filtered else none) = some cause →
    ∃ t, exec (.frameEnd p f) s = .next t ∧ t.ports[p].receiving = none ∧
      (∀ i : Fin 21, i.val ≤ 18 → t.ports[p].counters[i] =
        if i.val = cause.code.val + 1 then satInc s.ports[p].counters[i] else s.ports[p].counters[i]) ∧
      t.deviceCounters = Table.upd s.deviceCounters ⟨cause.code.val, by omega⟩ satInc ∧
      (cause = .filtered →
        t.ports[p].flags.getLsbD 5 = (s.ports[p].flags.getLsbD 5 || s.ports[p].flagMask.getLsbD 5)) ∧
      ((cause = .symbol ∨ cause = .fcs ∨ cause = .runt) →
        let m := s.noise[p]
        let c := min 65535 (m.count + 1)
        t.noise[p] =
          (match m.state with
           | .clean =>
             if s.ports[p].thetaD ≤ c then ⟨.disturbed, c, 0, 0, m.checked⟩
             else if s.ports[p].thetaW ≤ c then ⟨.watch, c, 0, 0, m.checked⟩
             else { m with count := c }
           | .watch =>
             if s.ports[p].thetaD ≤ c then ⟨.disturbed, c, 0, 0, m.checked⟩
             else { m with count := c, calm := if s.ports[p].thetaW ≤ c then 0 else m.calm }
           | .disturbed => { m with count := c, quiet := 0 }) ∧
        (let entered := t.noise[p].state = .disturbed ∧ m.state ≠ .disturbed
         (entered → t.ports[p].counters[19] = satInc s.ports[p].counters[19] ∧
           t.ports[p].flags.getLsbD 2 = (s.ports[p].flags.getLsbD 2 || s.ports[p].flagMask.getLsbD 2)) ∧
         (¬entered → t.ports[p].counters[19] = s.ports[p].counters[19] ∧ t.ports[p].flags = s.ports[p].flags)) ∧
        (t.noise[p].state ≠ m.state → s.mgmt.sources[p.val + 1].number ≠ 0 →
          ∃ n ∈ t.mgmt.sources[p.val + 1].pending, n.cycle = s.timer.cycle ∧
            n.data = .noiseState p t.noise[p].state m.state .faultCount c s.phase)) ∧
      ((cause = .oversize ∨ cause = .ingressOff ∨ cause = .filtered) → t.noise = s.noise) ∧
      (∀ e : Port, e ≠ p → t.ports[e] = s.ports[e] ∧ t.noise[e] = s.noise[e]) ∧
      { t with ports := s.ports, deviceCounters := s.deviceCounters, noise := s.noise, fault := s.fault,
               mgmt := s.mgmt } = s

/-! ### Best effort and the address table (chapter 7) -/

/-- FRAME_END of a good frame that takes the best-effort path, no stream of its key being ACTIVE (R52), and the address
table (R126, R127, R128): a group source changes nothing; an individual source that no entry holds is learned at the lowest
free position with its port and age 0, and counted, or, the table being full, is a LEARN_FULL with its notice; the LEARNED
entry of the source takes the port and age 0, a change of port being counted as a move; a STATIC entry stands, a frame
from another port being counted. -/
def Obligations.GoodFrameIsLearned : Prop :=
  ∀ (s : State) (p : Port) (f : RxFrame) (start : Stamp), FrameIsGood s p f start → AddrOk s.addr.entries →
    (∀ (n : StreamNo) (x : Stream), s.streams[n] = some x → x.desc.key = ⟨p, frameDest f, frameVlan f⟩ →
      x.stage ≠ .active) →
    let group := (frameSource f).getLsbD 40
    let unknown := ∀ x ∈ s.addr.entries, ¬(x.mac = frameSource f ∧ x.vlan = frameVlan f)
    ∃ t : State, exec (.frameEnd p f) s = .next t ∧ t.ports[p].receiving = none ∧
      t.ports[p].counters[0] = satInc s.ports[p].counters[0] ∧
      { t.addr with entries := s.addr.entries } = s.addr ∧ t.timer = s.timer ∧ t.engine = s.engine ∧
      (group = true → t.addr = s.addr) ∧
      (group = false → unknown → s.addr.entries.length < 1024 →
        ∃ pos : Nat, pos < 1024 ∧ (∀ x ∈ s.addr.entries, x.pos ≠ pos) ∧ (∀ i < pos, ∃ x ∈ s.addr.entries, x.pos = i) ∧
          (∀ x : AddrEntry, x ∈ t.addr.entries ↔
            x ∈ s.addr.entries ∨ x = ⟨pos, frameSource f, frameVlan f, p, .learned, 0⟩) ∧
          t.deviceCounters[22] = satInc s.deviceCounters[22]) ∧
      (group = false → unknown → 1024 ≤ s.addr.entries.length →
        t.addr = s.addr ∧ t.deviceCounters[21] = satInc s.deviceCounters[21] ∧
        (s.mgmt.sources[p.val + 1].number ≠ 0 → ∃ n ∈ t.mgmt.sources[p.val + 1].pending,
          n.cycle = s.timer.cycle ∧ n.data = .learnFull p (frameSource f) (frameVlan f))) ∧
      (∀ x ∈ s.addr.entries, group = false → x.mac = frameSource f → x.vlan = frameVlan f →
        (x.kind = .learned →
          t.addr.entries = s.addr.entries.map (fun y => if y.pos = x.pos then { y with port := p, age := 0 } else y) ∧
          t.deviceCounters[23] = if x.port = p then s.deviceCounters[23] else satInc s.deviceCounters[23]) ∧
        (x.kind = .static → t.addr = s.addr ∧
          t.deviceCounters[24] = if x.port = p then s.deviceCounters[24] else satInc s.deviceCounters[24]))

/-- FRAME_END of a good frame that takes the best-effort path, no stream of its key being ACTIVE (R52; R125, R129, R136, R137,
R138). The destination is looked up once the source is learned (R127): a known individual destination gives one target, on
the ingress port itself the SAME_PORT drop; a group address or an unknown destination floods to every other port. A target that is
DOWN takes a LINK_DOWN drop. The frame is stored once, with a reference for each target that is UP and has room within its limit,
and joins its class queue there; a target that is UP without room counts NO_BUFFER. Refused everywhere, it is a NO_BUFFER of the
ingress, unless every target is DOWN. An egress that a stored frame joins chooses (R137): where nothing that waits may start
nothing does, the frame itself being not yet ready; where an older frame may, that one starts. (What learning does to the table
and its counters: the statement on it. A choice that would drop a STALE or LATE frame first is left out here.) -/
def Obligations.BestEffortFramesGoToTheirTargets : Prop :=
  ∀ (s : State) (p : Port) (f : RxFrame) (start : Stamp), FrameIsGood s p f start → AddrOk s.addr.entries →
    CellsOk s.buffer →
    (∀ (n : StreamNo) (x : Stream), s.streams[n] = some x → x.desc.key = ⟨p, frameDest f, frameVlan f⟩ →
      x.stage ≠ .active) →
    let group (a : Mac) : Bool := a.getLsbD 40
    let cells := (f.bytes.length + 127) / 128
    let cls := frameClass f s.ports[p].defaultClass
    let stored (refs : Nat) : FrameRecord :=
      { id := s.buffer.nextId, pool := .bestEffort, cells := cells, refs := refs, len := f.bytes.length, ingress := p
        ingressStart := start, received := s.timer.grain, stream := none, cls := some cls, orphan := false
        bytes := f.bytes }
    let known (target : Port) : Prop := group (frameDest f) = false ∧
      ((∃ x ∈ s.addr.entries, x.mac = frameDest f ∧ x.vlan = frameVlan f ∧
          target = if frameDest f = frameSource f ∧ x.kind = .learned then p else x.port) ∨
       ((∀ x ∈ s.addr.entries, ¬(x.mac = frameDest f ∧ x.vlan = frameVlan f)) ∧ frameDest f = frameSource f ∧
          s.addr.entries.length < 1024 ∧ target = p))
    let starts (t : State) (e : Port) (c : ClassNo) (rest : List FrameId) : Prop :=
      t.egress[e].queues = Table.upd (Table.upd s.egress[e].queues c fun _ => rest) cls (· ++ [s.buffer.nextId])
    let joined (t : State) (e : Port) : Prop :=
      t.egress[e].beCount = s.egress[e].beCount + cells ∧
      (Settled s e → t.egress[e] = { s.egress[e] with
        queues := Table.upd s.egress[e].queues cls (· ++ [s.buffer.nextId]), beCount := s.egress[e].beCount + cells }) ∧
      (∀ c r rest v, s.ports[e].hold = false → BestEffortStart s e c r rest v →
        t.egress[e].wire = some ⟨r.id, s.timer.grain, .bestEffort⟩ ∧ starts t e c rest) ∧
      (∀ o x l r rest v, s.ports[e].hold = false → MotionStart s e o x l r rest v →
        t.egress[e].wire = some ⟨r.id, s.timer.grain, .motion o.window.stream (x.desc.twin != .off)⟩ ∧
        t.slotOf o.window.stream e = rest ∧
        t.egress[e].queues = Table.upd s.egress[e].queues cls (· ++ [s.buffer.nextId]))
    let noDrop (e : Port) : Prop := Settled s e ∨ (∃ c r rest v, BestEffortStart s e c r rest v) ∨
      ∃ o x l r rest v, MotionStart s e o x l r rest v
    let reported (t : State) (k : Fin 28 → Nat) : Prop := ∀ i : Fin 28,
      (group (frameSource f) = true ∨ i.val < 21 ∨ 24 < i.val) → t.deviceCounters[i] = satAdd s.deviceCounters[i] (k i)
    let unlearned (t : State) : Prop := group (frameSource f) = true → t.addr = s.addr
    (∀ target : Port, known target →
      (target = p → ∃ t, exec (.frameEnd p f) s = .next t ∧ t.buffer = s.buffer ∧ t.egress = s.egress ∧
        t.ports[p].counters[9] = satInc s.ports[p].counters[9] ∧ reported t fun i => if i = 16 then 1 else 0) ∧
      (target ≠ p → s.ports[target].link = .down → ∃ t, exec (.frameEnd p f) s = .next t ∧ t.buffer = s.buffer ∧
        t.egress = s.egress ∧ t.ports[target].counters[16] = satInc s.ports[target].counters[16] ∧
        reported t fun i => if i = 11 then 1 else 0) ∧
      (target ≠ p → s.ports[target].link ≠ .down →
        (s.ports[target].beLimit < s.egress[target].beCount + cells ∨ s.buffer.beFree < cells) →
        ∃ t, exec (.frameEnd p f) s = .next t ∧ t.buffer = s.buffer ∧ t.egress = s.egress ∧
          t.ports[p].counters[8] = satInc s.ports[p].counters[8] ∧ reported t fun i => if i = 7 then 1 else 0) ∧
      (target ≠ p → s.ports[target].link ≠ .down → s.egress[target].beCount + cells ≤ s.ports[target].beLimit →
        cells ≤ s.buffer.beFree → noDrop target →
        ∃ t, exec (.frameEnd p f) s = .next t ∧ t.frame s.buffer.nextId = some (stored 1) ∧
          t.buffer.beFree = s.buffer.beFree - cells ∧ t.buffer.motionFree = s.buffer.motionFree ∧ joined t target ∧
          (∀ e : Port, e ≠ target → t.egress[e] = s.egress[e]) ∧ unlearned t ∧ reported t fun _ => 0)) ∧
    ((∀ target : Port, ¬known target) →
      let others : List Port := [0, 1, 2, 3, 4, 5, 6, 7].filter fun e => e ≠ p
      let down (e : Port) : Bool := s.ports[e].link == .down
      let takes (e : Port) : Bool :=
        !down e && decide (s.egress[e].beCount + cells ≤ s.ports[e].beLimit ∧ cells ≤ s.buffer.beFree)
      let counted (t : State) (e : Port) : Prop :=
        (down e = true → t.ports[e].counters[16] = satInc s.ports[e].counters[16]) ∧ t.egress[e] = s.egress[e]
      ((∃ e ∈ others, takes e = true) → (∀ e ∈ others, takes e = true → noDrop e) →
        ∃ t, exec (.frameEnd p f) s = .next t ∧ t.frame s.buffer.nextId = some (stored (others.countP takes)) ∧
          t.buffer.beFree = s.buffer.beFree - cells ∧ t.buffer.motionFree = s.buffer.motionFree ∧
          (∀ e ∈ others, (takes e = true → joined t e) ∧ (takes e = false → counted t e) ∧
            (takes e = false → down e = false → t.ports[e].counters[15] = satInc s.ports[e].counters[15])) ∧
          t.egress[p] = s.egress[p] ∧ unlearned t ∧
          reported t fun i =>
            if i = 7 then others.countP (fun e => !takes e && !down e) else if i = 11 then others.countP down else 0) ∧
      ((∀ e ∈ others, takes e = false) →
        ∃ t, exec (.frameEnd p f) s = .next t ∧ t.buffer = s.buffer ∧ unlearned t ∧ t.egress = s.egress ∧
          (∀ e ∈ others, counted t e) ∧
          (let refused := if others.all down then 0 else 1
           t.ports[p].counters[8] = satAdd s.ports[p].counters[8] refused ∧
           reported t fun i => if i = 7 then refused else if i = 11 then others.countP down else 0)))

/-- ADDR_ADD_STATIC (R132): the checks in their order, FULL, a new STATIC entry at the lowest free position, or the
entry of the key replaced in place. -/
def Obligations.AddrAddStaticInsertsOrReplaces : Prop :=
  ∀ (s : State) (q : Request) (rest : List Request), Offers s q rest → AddrOk s.addr.entries → q.kind = 0x12 →
    q.payload.length = 9 →
    let mac : Mac := BitVec.ofNat 48 (q.field 0 6)
    let vlan := if q.field 6 2 = 0 then none else some (q.field 6 2)
    (8 ≤ q.b 8 → exec .addrAddStatic s = .next (replied q rest (.badField 8) s)) ∧
    (q.b 8 < 8 → 4095 < q.field 6 2 → exec .addrAddStatic s = .next (replied q rest (.badField 6) s)) ∧
    (q.b 8 < 8 → q.field 6 2 ≤ 4095 → mac.getLsbD 40 = true →
      exec .addrAddStatic s = .next (replied q rest (.badField 0) s)) ∧
    (∀ p : Port, q.b 8 = p.val → q.field 6 2 ≤ 4095 → mac.getLsbD 40 = false →
      ((∀ x ∈ s.addr.entries, ¬(x.mac = mac ∧ x.vlan = vlan)) → 1024 ≤ s.addr.entries.length →
        exec .addrAddStatic s = .next (replied q rest (.plain .full) s)) ∧
      ((∀ x ∈ s.addr.entries, ¬(x.mac = mac ∧ x.vlan = vlan)) → s.addr.entries.length < 1024 →
        ∃ (t : State) (pos : Nat), exec .addrAddStatic s = .next t ∧ (∀ i < pos, ∃ x ∈ s.addr.entries, x.pos = i) ∧
          (∀ x ∈ s.addr.entries, x.pos ≠ pos) ∧
          (∀ x : AddrEntry, x ∈ t.addr.entries ↔ x ∈ s.addr.entries ∨ x = ⟨pos, mac, vlan, p, .static, 0⟩) ∧
          t.mgmt.outbound = s.mgmt.outbound ++ [⟨s.mgmt.serial, .reply 0x92 q.tag (.addrAdded pos p none)⟩] ∧
          { t with addr := s.addr, mgmt := s.mgmt } = s) ∧
      (∀ x ∈ s.addr.entries, x.mac = mac → x.vlan = vlan →
        exec .addrAddStatic s = .next (replied q rest (.addrAdded x.pos p (some x.kind))
          { s with addr := { s.addr with entries := s.addr.entries.map fun y =>
            if y.pos = x.pos then
              { y with kind := .static, port := p, age := if x.kind = .learned then 0 else x.age }
            else y } })))

/-- ADDR_REMOVE (R133) and ADDR_FLUSH (R134). (ADDR_REMOVE's address and VLAN, and ADDR_FLUSH's scope, in this order:
log entry 9.) -/
def Obligations.AddrRemoveAndFlush : Prop :=
  (∀ (s : State) (q : Request) (rest : List Request), Offers s q rest → AddrOk s.addr.entries → q.kind = 0x13 →
    q.payload.length = 8 →
    let mac : Mac := BitVec.ofNat 48 (q.field 0 6)
    let vlan := if q.field 6 2 = 0 then none else some (q.field 6 2)
    (4095 < q.field 6 2 → exec .addrRemove s = .next (replied q rest (.badField 6) s)) ∧
    (q.field 6 2 ≤ 4095 → (∀ x ∈ s.addr.entries, ¬(x.mac = mac ∧ x.vlan = vlan)) →
      exec .addrRemove s = .next (replied q rest (.plain .noSuch) s)) ∧
    (q.field 6 2 ≤ 4095 → ∀ x ∈ s.addr.entries, x.mac = mac → x.vlan = vlan →
      exec .addrRemove s = .next (replied q rest (.addrRemoved x.pos x.port x.kind)
        { s with addr := { s.addr with entries := s.addr.entries.filter (· ≠ x) } }))) ∧
  (∀ (s : State) (q : Request) (rest : List Request), Offers s q rest → q.kind = 0x15 → q.payload.length = 1 →
    let left := if q.b 0 = 0 then s.addr.entries.filter (fun x => x.kind ≠ .learned) else []
    exec .addrFlush s = .next (
      if 1 < q.b 0 then replied q rest (.badField 0) s
      else replied q rest (.addrFlushed (s.addr.entries.length - left.length) left.length)
        { s with addr := { s.addr with entries := left } }))

/-- SET_AGING (R131): the interval, clamped to 65,535, takes effect and the aging count returns to 0; entries keep
their ages. AGING_SWEEP (R130): when the aging count reaches A at the cycle start that is due, every LEARNED entry of
age 3 is removed and counted, every other LEARNED entry is one older, STATIC entries stand, and the count returns to
0. CYCLE_START (R130): with A = 0 the count returns to 0; below A it rises by one and no entry changes; reaching A, a
sweep is made, unless it has been made already for this cycle start. (SET_AGING's four bytes are A: log entry 9; the
sweep apart from CYCLE_START, and its mark: log entry 5.) -/
def Obligations.AgingOfTheAddressTable : Prop :=
  (∀ (s : State) (q : Request) (rest : List Request), Offers s q rest → q.kind = 0x16 → q.payload.length = 4 →
     exec .setAging s = .next (replied q rest (.agingSet (min 65535 (q.field 0 4)))
       { s with addr := { s.addr with interval := min 65535 (q.field 0 4), count := 0 } })) ∧
  (∀ s : State, Awake s → s.timer.endE ≤ s.phase →
     let reached := 0 < s.addr.interval ∧ s.addr.interval ≤ s.addr.count + 1
     let swept (t : State) : Prop := t.addr.count = 0 ∧ t.addr.interval = s.addr.interval ∧
       t.addr.entries = s.addr.entries.filterMap (fun x =>
         if x.kind = .static then some x else if x.age = 3 then none else some { x with age := x.age + 1 }) ∧
       t.deviceCounters[25] =
         satAdd s.deviceCounters[25] (s.addr.entries.filter fun x => x.kind = .learned ∧ x.age = 3).length
     (s.addr.swept = false → reached → AddrOk s.addr.entries →
       ∃ t, exec .agingSweep s = .next t ∧ swept t ∧
         (∀ i : Fin 28, i ≠ 25 → t.deviceCounters[i] = s.deviceCounters[i]) ∧
         { t with addr := s.addr, deviceCounters := s.deviceCounters } = s) ∧
     (∃ t, exec .cycleStart s = .next t ∧ t.addr.swept = false ∧
       (s.addr.swept = true → { t.addr with swept := true } = s.addr) ∧
       (s.addr.swept = false → s.addr.interval = 0 → t.addr = { s.addr with count := 0 }) ∧
       (s.addr.swept = false → s.addr.count + 1 < s.addr.interval →
         t.addr = { s.addr with count := s.addr.count + 1 }) ∧
       (s.addr.swept = false → reached → AddrOk s.addr.entries → swept t)))

/-! ### Reservation arithmetic (chapter 4) -/

/-- The search of a leg finds the least start of R66 between the earliest start and the latest end, and finds none
exactly when there is none; so the order of the view's windows does not matter (R66, R67). A leg step makes its checks
in the order of R74: table (R72), ceiling (R73), feasibility (R65), primary search (R66), and for a twinned leg the
twin search (R69, R70), with the bounds of R62, R63 and R64. -/
def Obligations.LegStepFindsTheLeastStart : Prop :=
  (∀ (view : List Window) (period r w d e : Nat),
     (∀ s, firstFit view period r w d (d + 1) e = some s ↔
       (e ≤ s ∧ s + w ≤ d ∧ freeAt view period r w s ∧
         ∀ s', e ≤ s' → s' + w ≤ d → freeAt view period r w s' → s ≤ s')) ∧
     (firstFit view period r w d (d + 1) e = none ↔ ∀ s, e ≤ s → s + w ≤ d → ¬freeAt view period r w s) ∧
     (∀ view', view'.Perm view → firstFit view' period r w d (d + 1) e = firstFit view period r w d (d + 1) e)) ∧
  (∀ (i : LegInputs) (view : List Window),
     let period := i.m / i.repeats
     let w := i.k * (i.lmax + 20) * i.ge + i.mu
     let e := i.rho + (i.lmax + 8) * i.gi + 120 + (i.k - 1) * (i.lmax + 20) * (i.gi - i.ge)
     let d := min (i.rho + i.bound) (period - 64)
     let count := if i.twinned then 2 * i.repeats else i.repeats
     let reserved := (view.map fun x => x.stop - x.start).sum
     let fits (from' s : Nat) : Prop := from' ≤ s ∧ s + w ≤ d ∧ freeAt view period i.repeats w s
     (256 < view.length + count → legSearch i view = .refused .tableFull) ∧
     (view.length + count ≤ 256 → i.m * i.kappa / 100 < reserved + count * w → legSearch i view = .refused .ceiling) ∧
     (view.length + count ≤ 256 → reserved + count * w ≤ i.m * i.kappa / 100 →
       (d < e + w → legSearch i view = .refused .infeasible) ∧
       (e + w ≤ d → (∀ s, ¬fits e s) → legSearch i view = .refused .noRoom) ∧
       (∀ s, fits e s → (∀ s', fits e s' → s ≤ s') →
         (i.twinned = false → legSearch i view = .placed ⟨s, none, w⟩) ∧
         (i.twinned = true → (∀ s2, ¬fits (s + w + i.tau) s2) → legSearch i view = .refused .noRoom) ∧
         (∀ s2, i.twinned = true → fits (s + w + i.tau) s2 → (∀ s', fits (s + w + i.tau) s' → s2 ≤ s') →
           legSearch i view = .placed ⟨s, some s2, w⟩))))

/-! ### Motion streams and the reservation engine (chapters 3 and 5) -/

/-- PLACE (R40, R82): the refusals in their order, each changing nothing but the queues. -/
def Obligations.PlaceRefusesInOrder : Prop :=
  ∀ (s : State) (q : Request) (rest : List Request), Offers s q rest → q.kind = 0x0D → q.payload.length = 26 →
    (128 ≤ q.b 0 → exec .place s = .next (replied q rest (.badField 0) s)) ∧
    (∀ n : StreamNo, q.b 0 = n.val → s.streams[n] ≠ none → exec .place s = .next (replied q rest (.plain .exists) s)) ∧
    (∀ n : StreamNo, q.b 0 = n.val → s.streams[n] = none →
      let vlan := if q.field 8 2 = 0 then none else some (q.field 8 2)
      let held := ∃ (i : StreamNo) (x : Stream), s.streams[i] = some x ∧ x.desc.key.ingress.val = q.b 1 ∧
        x.desc.key.dest = BitVec.ofNat 48 (q.field 2 6) ∧ x.desc.key.vlan = vlan
      let set : BitVec 8 := BitVec.ofNat 8 (q.b 10)
      let m := s.timer.nextN.getD s.timer.n * 1000
      let r := q.b 11
      (held → exec .place s = .next (replied q rest (.plain .exists) s)) ∧
      (¬held → 8 ≤ q.b 1 → exec .place s = .next (replied q rest (.badField 1) s)) ∧
      (∀ p : Port, ¬held → q.b 1 = p.val →
        (set = 0 ∨ set.getLsbD p.val = true → exec .place s = .next (replied q rest (.badField 10) s)) ∧
        (set ≠ 0 → set.getLsbD p.val = false →
          (4095 < q.field 8 2 → exec .place s = .next (replied q rest (.badField 8) s)) ∧
          (q.field 8 2 ≤ 4095 → r ∉ [1, 2, 4, 8] → exec .place s = .next (replied q rest (.badField 11) s)) ∧
          (q.field 8 2 ≤ 4095 → r ∈ [1, 2, 4, 8] →
            (m / r ≤ q.field 12 4 → exec .place s = .next (replied q rest (.badField 12) s)) ∧
            (q.field 12 4 < m / r → (q.b 22 = 0 ∨ 4 < q.b 22) →
              exec .place s = .next (replied q rest (.badField 22) s)) ∧
            (q.field 12 4 < m / r → 1 ≤ q.b 22 → q.b 22 ≤ 4 →
              (1 < q.b 23 → exec .place s = .next (replied q rest (.badField 23) s)) ∧
              (q.b 23 ≤ 1 → 2 < q.b 24 → exec .place s = .next (replied q rest (.badField 24) s)) ∧
              (q.b 23 ≤ 1 → q.b 24 ≤ 2 → s.engine.locked = true →
                exec .place s = .next (replied q rest (.plain .locked) s)) ∧
              (q.b 23 ≤ 1 → q.b 24 ≤ 2 → s.engine.locked = false → 8 ≤ s.engine.used →
                exec .place s = .next (replied q rest (.plain .busy) s)))))))

/-- An accepted PLACE (R41, R42, R47, R82): the stream takes its description with Λ, Lmax and handling adjusted and a
new leg for each port of its egress set, its op waits at the back of the host queue and the stream is QUEUED, with no
reply; a free engine with nothing before it takes the op at once, and the stream is SEARCHING (R85, R87). (An op that the
pool check refuses has its verdict at once and stays SEARCHING until PLACE_OP_END: log entry 20.) -/
def Obligations.PlaceQueuesTheStream : Prop :=
  ∀ (s : State) (q : Request) (rest : List Request) (n : StreamNo) (p : Port) (h : Handling) (tw : Twin), Offers s q rest →
    q.kind = 0x0D → q.payload.length = 26 → q.b 0 = n.val → q.b 1 = p.val → s.streams[n] = none →
    let vlan := if q.field 8 2 = 0 then none else some (q.field 8 2)
    let set : BitVec 8 := BitVec.ofNat 8 (q.b 10)
    let m := s.timer.nextN.getD s.timer.n * 1000
    (∀ (i : StreamNo) (x : Stream), s.streams[i] = some x → x.desc.key ≠ ⟨p, BitVec.ofNat 48 (q.field 2 6), vlan⟩) →
    set ≠ 0 → set.getLsbD p.val = false → q.field 8 2 ≤ 4095 → q.b 11 ∈ [1, 2, 4, 8] → q.field 12 4 < m / q.b 11 →
    1 ≤ q.b 22 → q.b 22 ≤ 4 → q.b 23 = (match h with | .latest => 0 | .sequenced => 1) →
    q.b 24 = (match tw with | .off => 0 | .armed => 1 | .always => 2) → s.engine.locked = false → s.engine.used < 8 →
    let lmax := max 64 (min 1522 (q.field 20 2))
    let d : Desc :=
      { key := ⟨p, BitVec.ofNat 48 (q.field 2 6), vlan⟩, egressSet := set, repeats := q.b 11, rho := q.field 12 4
        bound := max 1 (min 1000000 (q.field 16 4)), lmax := lmax, k := q.b 22
        handling := if 1 < q.b 22 then .sequenced else h, twin := tw, missLimit := q.b 25 }
    let ports := ([0, 1, 2, 3, 4, 5, 6, 7] : List Port).filter fun e => set.getLsbD e.val
    let legs := ports.map fun e => (⟨e, none, none, none, [], [], 0, false⟩ : Leg)
    let cells := 2 * q.b 22 * ((lmax + 127) / 128)
    (s.engine.current ≠ none → exec .place s = .next { s with
      streams := Table.upd s.streams n fun _ => some ⟨.queued, d, 0, none, false, legs⟩
      engine := { s.engine with waiting := s.engine.waiting ++ [⟨q.tag, .place n⟩] }
      mgmt := { s.mgmt with inbound := rest } }) ∧
    (s.engine.current = none → NothingWaits s →
      ∃ t, exec .place s = .next t ∧ t.streams[n] = some ⟨.searching, d, 0, none, false, legs⟩ ∧
        (∀ i : StreamNo, i ≠ n → t.streams[i] = s.streams[i]) ∧ t.engine.waiting = [] ∧
        t.engine.current = some (.place
          { tag := q.tag, stream := n, planM := m, speeds := s.ports.map (·.planned), todo := ports, held := []
            verdict := if 512 < s.engine.pool + cells then some ⟨none, none, cells, s.engine.pool, 0⟩ else none }) ∧
        t.engine.timelines = s.engine.timelines ∧ t.engine.pool = s.engine.pool ∧ t.mgmt.inbound = rest ∧
        t.mgmt.outbound = s.mgmt.outbound ∧ { t with streams := s.streams, engine := s.engine, mgmt := s.mgmt } = s)

/-- RELEASE by the state of the stream and the lock (R83). The release of a SEARCHING stream abandons the current op, and the
engine takes what waits next: a posted repair, the lowest port and the egress repair first, one that finds no stream being
passed over, before the op at the front of the host queue (R85); whatever waits, the stream is FREE, its PLACE is replied
CANCELLED through the finished-reply list, and the RELEASE is replied OK. A repair that is the current operation forgets a PLACED stream that is released (R90). (The payload's byte
is the stream number: log entry 9.) -/
def Obligations.ReleaseActsByTheStreamState : Prop :=
  ∀ (s : State) (q : Request) (rest : List Request), Offers s q rest → q.kind = 0x0E → q.payload.length = 1 →
    (128 ≤ q.b 0 → exec .release s = .next (replied q rest (.badField 0) s)) ∧
    (∀ n : StreamNo, q.b 0 = n.val →
      (s.streams[n] = none → exec .release s = .next (replied q rest (.plain .noSuch) s)) ∧
      (∀ x : Stream, s.streams[n] = some x →
        (x.stage = .releasing → exec .release s = .next (replied q rest (.plain .state) s)) ∧
        (x.stage ≠ .releasing → s.engine.locked = true → exec .release s = .next (replied q rest (.plain .locked) s)) ∧
        (s.engine.locked = false →
          (∀ tag before after, x.stage = .queued → s.engine.waiting = before ++ ⟨tag, .place n⟩ :: after →
            (∀ y ∈ before ++ after, y.op ≠ .place n) →
            exec .release s = .next (replied q rest (.plain .ok) { s with
              streams := Table.upd s.streams n fun _ => none
              engine := { s.engine with
                waiting := before ++ after, finished := [⟨0x8D, tag, .plain .cancelled⟩] } })) ∧
          (∀ r : PlaceRun, x.stage = .searching → s.engine.current = some (.place r) → NothingWaits s →
            exec .release s = .next (replied q rest (.plain .ok) { s with
              streams := Table.upd s.streams n fun _ => none
              engine := { s.engine with current := none, finished := [⟨0x8D, r.tag, .plain .cancelled⟩] } })) ∧
          (∀ r : PlaceRun, x.stage = .searching → s.engine.current = some (.place r) →
            let run (kind : RepairKind) (p : Port) : RepairRun :=
              { kind := kind, port := p, planM := s.timer.nextN.getD s.timer.n * 1000, speeds := s.ports.map (·.planned)
                nextStream := 0, within := none, aside := [], results := [], examined := false }
            let abandoned (g : Engine) : State := replied q rest (.plain .ok) { s with
              streams := Table.upd s.streams n fun _ => none
              engine := { g with finished := [⟨0x8D, r.tag, .plain .cancelled⟩], mark := s.timer.grain } }
            let left : State := { s with streams := Table.upd s.streams n fun _ => none }
            let free (upTo : Nat) : Prop := ∀ e : Port, e.val < upTo →
              s.engine.egressRepairs[e] = false ∧ s.engine.ingressRepairs[e] = false
            (∃ t, exec .release s = .next t ∧ t.streams[n] = none ∧
              t.engine.finished = [⟨0x8D, r.tag, .plain .cancelled⟩] ∧ t.egress = s.egress ∧ t.mgmt.inbound = rest ∧
              t.mgmt.outbound = s.mgmt.outbound ++ [⟨s.mgmt.serial, .reply 0x8E q.tag (.plain .ok)⟩] ∧
              (s.engine.waiting = [] →
                (∀ p : Port, (s.engine.egressRepairs[p] = true → left.repairNext (run .egress p) = none) ∧
                  (s.engine.ingressRepairs[p] = true → left.repairNext (run .ingress p) = none)) →
                t.engine.current = none ∧
                  ∀ p : Port, t.engine.egressRepairs[p] = false ∧ t.engine.ingressRepairs[p] = false) ∧
              (∀ tag m later, free 8 → s.engine.waiting = ⟨tag, .release m⟩ :: later → ∃ more,
                t.engine.deferred = s.engine.deferred ++ ⟨tag, .release m⟩ :: more ∧ t.engine.commitDue = true)) ∧
            (∀ p : Port, free p.val → s.engine.egressRepairs[p] = true → left.repairNext (run .egress p) ≠ none →
              exec .release s = .next (abandoned { s.engine with
                current := some (.repair (run .egress p))
                egressRepairs := Table.upd s.engine.egressRepairs p fun _ => false })) ∧
            (∀ p : Port, free p.val → s.engine.egressRepairs[p] = false → s.engine.ingressRepairs[p] = true →
              left.repairNext (run .ingress p) ≠ none →
              exec .release s = .next (abandoned { s.engine with
                current := some (.repair (run .ingress p))
                ingressRepairs := Table.upd s.engine.ingressRepairs p fun _ => false })) ∧
            (∀ tag m y later, free 8 → s.engine.waiting = ⟨tag, .place m⟩ :: later → m ≠ n → s.streams[m] = some y →
              ∃ t run, exec .release s = .next t ∧ t.engine.current = some (.place run) ∧ run.tag = tag ∧ run.stream = m ∧
                run.todo = y.legs.map (·.egress) ∧ run.held = [] ∧ t.streams[n] = none ∧
                t.streams[m] = some { y with stage := .searching } ∧ t.engine.waiting = later ∧
                t.engine.finished = [⟨0x8D, r.tag, .plain .cancelled⟩] ∧ t.engine.timelines = s.engine.timelines ∧
                t.engine.pool = s.engine.pool) ∧
            (∀ tag m y, free 8 → s.engine.waiting = [⟨tag, .release m⟩] → m ≠ n → s.streams[m] = some y →
              ∃ t, exec .release s = .next t ∧ t.engine.current = none ∧ t.streams[n] = none ∧
                (t.streams[m].map (·.stage)) = some .releasing ∧ t.engine.waiting = [] ∧
                t.engine.deferred = s.engine.deferred ++ [⟨tag, .release m⟩] ∧ t.engine.commitDue = true ∧
                (∀ e : Port, t.engine.timelines[e] = s.engine.timelines[e].filter (·.stream ≠ m)) ∧
                t.engine.finished = [⟨0x8D, r.tag, .plain .cancelled⟩])) ∧
          (∀ tag before after, x.stage = .placed → s.engine.deferred = before ++ ⟨tag, .place n⟩ :: after →
            (∀ y ∈ before ++ after, y.op ≠ .place n) →
            ∃ t, exec .release s = .next t ∧ t.streams = (Table.upd s.streams n fun _ => none) ∧
              (∀ e : Port, t.engine.timelines[e] = s.engine.timelines[e].filter (·.stream ≠ n)) ∧
              t.engine.pool = s.engine.pool - 2 * x.desc.k * ((x.desc.lmax + 127) / 128) ∧
              t.engine.deferred = before ++ after ∧ t.engine.finished = [⟨0x8D, tag, .plain .cancelled⟩] ∧
              t.engine.commitDue = s.engine.commitDue ∧ t.engine.waiting = s.engine.waiting ∧
              (∀ r : RepairRun, s.engine.current = some (.repair r) → ∃ r', t.engine.current = some (.repair r') ∧
                r' = { r with
                  within := if r.within.any (fun z => z.1 = n) then none else r.within
                  aside := r.aside.filter fun z => z.1 ≠ n
                  results := r.results.filter fun z => z.1 ≠ n }) ∧
              ((∀ r : RepairRun, s.engine.current ≠ some (.repair r)) → t.engine.current = s.engine.current) ∧
              t.egress = s.egress ∧ t.mgmt.inbound = rest ∧
              t.mgmt.outbound = s.mgmt.outbound ++ [⟨s.mgmt.serial, .reply 0x8E q.tag (.plain .ok)⟩]) ∧
          (x.stage = .active → x.releaseQueued = true →
            exec .release s = .next (replied q rest (.plain .state) s)) ∧
          (x.stage = .active → x.releaseQueued = false → 8 ≤ s.engine.used →
            exec .release s = .next (replied q rest (.plain .busy) s)) ∧
          (x.stage = .active → x.releaseQueued = false → s.engine.used < 8 → s.engine.current ≠ none →
            exec .release s = .next { s with
              streams := Table.upd s.streams n fun _ => some { x with releaseQueued := true }
              engine := { s.engine with waiting := s.engine.waiting ++ [⟨q.tag, .release n⟩] }
              mgmt := { s.mgmt with inbound := rest } }) ∧
          (x.stage = .active → x.releaseQueued = false → s.engine.used < 8 → s.engine.current = none →
            NothingWaits s →
            ∃ t, exec .release s = .next t ∧
              t.streams[n] = some { x with
                stage := .releasing, releaseQueued := false, legs := x.legs.map fun l => { l with pendingPl := none } } ∧
              (∀ e : Port, t.engine.timelines[e] = s.engine.timelines[e].filter (·.stream ≠ n)) ∧
              t.engine.pool = s.engine.pool - 2 * x.desc.k * ((x.desc.lmax + 127) / 128) ∧
              t.engine.deferred = s.engine.deferred ++ [⟨q.tag, .release n⟩] ∧ t.engine.commitDue = true ∧
              t.engine.waiting = [] ∧ t.egress = s.egress ∧ t.mgmt.inbound = rest ∧
              t.mgmt.outbound = s.mgmt.outbound))))

/-- The production lock is cleared by the release of RESET_N and by nothing else (R96): every other step from a locked
state leads to a locked state. -/
def Obligations.OnlyResetNClearsTheLock : Prop :=
  ∀ s t : State, s.engine.locked = true → step s = .next t →
    t.engine.locked = true ∨ ∃ high rest, s.pending = .resetN high :: rest

/-- LEG_STEP of a PLACE op (R60, R74, R75, R77): the next egress of the op's list takes its leg step against
the pending timeline, with the speeds and planning length of the op's start and the egress's present margin,
gap and ceiling; a placed leg is held and the list goes on, a refused leg gives the op its verdict with the
leg's W, e and d. -/
def Obligations.LegStepOfAPlaceOp : Prop :=
  ∀ (s : State) (r : PlaceRun) (e : Port) (todo : List Port) (x : Stream), Awake s →
    s.engine.current = some (.place r) → r.verdict = none → r.todo = e :: todo → s.streams[r.stream] = some x →
    let i : LegInputs :=
      { rho := x.desc.rho, repeats := x.desc.repeats, bound := x.desc.bound, lmax := x.desc.lmax, k := x.desc.k
        twinned := x.desc.twin != .off, m := r.planM, gi := r.speeds[x.desc.key.ingress].factor, ge := r.speeds[e].factor
        mu := s.ports[e].mu, tau := s.ports[e].tau, kappa := s.ports[e].kappa }
    ∃ t, exec .legStep s = .next t ∧
      (∀ p, legSearch i s.engine.timelines[e] = .placed p →
        t.engine.current = some (.place { r with todo := todo, held := r.held ++ [(e, p)] })) ∧
      (∀ why, legSearch i s.engine.timelines[e] = .refused why →
        t.engine.current = some (.place { r with
          verdict := some ⟨some why, some e, legLength i, legEarliest i, legLatest i⟩ })) ∧
      { t.engine with current := s.engine.current, steps := s.engine.steps } = s.engine ∧
      { t with engine := s.engine } = s

/-- PLACE_OP_END (R73, R76, R77, R86, R87): a refused op makes its stream FREE and finishes the refusal; an op whose every
leg is placed is held by the commit guard, and outside it makes its stream PLACED, with the windows in the pending
timelines, the ceiling of each egress raised to the need of its timeline, and a commit due. The engine is free
afterwards, nothing waiting. (A held op's end, commanded in the guard, changes nothing: log entry 3. That a refusal by
the pool check stands until this command: log entry 20.) -/
def Obligations.PlaceOpEndSettlesTheOp : Prop :=
  ∀ (s : State) (r : PlaceRun) (x : Stream), Awake s → s.engine.current = some (.place r) →
    s.streams[r.stream] = some x → NothingWaits s →
    (∀ why, r.verdict = some why → exec .placeOpEnd s = .next { s with
      streams := Table.upd s.streams r.stream fun _ => none
      engine := { s.engine with
        current := none
        finished := s.engine.finished ++ [⟨0x8D, r.tag, .search ⟨r.stream, why, x.desc.lmax, x.desc.bound⟩⟩] } }) ∧
    (r.verdict = none → r.todo = [] → Guarded s → exec .placeOpEnd s = .next s) ∧
    (r.verdict = none → r.todo = [] → ¬Guarded s → (r.held.map (·.1)).Nodup →
      ∃ t y, exec .placeOpEnd s = .next t ∧ t.streams[r.stream] = some y ∧ y.stage = .placed ∧ y.desc = x.desc ∧
        (∀ i : StreamNo, i ≠ r.stream → t.streams[i] = s.streams[i]) ∧
        (∀ e p, (e, p) ∈ r.held →
          t.engine.timelines[e] =
            insertWindows (windowsOf r.stream x.desc.repeats (r.planM / x.desc.repeats) p) s.engine.timelines[e] ∧
          t.ports[e] = { s.ports[e] with
            kappa := max s.ports[e].kappa (ceilDiv (100 * reservedTime t.engine.timelines[e]) r.planM) } ∧
          ∀ l ∈ y.legs, l.egress = e → l.pendingPl = some (.place p)) ∧
        (∀ e : Port, e ∉ r.held.map (·.1) →
          t.engine.timelines[e] = s.engine.timelines[e] ∧ t.ports[e] = s.ports[e]) ∧
        t.engine.pool = s.engine.pool + 2 * x.desc.k * ((x.desc.lmax + 127) / 128) ∧ t.engine.current = none ∧
        t.engine.deferred = s.engine.deferred ++ [⟨r.tag, .place r.stream⟩] ∧ t.engine.commitDue = true ∧
        t.engine.finished = s.engine.finished ∧ t.egress = s.egress ∧ t.timer = s.timer ∧ t.mgmt = s.mgmt)

/-- REPAIR_END (R73, R79, R80, R86, R89): once no stream is left to examine, and outside the commit guard, the repair
writes a pending placement or SUSPEND on each leg it examined, takes the windows it set aside out of the pending
timelines and puts those it holds in, raises the ceiling of an egress it placed a leg on to the need of its timeline, and
sets the commit-due marker if it examined a stream. (A held repair's end, commanded in the guard, changes nothing: log
entry 3; that the guard holds also a repair whose last leg step came before it: DESIGN CHOICE, log entry 37.) -/
def Obligations.RepairEndWritesItsResults : Prop :=
  ∀ (s : State) (r : RepairRun), Awake s → s.engine.current = some (.repair r) → s.repairNext r = none →
    (Guarded s → exec .repairEnd s = .next s) ∧
    (¬Guarded s → NothingWaits s →
      (r.results.map fun x => (x.1, x.2.1)).Nodup →
      ∃ t, exec .repairEnd s = .next t ∧ t.engine.current = none ∧
        t.engine.commitDue = (s.engine.commitDue || r.examined) ∧
        (∀ n e res, (n, e, res) ∈ r.results → ∀ y, t.streams[n] = some y → ∀ l ∈ y.legs, l.egress = e →
          l.pendingPl = some (match res with | .placed p => .place p | .refused why => .suspend why r.kind r.port)) ∧
        (∀ n, (∀ e res, (n, e, res) ∉ r.results) → t.streams[n] = s.streams[n]) ∧
        (∀ e : Port, t.engine.timelines[e] =
          insertWindows (s.heldOn r e) (s.engine.timelines[e].filter fun w => (w.stream, e) ∉ r.aside)) ∧
        (∀ e : Port, (∃ n p, (n, e, .placed p) ∈ r.results) → t.ports[e] = { s.ports[e] with
          kappa := max s.ports[e].kappa (ceilDiv (100 * reservedTime t.engine.timelines[e]) r.planM) }) ∧
        (∀ e : Port, (∀ n p, (n, e, .placed p) ∉ r.results) → t.ports[e] = s.ports[e] ∧
          t.engine.timelines[e] = s.engine.timelines[e].filter fun w => (w.stream, e) ∉ r.aside) ∧
        t.engine.pool = s.engine.pool ∧ t.egress = s.egress ∧ t.timer = s.timer ∧ t.mgmt = s.mgmt)

/-- The commit at a cycle start (R45, R46, R47, R48, R91, R92, R93): with no operation held by the commit guard, every active
timeline becomes a copy of the pending one, PLACED streams become ACTIVE in the cycle that begins with their pending
placements in force, RELEASING streams become FREE, each frame waiting in a slot of theirs dropped with cause RELEASED (leg
counter, device total, MOTION_DROP), and the marker is cleared; every dropped frame, and those kept for twin copies, return their
reference (R46, R48, R124); an operation that is running goes on (R77). The
legs of ACTIVE streams take their pending placements, those that leave LIVE dropping their slots with the cause of the new
state. The DEFERRED entries are finished in order, with the PLACED and RELEASED replies. Each pending SUSPEND raises
LEG_SUSPENDED, in ascending stream number and egress, so that a pending notice shows the last. An operation that the commit
guard held ends after the commit, if one is due, with the effects its rule gives; its windows wait in the pending timelines
for the following commit (R76, R79, R86, R91); what else waits, the engine then takes. (That a repair is held whose last leg
step came before the guard: DESIGN CHOICE, log entry 37.) -/
def Obligations.CommitSettlesStreamsAndTimelines : Prop :=
  (∀ s : State, Awake s → s.timer.endE ≤ s.phase → s.engine.commitDue = true →
    (∀ r : PlaceRun, s.engine.current = some (.place r) → r.verdict ≠ none ∨ r.todo ≠ []) →
    (∀ r : RepairRun, s.engine.current = some (.repair r) → s.repairNext r ≠ none) →
    let stateBy (e : Port) : LegState :=
      match s.ports[e].link with
      | .down => .dormant
      | .up v => if v = s.ports[e].planned then .live else .mismatch
    let suspend (l : Leg) : Prop := ∃ why k p, l.pendingPl = some (.suspend why k p)
    let became (l : Leg) : Option LegState :=
      match l.pendingPl with
      | none => l.state
      | some (.place _) => some (stateBy l.egress)
      | some (.suspend ..) => some .suspended
    let leaves (l : Leg) : Bool := l.state == some .live && became l != some .live
    let emptied (x : Stream) : List Leg :=
      match x.stage with
      | .releasing => x.legs
      | .active => x.legs.filter leaves
      | _ => []
    let records : List Stream := (List.finRange 128).filterMap fun n => s.streams[n]
    ∃ t, exec .cycleStart s = .next t ∧ (∀ e : Port, t.egress[e].timeline = s.engine.timelines[e]) ∧
      t.engine.timelines = s.engine.timelines ∧ t.engine.current = s.engine.current ∧ t.engine.waiting = s.engine.waiting ∧
      t.engine.pool = s.engine.pool ∧ t.engine.commitDue = false ∧ t.engine.deferred = [] ∧
      t.engine.lastCommit = some (s.timer.cycle + 1) ∧
      t.engine.finished.length = s.engine.finished.length + s.engine.deferred.length ∧
      t.engine.finished.take s.engine.finished.length = s.engine.finished ∧
      (∀ front tag m back y, s.engine.deferred = front ++ ⟨tag, .place m⟩ :: back → t.streams[m] = some y →
        t.engine.finished[s.engine.finished.length + front.length]? = some ⟨0x8D, tag, .placed
          { stream := m, part := 0, firstActive := s.timer.cycle + 1, lmax := y.desc.lmax, bound := y.desc.bound
            handling := y.desc.handling, legs := y.legs.map fun l => ⟨l.egress, l.state, l.placement⟩ }⟩) ∧
      (∀ front tag m back, s.engine.deferred = front ++ ⟨tag, .release m⟩ :: back →
        t.engine.finished[s.engine.finished.length + front.length]? =
          some ⟨0x8E, tag, .released m (s.timer.cycle + 1)⟩) ∧
      ((∀ x ∈ records, (x.legs.map (·.egress)).Nodup) →
        t.deviceCounters[15] = satAdd s.deviceCounters[15] ((records.map fun x =>
          if x.stage = .releasing then (x.legs.map fun l => l.slot.length).sum else 0).sum) ∧
        Returned s t (records.flatMap fun x => (emptied x).flatMap fun l => l.slot ++ l.retained)
          fun n => s.streams[n].any fun x => x.stage == .releasing) ∧
      (∀ (n : StreamNo) (x : Stream), s.streams[n] = some x →
        (x.stage = .releasing → t.streams[n] = none ∧ ((x.legs.map (·.egress)).Nodup → ∀ l ∈ x.legs,
          t.legCounters[legIndex n l.egress] =
            Table.upd s.legCounters[legIndex n l.egress] 12 (fun c => satAdd c l.slot.length) ∧
          (l.slot ≠ [] → t.ports[l.egress].flags.getLsbD 3 =
            (s.ports[l.egress].flags.getLsbD 3 || s.ports[l.egress].flagMask.getLsbD 3)))) ∧
        (x.stage = .placed → ∃ y, t.streams[n] = some y ∧ y.stage = .active ∧ y.desc = x.desc ∧
          y.firstActive = some (s.timer.cycle + 1) ∧
          y.legs.map (fun l => (l.egress, l.pendingPl, l.slot, l.missStreak, l.missNotified)) =
            x.legs.map (fun l => (l.egress, none, [], 0, false)) ∧
          (∀ i (h : i < x.legs.length) (h' : i < y.legs.length),
            (∀ p, x.legs[i].pendingPl = some (.place p) →
              y.legs[i].placement = some p ∧ y.legs[i].state = some (stateBy x.legs[i].egress)) ∧
            (suspend x.legs[i] → y.legs[i].placement = none ∧ y.legs[i].state = some .suspended))) ∧
        (x.stage = .active → (x.legs.map (·.egress)).Nodup →
          ∃ y, t.streams[n] = some y ∧ { y with alive := x.alive, legs := x.legs } = x ∧
            y.legs = x.legs.map (fun l => { l with
              state := became l
              placement := match l.pendingPl with
                | none => l.placement
                | some (.place p) => some p
                | some (.suspend ..) => none
              pendingPl := none
              slot := if leaves l then [] else l.slot
              retained := if leaves l then [] else l.retained }) ∧
            ∀ l ∈ x.legs,
              (leaves l = false → t.legCounters[legIndex n l.egress] = s.legCounters[legIndex n l.egress]) ∧
              (∀ k : Fin 13, leaves l = true → ((became l = some .dormant ∧ k = 9) ∨
                  (became l = some .mismatch ∧ k = 10) ∨ (became l = some .suspended ∧ k = 11)) →
                t.legCounters[legIndex n l.egress] =
                  Table.upd s.legCounters[legIndex n l.egress] k fun c => satAdd c l.slot.length)) ∧
        (∀ front l back why k p, (x.stage = .placed ∨ x.stage = .active) → x.legs = front ++ l :: back →
          l.pendingPl = some (.suspend why k p) → (∀ z ∈ back, ¬suspend z) →
          (∀ m : StreamNo, n < m → ∀ y, s.streams[m] = some y → (y.stage = .placed ∨ y.stage = .active) →
            ∀ z ∈ y.legs, ¬suspend z) →
          s.mgmt.sources[9].number ≠ 0 → ∃ w ∈ t.mgmt.sources[9].pending,
            w.cycle = s.timer.cycle + 1 ∧ w.data = .legSuspended n l.egress why k p) ∧
        ((x.stage = .queued ∨ x.stage = .searching) → ∃ y, t.streams[n] = some y ∧ { y with alive := x.alive } = x))) ∧
  (∀ s : State, Awake s → s.timer.endE ≤ s.phase →
    let active (t : State) : Prop := ∀ e : Port,
      t.egress[e].timeline = if s.engine.commitDue then s.engine.timelines[e] else s.egress[e].timeline
    let raised (t : State) (e : Port) (planM : Nat) : Prop := t.ports[e] = { s.ports[e] with
      kappa := max s.ports[e].kappa (ceilDiv (100 * reservedTime t.engine.timelines[e]) planM)
      counters := t.ports[e].counters, flags := t.ports[e].flags }
    (∀ (r : PlaceRun) (x : Stream), s.engine.current = some (.place r) → r.verdict = none → r.todo = [] →
      s.streams[r.stream] = some x → x.stage = .searching → (r.held.map (·.1)).Nodup →
      (∀ y ∈ s.engine.waiting, y.op ≠ .place r.stream ∧ y.op ≠ .release r.stream) →
      ∃ t y, exec .cycleStart s = .next t ∧ active t ∧ t.streams[r.stream] = some y ∧ y.stage = .placed ∧
        y.desc = x.desc ∧ (∀ e p, (e, p) ∈ r.held → ∀ l ∈ y.legs, l.egress = e → l.pendingPl = some (.place p)) ∧
        t.engine.commitDue = true ∧
        (∃ more, t.engine.deferred =
          (if s.engine.commitDue then [] else s.engine.deferred) ++ ⟨r.tag, .place r.stream⟩ :: more) ∧
        t.engine.finished.length =
          s.engine.finished.length + (if s.engine.commitDue then s.engine.deferred.length else 0) ∧
        t.engine.lastCommit = (if s.engine.commitDue then some (s.timer.cycle + 1) else s.engine.lastCommit) ∧
        (NothingWaits s → t.engine.current = none ∧
          t.engine.deferred =
            (if s.engine.commitDue then [] else s.engine.deferred) ++ [⟨r.tag, .place r.stream⟩] ∧
          t.engine.pool = s.engine.pool + 2 * x.desc.k * ((x.desc.lmax + 127) / 128) ∧
          (∀ e p, (e, p) ∈ r.held → raised t e r.planM ∧
            t.engine.timelines[e] =
              insertWindows (windowsOf r.stream x.desc.repeats (r.planM / x.desc.repeats) p) s.engine.timelines[e]) ∧
          ∀ e : Port, e ∉ r.held.map (·.1) → t.engine.timelines[e] = s.engine.timelines[e])) ∧
    (∀ r : RepairRun, s.engine.current = some (.repair r) → s.repairNext r = none →
      (r.results.map fun x => (x.1, x.2.1)).Nodup →
      (∀ n e p, (n, e, .placed p) ∈ r.results → InStage s n [.placed, .active]) →
      ∃ t, exec .cycleStart s = .next t ∧ active t ∧ (r.examined = true → t.engine.commitDue = true) ∧
        t.engine.lastCommit = (if s.engine.commitDue then some (s.timer.cycle + 1) else s.engine.lastCommit) ∧
        (NothingWaits s → t.engine.current = none ∧ t.engine.commitDue = r.examined ∧ t.engine.pool = s.engine.pool ∧
          (∀ n e res, (n, e, res) ∈ r.results → ∀ y, t.streams[n] = some y → ∀ l ∈ y.legs, l.egress = e →
            l.pendingPl = some (match res with | .placed p => .place p | .refused why => .suspend why r.kind r.port)) ∧
          (∀ e : Port, t.engine.timelines[e] =
            insertWindows (s.heldOn r e) (s.engine.timelines[e].filter fun w => (w.stream, e) ∉ r.aside)) ∧
          ∀ e : Port, (∃ n p, (n, e, .placed p) ∈ r.results) → raised t e r.planM)))

/-- LEG_STEP of a repair (R61, R79, R80, R89). Between two streams, the least stream number not yet reached that is
PLACED or ACTIVE and uses the port is examined: the windows of its leg on the port, or of all its legs in an ingress
repair, are set aside; its leg step is made against the pending timeline less what is set aside, with what the repair
holds. An egress repair keeps the result of each leg; an ingress repair goes on to the stream's next leg, whose leg step
is made likewise, or refuses the whole stream. -/
def Obligations.LegStepOfARepair : Prop :=
  ∀ (s : State) (r : RepairRun) (n : StreamNo) (x : Stream), Awake s → s.engine.current = some (.repair r) →
    s.streams[n] = some x →
    let uses (y : Stream) : Prop := (y.stage = .placed ∨ y.stage = .active) ∧
      (match r.kind with | .egress => ∃ z ∈ y.legs, z.egress = r.port | .ingress => y.desc.key.ingress = r.port)
    let result (aside : List (StreamNo × Port)) (e : Port) : LegResult :=
      legSearch
        { rho := x.desc.rho, repeats := x.desc.repeats, bound := x.desc.bound, lmax := x.desc.lmax, k := x.desc.k
          twinned := x.desc.twin != .off, m := r.planM, gi := r.speeds[x.desc.key.ingress].factor
          ge := r.speeds[e].factor, mu := s.ports[e].mu, tau := s.ports[e].tau, kappa := s.ports[e].kappa }
        (insertWindows (s.heldOn r e) (s.engine.timelines[e].filter fun w => (w.stream, e) ∉ aside))
    let stepped (aside : List (StreamNo × Port)) (t : State) (r' : RepairRun) : Prop :=
      exec .legStep s = .next t ∧ t.engine.current = some (.repair r') ∧
      { r' with results := r.results, within := r.within } =
        { r with aside := aside, examined := true, nextStream := n.val + 1 } ∧
      { t.engine with current := s.engine.current, steps := s.engine.steps, mark := s.engine.mark } = s.engine ∧
      { t with engine := s.engine } = s
    let goesOn (aside : List (StreamNo × Port)) (e : Port) (after : List Port) (r' : RepairRun) : Prop :=
      (∀ p, result aside e = .placed p → r'.results = r.results ++ [(n, e, .placed p)] ∧
        r'.within = if after = [] then none else some (n, after)) ∧
      (∀ why, result aside e = .refused why → r'.within = none ∧
        r'.results = (r.results.filter fun y => y.1 ≠ n) ++ x.legs.map fun z => (n, z.egress, .refused why))
    (∀ (l : Leg) (ls : List Leg), r.within = none → r.nextStream ≤ n.val → x.legs = l :: ls → uses x →
      (∀ i : StreamNo, r.nextStream ≤ i.val → i < n → ∀ y, s.streams[i] = some y → ¬uses y) →
      let aside := r.aside ++
        (match r.kind with | .egress => [(n, r.port)] | .ingress => x.legs.map fun z => (n, z.egress))
      ∃ t r', stepped aside t r' ∧
        (r.kind = .egress → r'.results = r.results ++ [(n, r.port, result aside r.port)] ∧ r'.within = none) ∧
        (r.kind = .ingress → goesOn aside l.egress (ls.map (·.egress)) r')) ∧
    (∀ (e : Port) (es : List Port), r.kind = .ingress → r.within = some (n, e :: es) →
      ∃ t r', stepped r.aside t r' ∧ goesOn r.aside e es r')

/-! ### Egress windows and transmission (chapter 6), and the motion path of a received frame (chapter 3) -/

/-- WINDOW_OPEN (R100, R101): the next primary window of the pass, its start phase reached, becomes the open window;
released for its whole length unless its leg is LIVE, and unreleased with a sent count of 0 while nothing starts in
it. A ready frame at the head of a LIVE leg's slot, neither stale nor late, starts as its primary window opens (R103
to R106): the wire carries it, the counters and streaks of R105 move, the remainder is released when it is the k-th, a
twinned leg retains it, and every probe ARMED on its stream and egress captures it (R166). A head that is STALE, or else
LATE, is dropped: counted, flagged, reported, its reference returned; the head behind it is tried in its place, and with
none behind it nothing starts (R104, R121, R124). (A window that is not due to open stays as it is: log entry 3.) -/
def Obligations.WindowOpensAndItsFrameStarts : Prop :=
  (∀ (s : State) (e : Port) (w : Window), Awake s → s.egress[e].openWindow = none →
     (s.egress[e].timeline.drop s.egress[e].nextWindow).head? = some w →
     (w.kind = .primary → w.start ≤ s.phase → ∃ t o, exec (.windowOpen e) s = .next t ∧
       t.egress[e].openWindow = some o ∧ o.window = w ∧ t.egress[e].nextWindow = s.egress[e].nextWindow + 1 ∧
       t.egress[e].timeline = s.egress[e].timeline ∧
       ((s.leg w.stream e).bind (·.state) ≠ some .live → o.openedFree = true ∧ o.released = true) ∧
       ((s.leg w.stream e).bind (·.state) = some .live → o.openedFree = false ∧
         (s.ports[e].hold = true ∨ s.ports[e].link = .down ∨ s.slotOf w.stream e = [] →
           o.released = false ∧ o.sent = 0 ∧ t.egress[e].wire = s.egress[e].wire ∧ t.streams = s.streams)) ∧
       (∀ f : Port, f ≠ e → t.egress[f] = s.egress[f] ∧ t.ports[f] = s.ports[f]) ∧ t.timer = s.timer ∧
       t.engine = s.engine ∧ t.noise = s.noise ∧ t.addr = s.addr) ∧
     ((w.kind = .twin ∨ s.phase < w.start) → exec (.windowOpen e) s = .next s)) ∧
  (∀ (s : State) (e : Port) (w : Window) (x : Stream) (l : Leg) (v : Speed), OpensIdle s e w x l v →
     let starts (t : State) (r : FrameRecord) (rest : List FrameId) : Prop :=
       t.egress[e].wire = some ⟨r.id, s.timer.grain, .motion w.stream (x.desc.twin != .off)⟩ ∧
       t.egress[e].openWindow = some ⟨w, false, decide (x.desc.k ≤ 1), 1, []⟩ ∧
       (t.leg w.stream e).map (fun y => (y.slot, y.retained, y.missStreak, y.missNotified)) =
         some (rest, if x.desc.twin = .off then l.retained else l.retained ++ [r.id], 0, false) ∧
       t.ports[e].counters = Table.upd s.ports[e].counters 11 satInc ∧
       (∀ (q : Fin 4) (z : Watch), s.probes[q] = .armed z → z.stream = w.stream → z.egress = e →
         t.probes[q] = .captured z s.timer.cycle
           { cycle := s.timer.cycle, ingressStart := r.ingressStart, egressStart := s.timer.grain
             residence := s.timer.grain - r.ingressStart, windowStart := w.start, startPhase := s.phase
             slack := w.stop - (s.phase + (r.len + 20) * v.factor), len := r.len, noise := s.noise[e].state }) ∧
       (∀ q : Fin 4, (∀ z, s.probes[q] = .armed z → ¬(z.stream = w.stream ∧ z.egress = e)) →
         t.probes[q] = s.probes[q])
     let mayStart (r : FrameRecord) : Prop := s.frame r.id = some r ∧ 120 ≤ s.since r.received ∧
       s.since r.ingressStart ≤ x.desc.bound ∧ (r.len + 20) * v.factor ≤ w.stop - s.phase
     let dropped (t : State) (a : FrameRecord) (d : Fin 28) : Prop :=
       t.deviceCounters = Table.upd s.deviceCounters d satInc ∧
       t.ports[e].flags.getLsbD 3 = (s.ports[e].flags.getLsbD 3 || s.ports[e].flagMask.getLsbD 3) ∧
       t.frame a.id = if a.refs ≤ 1 then none else some { a with refs := a.refs - 1 }
     (∀ r rest, l.slot = r.id :: rest → mayStart r → ∃ t, exec (.windowOpen e) s = .next t ∧ starts t r rest ∧
       t.legCounters = Table.upd s.legCounters (legIndex w.stream e) (fun c => Table.upd c 0 satInc) ∧
       t.buffer = s.buffer) ∧
     (∀ a k d, l.slot = [a.id] → Fails s w x a v k d → ∃ t, exec (.windowOpen e) s = .next t ∧ dropped t a d ∧
       t.egress[e].wire = none ∧ t.egress[e].openWindow = some ⟨w, false, false, 0, []⟩ ∧
       (t.leg w.stream e).map (fun y => (y.slot, y.retained, y.missStreak)) = some ([], l.retained, l.missStreak) ∧
       t.legCounters = Table.upd s.legCounters (legIndex w.stream e) (fun c => Table.upd c k satInc)) ∧
     (∀ a k d r rest, l.slot = a.id :: r.id :: rest → a.id ≠ r.id → Fails s w x a v k d → mayStart r →
       ∃ t, exec (.windowOpen e) s = .next t ∧ dropped t a d ∧ starts t r rest ∧
         t.legCounters = Table.upd s.legCounters (legIndex w.stream e) (fun c =>
           Table.upd (Table.upd c k satInc) 0 satInc)))

/-- WINDOW_CLOSE (R107, R108): frames HELD, an empty window, or nothing; afterwards no window is open. -/
def Obligations.WindowCloseHeldEmptyOrNothing : Prop :=
  ∀ (s : State) (e : Port) (o : OpenWindow) (x : Stream) (l : Leg), Awake s → s.egress[e].openWindow = some o →
    o.window.kind = .primary → o.window.stop ≤ s.phase → s.streams[o.window.stream] = some x →
    s.leg o.window.stream e = some l →
    ∃ t, exec (.windowClose e) s = .next t ∧ t.egress[e].openWindow = none ∧
      (let i := legIndex o.window.stream e
       (o.openedFree = false → l.state = some .live → s.ports[e].hold = true →
         t.slotOf o.window.stream e = [] ∧ t.legCounters[i][7] = satAdd s.legCounters[i][7] l.slot.length ∧
         t.legCounters[i][6] = s.legCounters[i][6] ∧
         (t.leg o.window.stream e).map (fun y => y.missStreak) = some l.missStreak) ∧
       (o.openedFree = false → l.state = some .live → s.ports[e].hold = false → o.sent = 0 →
         t.legCounters = Table.upd s.legCounters i (fun c => Table.upd c 6 satInc) ∧
         (t.leg o.window.stream e).map (fun y => (y.slot, y.missStreak, y.missNotified)) =
           some (l.slot, min 255 (l.missStreak + 1),
             l.missNotified || decide (min 255 (l.missStreak + 1) = x.desc.missLimit ∧ 1 ≤ x.desc.missLimit)) ∧
         (min 255 (l.missStreak + 1) = x.desc.missLimit → 1 ≤ x.desc.missLimit → l.missNotified = false →
           s.mgmt.sources[e.val + 1].number ≠ 0 → ∃ n ∈ t.mgmt.sources[e.val + 1].pending,
             n.cycle = s.timer.cycle ∧
             n.data = .legMissing o.window.stream e x.desc.missLimit x.desc.missLimit s.phase)) ∧
       ((o.openedFree = true ∨ l.state ≠ some .live ∨ (s.ports[e].hold = false ∧ o.sent ≠ 0)) →
         t.legCounters = s.legCounters ∧ t.streams = s.streams)) ∧
      (∀ f : Port, f ≠ e → t.egress[f] = s.egress[f] ∧ t.ports[f] = s.ports[f]) ∧ t.timer = s.timer ∧
      t.engine = s.engine ∧ t.noise = s.noise ∧ t.addr = s.addr

/-- TWIN_WINDOW_OPEN and TWIN_WINDOW_CLOSE (R109, R110, R111): a twin window is used when its leg is LIVE, its
stream's twin calls for it and frames are retained, and is released otherwise; its first copy starts at once on an
idle wire; its close lets every retained frame go without a count. At the TRANSMISSION_END of a copy the next copy starts
if it ends by the window's end; one that does not is passed over without a count and the one behind it is tried; with
none left the window is released (R110). -/
def Obligations.TwinWindowsSendCopies : Prop :=
  (∀ (s : State) (e : Port) (w : Window) (x : Stream) (l : Leg), Awake s → s.egress[e].openWindow = none →
    (s.egress[e].timeline.drop s.egress[e].nextWindow).head? = some w → w.kind = .twin → w.start ≤ s.phase →
    s.streams[w.stream] = some x → s.leg w.stream e = some l →
    let used := l.state = some .live ∧
      (x.desc.twin = .always ∨ (x.desc.twin = .armed ∧ s.noise[e].state = .disturbed)) ∧ l.retained ≠ []
    (¬used → ∃ t o, exec (.twinWindowOpen e) s = .next t ∧ t.egress[e].openWindow = some o ∧ o.window = w ∧
      o.openedFree = true ∧ o.released = true ∧ t.streams = s.streams ∧ t.legCounters = s.legCounters) ∧
    (used → s.ports[e].hold = true → ∃ t, exec (.twinWindowOpen e) s = .next t ∧
      t.egress[e].openWindow = some ⟨w, false, false, 0, l.retained⟩ ∧ t.egress[e].wire = s.egress[e].wire ∧
      t.streams = s.streams) ∧
    (∀ (v : Speed) (id : FrameId) (rest : List FrameId), used → s.ports[e].hold = false → s.ports[e].link = .up v →
      s.egress[e].wire = none → l.retained = id :: rest → s.phase + (s.frameLength id + 20) * v.factor ≤ w.stop →
      ∃ t, exec (.twinWindowOpen e) s = .next t ∧ t.egress[e].wire = some ⟨id, s.timer.grain, .copy w.stream⟩ ∧
        t.egress[e].openWindow = some ⟨w, false, rest.isEmpty, 0, rest⟩ ∧ t.streams = s.streams ∧
        t.legCounters = Table.upd s.legCounters (legIndex w.stream e) (fun c => Table.upd c 1 satInc) ∧
        t.ports[e].counters = Table.upd s.ports[e].counters 12 satInc)) ∧
  (∀ (s : State) (e : Port) (o : OpenWindow), Awake s → s.egress[e].openWindow = some o → o.window.kind = .twin →
    o.window.stop ≤ s.phase → ∃ t, exec (.twinWindowClose e) s = .next t ∧ t.egress[e].openWindow = none ∧
      t.retainedOf o.window.stream e = [] ∧ t.legCounters = s.legCounters ∧ t.timer = s.timer ∧ t.engine = s.engine) ∧
  (∀ (s : State) (e : Port) (o : OpenWindow) (id sent : FrameId) (n : StreamNo) (g : Stamp) (v : Speed), Awake s →
    s.egress[e].openWindow = some o → o.window.kind = .twin → o.released = false →
    s.egress[e].wire = some ⟨sent, g, .copy n⟩ → s.ports[e].link = .up v → s.ports[e].hold = false →
    (s.frameLength sent + 20) * v.factor ≤ s.since g →
    let inTime (id : FrameId) : Prop := s.phase + (s.frameLength id + 20) * v.factor ≤ o.window.stop
    let starts (t : State) (id : FrameId) (rest : List FrameId) : Prop :=
      exec (.transmissionEnd e) s = .next t ∧
      t.egress[e].wire = some ⟨id, s.timer.grain, .copy o.window.stream⟩ ∧
      t.egress[e].openWindow = some { o with copies := rest, released := rest.isEmpty } ∧ t.streams = s.streams ∧
      t.legCounters = Table.upd s.legCounters (legIndex o.window.stream e) (fun c => Table.upd c 1 satInc) ∧
      t.ports[e].counters = Table.upd s.ports[e].counters 12 satInc ∧ t.buffer = s.buffer
    (∀ rest, o.copies = id :: rest → inTime id → ∃ t, starts t id rest) ∧
    (∀ next rest, o.copies = id :: next :: rest → ¬inTime id → inTime next → ∃ t, starts t next rest) ∧
    (o.copies = [id] → ¬inTime id → ∃ t, exec (.transmissionEnd e) s = .next t ∧
      t.egress[e].openWindow = some { o with copies := [], released := true } ∧ t.streams = s.streams ∧
      t.legCounters = s.legCounters ∧ t.buffer = s.buffer ∧
      ∀ y, t.egress[e].wire = some y → y.kind = .bestEffort))

/-- TRANSMISSION_END (R105, R112, R117, R124): once the wire time has passed, the wire falls idle, and what the egress
then starts it starts at this instant; a best-effort frame's cells leave the egress's count; the frame returns its one
reference, unless a twin window still keeps it (where HOLD is off: of a frame that does not wait at this egress again,
which a choice could drop). With HOLD on nothing starts. (Commanded before the wire time has passed it changes nothing:
log entry 3.) -/
def Obligations.TransmissionEndFreesTheWire : Prop :=
  ∀ (s : State) (e : Port) (x : Transmission) (v : Speed), Awake s → s.egress[e].wire = some x →
    s.ports[e].link = .up v →
    (s.since x.started < (s.frameLength x.frame + 20) * v.factor → exec (.transmissionEnd e) s = .next s) ∧
    ((s.frameLength x.frame + 20) * v.factor ≤ s.since x.started → ∃ t, exec (.transmissionEnd e) s = .next t ∧
      (∀ y, t.egress[e].wire = some y → y.started = s.timer.grain) ∧
      t.egress[e].beCount = s.egress[e].beCount -
        (if x.kind = .bestEffort then ((s.frame x.frame).map (·.cells)).getD 0 else 0) ∧
      ((s.ports[e].hold = true ∨ x.frame ∉ s.waitingFrames e) →
        (∀ r, s.frame x.frame = some r → (x.kind = .bestEffort ∨ ∃ n, x.kind = .motion n false) →
          t.frame x.frame = if r.refs ≤ 1 then none else some { r with refs := r.refs - 1 }) ∧
        (∀ n, (x.kind = .motion n true ∨ x.kind = .copy n) → t.frame x.frame = s.frame x.frame)) ∧
      (s.ports[e].hold = true → t.egress[e].wire = none ∧
        (∀ n, (x.kind = .motion n true ∨ x.kind = .copy n) → t.buffer = s.buffer)) ∧
      (∀ f : Port, f ≠ e → t.egress[f] = s.egress[f] ∧ t.ports[f] = s.ports[f]) ∧ t.timer = s.timer ∧
      t.engine = s.engine)

/-- READY_TIME (R103 to R106, R112, R114 to R117): when the ready time of a waiting frame of the egress comes at this
instant, the egress chooses. In its turn, best effort starts the head of the highest class whose head is ready and fits,
a head that does not being passed over (R116); in an open, unreleased primary window the ready head of the leg's slot
starts, being neither stale nor late. With nothing that may start, with HOLD on, on a busy wire or a DOWN link, nothing
happens. (The fit check's next window: R114, R115.) Where no waiting frame of the egress becomes ready at this instant
nothing happens. (Log entry 3.) -/
def Obligations.BestEffortFrameStartsAtItsReadyTime : Prop :=
  ∀ (s : State) (e : Port), Awake s →
    let standing : State := { s with egress := Table.upd s.egress e fun y => { y with readyTaken := true } }
    (s.readyNow e = false → exec (.readyTime e) s = .next s) ∧
    (s.readyNow e = true →
      (∀ (c : ClassNo) (r : FrameRecord) (rest : List FrameId) (v : Speed), s.ports[e].hold = false →
        BestEffortStart s e c r rest v →
        ∃ t, exec (.readyTime e) s = .next t ∧ t.egress[e].wire = some ⟨r.id, s.timer.grain, .bestEffort⟩ ∧
          t.egress[e].queues[c] = rest ∧ (∀ c' : ClassNo, c' ≠ c → t.egress[e].queues[c'] = s.egress[e].queues[c']) ∧
          t.egress[e].beCount = s.egress[e].beCount ∧
          t.ports[e].counters = Table.upd s.ports[e].counters 13 satInc ∧
          (∀ f : Port, f ≠ e → t.egress[f] = s.egress[f] ∧ t.ports[f] = s.ports[f]) ∧
          { t with egress := s.egress, ports := s.ports } = s) ∧
      (∀ (o : OpenWindow) (x : Stream) (l : Leg) (r : FrameRecord) (rest : List FrameId) (v : Speed),
        s.ports[e].hold = false → MotionStart s e o x l r rest v →
        ∃ t, exec (.readyTime e) s = .next t ∧
          t.egress[e].wire = some ⟨r.id, s.timer.grain, .motion o.window.stream (x.desc.twin != .off)⟩ ∧
          t.egress[e].openWindow = some { o with sent := o.sent + 1, released := decide (x.desc.k ≤ o.sent + 1) } ∧
          t.slotOf o.window.stream e = rest ∧ t.egress[e].queues = s.egress[e].queues ∧ t.buffer = s.buffer ∧
          t.legCounters = Table.upd s.legCounters (legIndex o.window.stream e) (fun c => Table.upd c 0 satInc) ∧
          t.ports[e].counters = Table.upd s.ports[e].counters 11 satInc) ∧
      ((s.ports[e].hold = true ∨ s.ports[e].link = .down ∨ s.egress[e].wire ≠ none) →
        exec (.readyTime e) s = .next standing) ∧
      (∀ v : Speed, BestEffortTurn s e v → (∀ c : ClassNo, ¬HeadStarts s e c v.factor) →
        exec (.readyTime e) s = .next standing))

/-- FRAME_END of a good frame of an ACTIVE stream (R52 to R56, R102): longer than Lmax it is dropped at the ingress; with
no LIVE leg it is stored nowhere and each leg counts the drop of its state; refused by the storage check it is counted on
the ingress and on every leg; otherwise it is stored once and handed to the slot of each LIVE leg: a slot with room takes
it, a full one under LATEST lets its oldest frame go for it, counted as replaced, and a full one under SEQUENCED drops it
as an OVERRUN, a frame that every LIVE leg drops leaving the buffer again. The egress of a LIVE leg that a frame reaches makes its
try (R54, R102, R104): where nothing that waits may start nothing does, the frame itself being not yet ready; where an older
one may, that one starts, and an older head of the slot that is STALE or LATE is dropped. A frame of a stream that is not ACTIVE counts an unreserved pass and takes
the best-effort path (R52). -/
def Obligations.StreamFrameFollowsTheLegStates : Prop :=
  ∀ (s : State) (p : Port) (f : RxFrame) (start : Stamp) (n : StreamNo) (x : Stream), FrameIsGood s p f start →
    CellsOk s.buffer → s.streams[n] = some x → x.desc.key = ⟨p, frameDest f, frameVlan f⟩ →
    (∀ (i : StreamNo) (y : Stream), s.streams[i] = some y → y.desc.key = x.desc.key → i = n) →
    (x.legs.map (·.egress)).Nodup →
    let cells := (f.bytes.length + 127) / 128
    let count (l : Leg) (k : Fin 13) (t : State) : Prop :=
      t.legCounters[legIndex n l.egress] = Table.upd s.legCounters[legIndex n l.egress] k satInc
    let dropped (l : Leg) (t : State) : Prop :=
      (l.state = some .dormant → count l 9 t) ∧ (l.state = some .mismatch → count l 10 t) ∧
      (l.state = some .suspended → count l 11 t)
    let live (l : Leg) : Bool := l.state == some .live
    let roomy (l : Leg) : Bool := decide (l.slot.length < x.desc.k)
    let stored (refs : Nat) : FrameRecord :=
      { id := s.buffer.nextId, pool := .motion, cells := cells, refs := refs, len := f.bytes.length, ingress := p
        ingressStart := start, received := s.timer.grain, stream := some n, cls := none, orphan := false
        bytes := f.bytes }
    (x.stage = .active → x.desc.lmax < f.bytes.length → ∃ t, exec (.frameEnd p f) s = .next t ∧ t.buffer = s.buffer ∧
      t.streams = s.streams ∧ t.ports[p].counters[7] = satInc s.ports[p].counters[7] ∧
      t.streamCounters[n][1] = satInc s.streamCounters[n][1] ∧ t.deviceCounters = Table.upd s.deviceCounters 6 satInc) ∧
    (x.stage = .active → f.bytes.length ≤ x.desc.lmax → (∀ l ∈ x.legs, l.state ≠ some .live) →
      ∃ t, exec (.frameEnd p f) s = .next t ∧
      t.buffer = s.buffer ∧ t.streams = s.streams ∧ t.streamCounters[n][0] = satInc s.streamCounters[n][0] ∧
      ∀ l ∈ x.legs, dropped l t) ∧
    (x.stage = .active → f.bytes.length ≤ x.desc.lmax → (∃ l ∈ x.legs, l.state = some .live) →
      (2 * x.desc.k ≤ x.alive ∨ s.buffer.motionFree < cells) → ∃ t, exec (.frameEnd p f) s = .next t ∧
      t.buffer = s.buffer ∧ t.streams = s.streams ∧ t.ports[p].counters[8] = satInc s.ports[p].counters[8] ∧
      t.deviceCounters = Table.upd s.deviceCounters 7 satInc ∧ ∀ l ∈ x.legs, count l 8 t) ∧
    (x.stage = .active → f.bytes.length ≤ x.desc.lmax → (∃ l ∈ x.legs, l.state = some .live) →
      x.alive < 2 * x.desc.k → cells ≤ s.buffer.motionFree →
      (∀ l ∈ x.legs, l.state = some .live → Settled s l.egress) →
      ∃ t y, exec (.frameEnd p f) s = .next t ∧ t.streams[n] = some y ∧
        t.streamCounters[n][0] = satInc s.streamCounters[n][0] ∧ t.egress = s.egress ∧
        y.legs = x.legs.map (fun l =>
          if live l then
            { l with slot :=
                if roomy l then l.slot ++ [s.buffer.nextId]
                else match x.desc.handling with
                  | .latest => l.slot.drop 1 ++ [s.buffer.nextId]
                  | .sequenced => l.slot }
          else l) ∧
        (∀ l ∈ x.legs, dropped l t ∧
          (live l = true → roomy l = true → t.legCounters[legIndex n l.egress] = s.legCounters[legIndex n l.egress]) ∧
          (live l = true → roomy l = false → x.desc.handling = .latest → count l 5 t) ∧
          (live l = true → roomy l = false → x.desc.handling = .sequenced → count l 4 t)) ∧
        (let takers := x.legs.countP fun l => live l && roomy l
         ((∀ l ∈ x.legs, live l = true → roomy l = true) ∨ x.desc.handling = .sequenced) →
           t.buffer.beFree = s.buffer.beFree ∧
           (0 < takers → t.frame s.buffer.nextId = some (stored takers) ∧ y.alive = x.alive + 1 ∧
             t.buffer.motionFree = s.buffer.motionFree - cells) ∧
           (takers = 0 → t.frame s.buffer.nextId = none ∧ y.alive = x.alive ∧
             t.buffer.motionFree = s.buffer.motionFree)) ∧
        (∀ l old rest r, x.desc.handling = .latest → x.legs.filter live = [l] → roomy l = false → l.slot = old :: rest →
          s.frame old = some r → t.frame s.buffer.nextId = some (stored 1) ∧
            t.frame old = if r.refs ≤ 1 then none else some { r with refs := r.refs - 1 })) ∧
    (x.stage = .active → f.bytes.length ≤ x.desc.lmax → x.alive < 2 * x.desc.k → cells ≤ s.buffer.motionFree →
      ∀ l, x.legs.filter live = [l] → roomy l = true → s.ports[l.egress].hold = false →
        let e := l.egress
        (∀ c r rest v, BestEffortStart s e c r rest v → ∃ t, exec (.frameEnd p f) s = .next t ∧
          t.egress[e].wire = some ⟨r.id, s.timer.grain, .bestEffort⟩ ∧ t.egress[e].queues[c] = rest ∧
          t.slotOf n e = l.slot ++ [s.buffer.nextId]) ∧
        (∀ o y z r rest v, MotionStart s e o y z r rest v → ∃ t, exec (.frameEnd p f) s = .next t ∧
          t.egress[e].wire = some ⟨r.id, s.timer.grain, .motion o.window.stream (y.desc.twin != .off)⟩ ∧
          t.egress[e].openWindow = some { o with sent := o.sent + 1, released := decide (y.desc.k ≤ o.sent + 1) } ∧
          t.slotOf o.window.stream e = rest ++ (if o.window.stream = n then [s.buffer.nextId] else []) ∧
          (o.window.stream ≠ n → t.slotOf n e = l.slot ++ [s.buffer.nextId]) ∧
          t.legCounters[legIndex o.window.stream e] = Table.upd s.legCounters[legIndex o.window.stream e] 0 satInc) ∧
        (∀ o a v k d, s.ports[e].link = .up v → s.egress[e].wire = none → s.egress[e].openWindow = some o →
          o.window.kind = .primary → o.released = false → o.window.stream = n → o.sent < x.desc.k →
          s.phase < o.window.stop → l.slot = [a.id] → Fails s o.window x a v k d →
          ∃ t, exec (.frameEnd p f) s = .next t ∧ t.egress[e] = s.egress[e] ∧ t.slotOf n e = [s.buffer.nextId] ∧
            t.legCounters[legIndex n e] = Table.upd s.legCounters[legIndex n e] k satInc ∧
            t.deviceCounters[d] = satInc s.deviceCounters[d] ∧
            t.frame a.id = if a.refs ≤ 1 then none else some { a with refs := a.refs - 1 })) ∧
    (x.stage ≠ .active → ∃ t, exec (.frameEnd p f) s = .next t ∧
      t.streamCounters = Table.upd s.streamCounters n (fun c => Table.upd c 2 satInc) ∧
      t.ports[p].counters[0] = satInc s.ports[p].counters[0])

/-! ### Noise monitors (chapter 8) -/

/-- QUIET_COOL_DOWN (R143, R147) and CALM_COOL_DOWN (R144, R147): at the cycle start that is due, the streak that
reaches Q takes a DISTURBED port to WATCH and a WATCH port to CLEAN; both streaks and the count are 0 afterwards, and
no other monitor changes. A streak that does not reach Q is left to CYCLE_START. CYCLE_START makes the check of every
monitor whose check was not made (R140, R143, R144, R147): the streak of a DISTURBED or WATCH port rises, returns to 0 or
takes the port one state down, the count returns to 0, and a port DISTURBED before the check counts a disturbed cycle.
That the check may be taken apart from CYCLE_START, and its mark, are the model's reading (log entry 5). -/
def Obligations.CoolDownStepsOneStateDown : Prop :=
  ∀ s : State, Awake s → s.timer.endE ≤ s.phase →
    let quiet (p : Port) : Nat :=
      if s.noise[p].count = 0 ∧ (s.arc.filter.accepted = false ∨ s.ports[p].arcExposed = false) then
        min 255 (s.noise[p].quiet + 1) else 0
    let calm (p : Port) : Nat :=
      if s.noise[p].count < s.ports[p].thetaW then min 255 (s.noise[p].calm + 1) else 0
    let notice (p : Port) (t : State) (new old : NoiseState) : Prop := s.mgmt.sources[p.val + 1].number ≠ 0 →
      ∃ n ∈ t.mgmt.sources[p.val + 1].pending, n.cycle = s.timer.cycle + 1 ∧
        n.data = .noiseState p new old .coolDown s.noise[p].count 0
    (∀ p : Port, s.noise[p].checked = false →
      (s.noise[p].state = .disturbed → s.ports[p].coolDown ≤ quiet p → ∃ t, exec (.quietCoolDown p) s = .next t ∧
        t.noise[p] = ⟨.watch, 0, 0, 0, true⟩ ∧
        (∀ e : Port, e ≠ p → t.noise[e] = s.noise[e] ∧ t.ports[e] = s.ports[e]) ∧
        t.ports[p] = { s.ports[p] with counters := Table.upd s.ports[p].counters 20 satInc } ∧
        notice p t .watch .disturbed ∧ { t with noise := s.noise, ports := s.ports, mgmt := s.mgmt } = s) ∧
      (s.noise[p].state = .watch → s.ports[p].coolDown ≤ calm p → ∃ t, exec (.calmCoolDown p) s = .next t ∧
        t.noise[p] = ⟨.clean, 0, 0, 0, true⟩ ∧ (∀ e : Port, e ≠ p → t.noise[e] = s.noise[e]) ∧ t.ports = s.ports ∧
        notice p t .clean .watch ∧ { t with noise := s.noise, mgmt := s.mgmt } = s) ∧
      (s.noise[p].state = .disturbed → quiet p < s.ports[p].coolDown → exec (.quietCoolDown p) s = .next s) ∧
      (s.noise[p].state = .watch → calm p < s.ports[p].coolDown → exec (.calmCoolDown p) s = .next s)) ∧
    (∃ t, exec .cycleStart s = .next t ∧ ∀ p : Port,
      (s.noise[p].checked = true → t.noise[p] = { s.noise[p] with checked := false } ∧
        t.ports[p].counters[20] = s.ports[p].counters[20]) ∧
      (s.noise[p].checked = false →
        t.noise[p] =
          (match s.noise[p].state with
           | .disturbed => if s.ports[p].coolDown ≤ quiet p then ⟨.watch, 0, 0, 0, false⟩
             else { s.noise[p] with count := 0, quiet := quiet p }
           | .watch => if s.ports[p].coolDown ≤ calm p then ⟨.clean, 0, 0, 0, false⟩
             else { s.noise[p] with count := 0, calm := calm p }
           | .clean => { s.noise[p] with count := 0 }) ∧
        t.ports[p].counters[20] =
          (if s.noise[p].state = .disturbed then satInc s.ports[p].counters[20] else s.ports[p].counters[20]) ∧
        (t.noise[p].state ≠ s.noise[p].state → notice p t t.noise[p].state s.noise[p].state)))

/-! ### Counters, the first-fault record and the probes (chapters 9 and 10) -/

/-- COUNTERS_READ (R157): group, selector, start index and clear mark are checked in that order, of a stream and a port that
both fail the stream being named (log entry 32); the reply holds up to 13 items from the start index; with the clear mark
1 the counters returned, and no others, become 0, and of the device group a lowest free-cell figure takes its pool's
free-cell figure, which stands (R156). COUNTERS_CLEAR (R156, R158): every counter of the selected group instance becomes
0; the device group's lowest figures take the free-cell figures, which stand. Nothing else changes. -/
def Obligations.CountersReadAndClear : Prop :=
  (∀ (s : State) (q : Request) (rest : List Request), Offers s q rest → q.kind = 0x18 → q.payload.length = 5 →
     (3 < q.b 0 → exec .countersRead s = .next (replied q rest (.badField 0) s)) ∧
     (q.b 0 = 0 → 8 ≤ q.b 2 → exec .countersRead s = .next (replied q rest (.badField 2) s)) ∧
     ((q.b 0 = 1 ∨ q.b 0 = 2) → 128 ≤ q.b 1 → exec .countersRead s = .next (replied q rest (.badField 1) s)) ∧
     (q.b 0 = 2 → q.b 1 < 128 → 8 ≤ q.b 2 → exec .countersRead s = .next (replied q rest (.badField 2) s)) ∧
     (∀ g : CounterGroup,
       (match g with
        | .port p => q.b 0 = 0 ∧ q.b 2 = p.val
        | .stream n => q.b 0 = 1 ∧ q.b 1 = n.val
        | .leg n e => q.b 0 = 2 ∧ q.b 1 = n.val ∧ q.b 2 = e.val
        | .device => q.b 0 = 3) →
       let size := match g with | .port _ => 21 | .stream _ => 3 | .leg _ _ => 13 | .device => 32
       let items : List Nat :=
         match g with
         | .port p => s.ports[p].counters.toList.map BitVec.toNat
         | .stream n => s.streamCounters[n].toList.map BitVec.toNat
         | .leg n e => s.legCounters[legIndex n e].toList.map BitVec.toNat
         | .device => s.deviceCounters.toList.map BitVec.toNat ++
             [s.buffer.motionFree, s.buffer.motionLow, s.buffer.beFree, s.buffer.beLow]
       let answered : State := replied q rest (.counters g (q.b 3) ((items.drop (q.b 3)).take 13)) s
       let shown (i : Nat) : Bool := decide (q.b 3 ≤ i ∧ i < q.b 3 + 13)
       (size ≤ q.b 3 → exec .countersRead s = .next (replied q rest (.badField 3) s)) ∧
       (q.b 3 < size → 1 < q.b 4 → exec .countersRead s = .next (replied q rest (.badField 4) s)) ∧
       (q.b 3 < size → q.b 4 = 0 → exec .countersRead s = .next answered) ∧
       (q.b 3 < size → q.b 4 = 1 → ∃ t, exec .countersRead s = .next t ∧ t.mgmt = answered.mgmt ∧
         (match g with
          | .port p =>
            (∀ i : Fin 21, t.ports[p].counters[i] = if shown i.val then 0 else s.ports[p].counters[i]) ∧
            { t.ports[p] with counters := s.ports[p].counters } = s.ports[p] ∧
            (∀ e : Port, e ≠ p → t.ports[e] = s.ports[e]) ∧ { t with ports := s.ports, mgmt := s.mgmt } = s
          | .stream n =>
            (∀ i : Fin 3, t.streamCounters[n][i] = if shown i.val then 0 else s.streamCounters[n][i]) ∧
            (∀ m : StreamNo, m ≠ n → t.streamCounters[m] = s.streamCounters[m]) ∧
            { t with streamCounters := s.streamCounters, mgmt := s.mgmt } = s
          | .leg n e =>
            (∀ i : Fin 13, t.legCounters[legIndex n e][i] =
              if shown i.val then 0 else s.legCounters[legIndex n e][i]) ∧
            (∀ j : Fin 1024, j ≠ legIndex n e → t.legCounters[j] = s.legCounters[j]) ∧
            { t with legCounters := s.legCounters, mgmt := s.mgmt } = s
          | .device =>
            (∀ i : Fin 28, t.deviceCounters[i] = if shown i.val then 0 else s.deviceCounters[i]) ∧
            t.buffer = { s.buffer with
              motionLow := if shown 29 then s.buffer.motionFree else s.buffer.motionLow
              beLow := if shown 31 then s.buffer.beFree else s.buffer.beLow } ∧
            { t with deviceCounters := s.deviceCounters, buffer := s.buffer, mgmt := s.mgmt } = s)))) ∧
  (∀ (s : State) (q : Request) (rest : List Request), Offers s q rest → q.kind = 0x19 → q.payload.length = 3 →
     (3 < q.b 0 → exec .countersClear s = .next (replied q rest (.badField 0) s)) ∧
     (∀ p : Port, q.b 0 = 0 → q.b 2 = p.val → exec .countersClear s = .next (replied q rest (.countersCleared (.port p))
       { s with ports := Table.upd s.ports p fun u => { u with counters := .replicate 21 0 } })) ∧
     (∀ n : StreamNo, q.b 0 = 1 → q.b 1 = n.val → exec .countersClear s = .next
       (replied q rest (.countersCleared (.stream n))
         { s with streamCounters := Table.upd s.streamCounters n fun _ => .replicate 3 0 })) ∧
     (∀ (n : StreamNo) (e : Port), q.b 0 = 2 → q.b 1 = n.val → q.b 2 = e.val → exec .countersClear s = .next
       (replied q rest (.countersCleared (.leg n e))
         { s with legCounters := Table.upd s.legCounters (legIndex n e) fun _ => .replicate 13 0 })) ∧
     (q.b 0 = 3 → exec .countersClear s = .next (replied q rest (.countersCleared .device)
       { s with
         deviceCounters := .replicate 28 0
         buffer := { s.buffer with motionLow := s.buffer.motionFree, beLow := s.buffer.beFree } })) ∧
     (q.b 0 = 0 → 8 ≤ q.b 2 → exec .countersClear s = .next (replied q rest (.badField 2) s)) ∧
     ((q.b 0 = 1 ∨ q.b 0 = 2) → 128 ≤ q.b 1 → exec .countersClear s = .next (replied q rest (.badField 1) s)) ∧
     (q.b 0 = 2 → q.b 1 < 128 → 8 ≤ q.b 2 → exec .countersClear s = .next (replied q rest (.badField 2) s)))

/-- FAULT_READ and FAULT_UNLOCK (R161) show the record as it stood, and the unlock leaves it OPEN; SET_CAPTURE_MASK
(R162) takes the marks of codes 0 to 21 and leaves the record. Taking a report raises its device total; an OPEN record
whose mask marks the cause takes its fields and locks, with a FIRST_FAULT notice; otherwise the record stands (R153,
R160, R163). The reports of one event are taken in the order of R152: one that names no port first, then by ascending
port, and for one port a LEARN_FULL, then a frame or copy cut off on the wire, then best-effort frames, then motion frames
by ascending stream number; level reports as the event made them. (That the reports wait in one list while the event is
carried out, the mark of a report of a frame cut off, and the order of level reports: log entry 23. SET_CAPTURE_MASK's four
bytes hold code 0 in the lowest bit, as FAULT_READ's do: log entry 9.) -/
def Obligations.FaultRequestsAndCapture : Prop :=
  ((∀ (s : State) (q : Request) (rest : List Request), Offers s q rest → q.payload = [] →
     (q.kind = 0x1A → exec .faultRead s = .next (replied q rest (.fault s.fault.record s.fault.mask) s)) ∧
     (q.kind = 0x1B → exec .faultUnlock s = .next (replied q rest (.fault s.fault.record s.fault.mask)
       { s with fault := { s.fault with record := none } }))) ∧
   (∀ (s : State) (q : Request) (rest : List Request), Offers s q rest → q.kind = 0x1C → q.payload.length = 4 →
     ∃ mask : BitVec 22, (∀ i < 22, mask.getLsbD i = (q.field 0 4).testBit i) ∧
       exec .setCaptureMask s = .next (replied q rest (.captureMask mask s.fault.record.isSome)
         { s with fault := { s.fault with mask := mask } }))) ∧
  (∀ (s : State) (r : Report),
     let t := takeReport s r
     t.deviceCounters = Table.upd s.deviceCounters ⟨r.fields.cause.code.val, by omega⟩ satInc ∧
     t.fault.mask = s.fault.mask ∧ t.fault.inbox = s.fault.inbox ∧
     (s.fault.record = none → s.fault.mask.getLsbD r.fields.cause.code.val = true →
       t.fault.record = some r.fields ∧
       (s.mgmt.sources[10].number ≠ 0 → ∃ n ∈ t.mgmt.sources[10].pending,
         n.cycle = r.fields.cycle ∧ n.data = .firstFault r.fields)) ∧
     ((s.fault.record ≠ none ∨ s.fault.mask.getLsbD r.fields.cause.code.val = false) →
       t.fault.record = s.fault.record ∧ t.mgmt = s.mgmt) ∧
     { t with deviceCounters := s.deviceCounters, fault := s.fault, mgmt := s.mgmt } = s) ∧
  (∀ s : State,
     let turn (r : Report) : Nat :=
       if r.fields.cause = .learnFull then 0 else if r.cutOff then 1
       else match r.fields.stream with
         | none => 2
         | some n => n.val + 3
     ∃ rs : List Report, rs.Perm s.fault.inbox ∧
       takeReports s = rs.foldl takeReport { s with fault := { s.fault with inbox := [] } } ∧
       rs.Pairwise (fun a b =>
         match a.fields.port, b.fields.port with
         | none, _ => True
         | some _, none => False
         | some p, some p' => p < p' ∨ (p = p' ∧ turn a ≤ turn b)) ∧
       ∀ (p : Option Port) (k : Nat),
         rs.filter (fun r => r.fields.port = p ∧ turn r = k) =
           s.fault.inbox.filter (fun r => r.fields.port = p ∧ turn r = k))

/-- A LOCKED first-fault record keeps its contents through every step but a FAULT_UNLOCK and the two resets (R159,
R160, R161). -/
def Obligations.LockedRecordKeepsItsContents : Prop :=
  ∀ (s t : State) (r : FaultRecord) (c : Instr), s.fault.record = some r → c ≠ .faultUnlock → c ≠ .restart →
    (∀ high, c ≠ .resetN high) → exec c s = .next t → t.fault.record = some r

/-- PROBE_ARM (R165; of several numbers out of range the first is named: log entry 32), PROBE_READ and PROBE_CANCEL
(R170). PROBE_EXPIRY (R168, R171): at the cycle start that is due, an ARMED probe whose deadline count reaches 0 becomes
EXPIRED, with the number of the cycle that begins, and raises PROBE_DONE. A probe with cycles left is left to CYCLE_START,
which lowers the count of every ARMED probe by one, makes it EXPIRED at 0, and CANCELLED when the commit frees its stream
(R168, R169). (PROBE_READ's and PROBE_CANCEL's byte is the probe number: log entry 9; the expiry apart from CYCLE_START: log
entry 5; R169 leaves open whether at a cycle start the commit or the count comes first: that the commit does, so that a
probe with one cycle left whose stream it frees is CANCELLED, is the model's, DESIGN CHOICE, log entry 10.) -/
def Obligations.ProbeRequestsAndExpiry : Prop :=
  ((∀ (s : State) (q : Request) (rest : List Request), Offers s q rest → q.kind = 0x1E → q.payload.length = 7 →
     (4 ≤ q.b 0 → exec .probeArm s = .next (replied q rest (.badField 0) s)) ∧
     (q.b 0 < 4 → 128 ≤ q.b 1 → exec .probeArm s = .next (replied q rest (.badField 1) s)) ∧
     (q.b 0 < 4 → q.b 1 < 128 → 8 ≤ q.b 2 → exec .probeArm s = .next (replied q rest (.badField 2) s)) ∧
     (∀ (i : Fin 4) (n : StreamNo) (e : Port), q.b 0 = i.val → q.b 1 = n.val → q.b 2 = e.val →
       let watched := ∃ x, s.streams[n] = some x ∧ x.stage = .active ∧ ∃ l ∈ x.legs, l.egress = e
       let deadline := max 1 (min 65535 (q.field 3 4))
       (¬watched → exec .probeArm s = .next (replied q rest (.plain .noSuch) s)) ∧
       (watched → exec .probeArm s = .next (replied q rest
         (.probeArmed i deadline s.timer.cycle s.probes[i].state)
         { s with probes := Table.upd s.probes i fun _ => .armed ⟨n, e, s.timer.cycle, deadline⟩ })))) ∧
   (∀ (s : State) (q : Request) (rest : List Request), Offers s q rest → q.payload.length = 1 →
     (4 ≤ q.b 0 → q.kind = 0x1F → exec .probeRead s = .next (replied q rest (.badField 0) s)) ∧
     (4 ≤ q.b 0 → q.kind = 0x20 → exec .probeCancel s = .next (replied q rest (.badField 0) s)) ∧
     (∀ i : Fin 4, q.b 0 = i.val →
       (q.kind = 0x1F → exec .probeRead s = .next (replied q rest (.probe i s.probes[i]) s)) ∧
       (q.kind = 0x20 → exec .probeCancel s = .next (replied q rest (.probeCancelled s.probes[i].state)
         { s with probes := Table.upd s.probes i fun _ => .idle }))))) ∧
  (∀ (s : State) (q : Fin 4) (w : Watch), Awake s → s.timer.endE ≤ s.phase → s.probes[q] = .armed w →
     (w.remaining ≤ 1 → ∃ t, exec (.probeExpiry q) s = .next t ∧
       t.probes = (Table.upd s.probes q fun _ => .expired { w with remaining := 0 } (s.timer.cycle + 1)) ∧
       (s.mgmt.sources[11].number ≠ 0 → ∃ n ∈ t.mgmt.sources[11].pending,
         n.cycle = s.timer.cycle + 1 ∧ n.data = .probeDone q w.stream w.egress none) ∧
       { t with probes := s.probes, mgmt := s.mgmt } = s) ∧
     (1 < w.remaining → exec (.probeExpiry q) s = .next s)) ∧
  (∀ s : State, Awake s → s.timer.endE ≤ s.phase → ∃ t, exec .cycleStart s = .next t ∧ ∀ q : Fin 4,
     ((∀ w, s.probes[q] ≠ .armed w) → t.probes[q] = s.probes[q]) ∧
     (∀ w, s.probes[q] = .armed w →
       let freed := s.engine.commitDue = true ∧ ∃ x, s.streams[w.stream] = some x ∧ x.stage = .releasing
       (freed → t.probes[q] = .cancelled w (s.timer.cycle + 1)) ∧
       (¬freed → w.remaining ≤ 1 → t.probes[q] = .expired { w with remaining := 0 } (s.timer.cycle + 1)) ∧
       (¬freed → 1 < w.remaining → t.probes[q] = .armed { w with remaining := w.remaining - 1 })))

/-! ### Queries -/

/-- SYNC_STATUS (R15) and PORT_STATUS (R30): their items as they stand, and no change but the taken request and its
reply. (PORT_STATUS's byte is the port: log entry 9.) -/
def Obligations.SyncAndPortStatus : Prop :=
  (∀ (s : State) (q : Request) (rest : List Request), Offers s q rest → q.kind = 0x05 → q.payload = [] →
    exec .syncStatus s = .next (replied q rest (.syncStatus
      { settings := ⟨s.timer.lambda, s.timer.sigma, s.timer.holdLimit, s.timer.cyc.interval,
          decide (s.timer.sync ≠ .disabled), s.timer.sync⟩
        m := s.timer.n * 1000, nextM := s.timer.nextN.map (· * 1000), cycle := s.timer.cycle
        phase := (s.timer.grain - s.timer.start).toNat, endE := s.timer.endE, adjust := s.timer.adjust
        currentMark := s.timer.currentMark, nextMark := s.timer.nextMark, realigned := s.timer.realigned
        outRun := s.timer.outRun, missRun := s.timer.missRun, grain := s.timer.grain
        lastStrobe := s.timer.lastStrobe }) s)) ∧
  (∀ (s : State) (q : Request) (rest : List Request), Offers s q rest → q.kind = 0x08 → q.payload.length = 1 →
    (8 ≤ q.b 0 → exec .portStatus s = .next (replied q rest (.badField 0) s)) ∧
    (∀ p : Port, q.b 0 = p.val →
      let legs (x : LegState) : Nat := ((List.finRange 128).filter fun n : StreamNo =>
        match s.streams[n] with
        | none => false
        | some y => (y.stage == .active || y.stage == .releasing) &&
            y.legs.any fun l => l.egress == p && l.state == some x).length
      exec .portStatus s = .next (replied q rest (.portStatus p
        { link := s.ports[p].link, restartMarker := s.ports[p].restartMarker, lastEvent := s.ports[p].lastEvent
          settings := s.ports[p].settings, flags := s.ports[p].flags, noise := s.noise[p].state
          beCount := s.egress[p].beCount, live := legs .live, dormant := legs .dormant, mismatch := legs .mismatch
          suspended := legs .suspended }) s)))

/-- STREAM_STATUS (R58), LEG_STATUS (R59) and TIMELINE_READ (R97). ADDR_READ (R135): up to four entries at or above
the index, in ascending position, and the next index. (STREAM_STATUS's byte is the stream number, ADDR_READ's two the
index: log entry 9; of two fields that both fail LEG_STATUS and TIMELINE_READ name the one of the lower offset: log entry
32.) -/
def Obligations.StreamLegTimelineAndAddressQueries : Prop :=
  ((∀ (s : State) (q : Request) (rest : List Request), Offers s q rest → q.kind = 0x0B → q.payload.length = 1 →
     (128 ≤ q.b 0 → exec .streamStatus s = .next (replied q rest (.badField 0) s)) ∧
     (∀ n : StreamNo, q.b 0 = n.val →
       (s.streams[n] = none → exec .streamStatus s = .next (replied q rest .streamFree s)) ∧
       (∀ x, s.streams[n] = some x → exec .streamStatus s = .next (replied q rest (.streamStatus
         { stage := x.stage, desc := x.desc, cells := 2 * x.desc.k * ((x.desc.lmax + 127) / 128), alive := x.alive
           firstActive := x.firstActive, releaseQueued := x.releaseQueued
           legs := x.legs.map fun l => (l.egress, l.state), unreserved := s.streamCounters[n][2] }) s)))) ∧
   (∀ (s : State) (q : Request) (rest : List Request), Offers s q rest → q.kind = 0x0C → q.payload.length = 2 →
     (128 ≤ q.b 0 → exec .legStatus s = .next (replied q rest (.badField 0) s)) ∧
     (q.b 0 < 128 → 8 ≤ q.b 1 → exec .legStatus s = .next (replied q rest (.badField 1) s)) ∧
     (∀ (n : StreamNo) (e : Port), q.b 0 = n.val → q.b 1 = e.val →
       (s.leg n e = none → exec .legStatus s = .next (replied q rest (.plain .noSuch) s)) ∧
       (∀ x l, s.streams[n] = some x → s.leg n e = some l → exec .legStatus s = .next (replied q rest (.legStatus
         { stage := x.stage, state := l.state, placement := l.placement, pendingPl := l.pendingPl
           slot := l.slot.length, retained := l.retained.length, missStreak := l.missStreak
           missNotified := l.missNotified }) s)))) ∧
   (∀ (s : State) (q : Request) (rest : List Request), Offers s q rest → q.kind = 0x11 → q.payload.length = 3 →
     (8 ≤ q.b 0 → exec .timelineRead s = .next (replied q rest (.badField 0) s)) ∧
     (q.b 0 < 8 → 255 < q.field 1 2 → exec .timelineRead s = .next (replied q rest (.badField 1) s)) ∧
     (∀ e : Port, q.b 0 = e.val → q.field 1 2 ≤ 255 → exec .timelineRead s = .next (replied q rest (.timeline
       { egress := e, lastCommit := s.engine.lastCommit, count := s.egress[e].timeline.length
         reserved := (s.egress[e].timeline.map fun w => w.stop - w.start).sum, index := q.field 1 2
         records := (s.egress[e].timeline.drop (q.field 1 2)).take 4 }) s)))) ∧
  (∀ (s : State) (q : Request) (rest : List Request), Offers s q rest → AddrOk s.addr.entries → q.kind = 0x14 →
     q.payload.length = 2 →
     (1023 < q.field 0 2 → exec .addrRead s = .next (replied q rest (.badField 0) s)) ∧
     (q.field 0 2 ≤ 1023 → ∃ page next,
       exec .addrRead s = .next (replied q rest (.addrPage s.addr.entries.length page next) s) ∧ page.length ≤ 4 ∧
       (page.map (·.pos)).Pairwise (· < ·) ∧
       (∀ x, x ∈ page ↔ x ∈ s.addr.entries ∧ q.field 0 2 ≤ x.pos ∧ x.pos < next) ∧
       (next = 1024 ∨ (page.length = 4 ∧ (∃ x ∈ s.addr.entries, next ≤ x.pos) ∧ ∃ x ∈ page, next = x.pos + 1))))

/-! ### What every step keeps -/

/-- The machine after reset has the invariant that every step keeps: the bounds of the queues and pending sets, the cells
of both pools, the order and keys of the address table, and the stream table, host queue, pool accounting and timelines in
order (R43, R55, R61, R71, R72, R81, R122, R126, R156, R174 to R176). -/
def Obligations.ResetHasTheInvariant : Prop := Inv State.reset

/-- Every step keeps the bounds of the management link's queues and pending sets (R174, R175, R176), the cells of both
pools (R122, R124, R156), the order of the address table (R126, R130), the keys and alive counts of the stream table (R43,
R55), at most eight host entries (R81), at most 512 cells in the pool accounting (R71), and both timelines of every egress
in start order, without an overlap and with at most 256 windows (R61, R72). What the invariant says beside this of the engine's
ops, streams and current operation (R40, R47, R79 to R90) is what these bounds need from one step to the next. -/
def Obligations.EveryStepKeepsTheInvariant : Prop := ∀ s t : State, Inv s → step s = .next t → Inv t

/-- An active timeline changes at a cycle start and at the two resets only (R91, R99): no other command adds, moves or
removes a window of any egress. A commit guard that has been reached lasts as long, also when the scheduled end moves
(R86). -/
def Obligations.ActiveTimelinesChangeAtCycleStartsOnly : Prop :=
  ∀ (s t : State) (c : Instr), c ≠ .cycleStart → c ≠ .restart → (∀ high, c ≠ .resetN high) → exec c s = .next t →
    (∀ e : Port, t.egress[e].timeline = s.egress[e].timeline) ∧ (Guarded s → Guarded t)

/-- The events of the part's blocks leave the host's side alone: the queues (R174) and the transfer (R172) of the
management link, MODE, which only the release of RESET_N samples (R180), the arbitration numbers, which SET_NOTICE changes
(R178), the production lock (R96), the capture mask, which SET_CAPTURE_MASK changes (R162), and the commands that wait
(the model's own queue: log entry 31). -/
def Obligations.EventsLeaveTheHostSideAlone : Prop :=
  ∀ (s t : State) (c : Instr),
    ((∃ p, c ∈ [Instr.linkDown p, .linkUp p, .linkUpOtherSpeed p, .readyTime p, .windowOpen p, .windowClose p,
        .twinWindowOpen p, .twinWindowClose p, .transmissionEnd p, .quietCoolDown p, .calmCoolDown p, .receptionStart p]) ∨
      (∃ p f, c = .frameEnd p f) ∨ (∃ q, c = .probeExpiry q) ∨ (∃ l v, c = .filterSample l v) ∨
      c ∈ [Instr.cycleStart, .syncLost, .strobe, .cycFall, .arcOn, .arcOff, .legStep, .placeOpEnd, .repairEnd,
        .agingSweep]) →
    exec c s = .next t →
    t.mgmt.inbound = s.mgmt.inbound ∧ t.mgmt.outbound = s.mgmt.outbound ∧ t.mgmt.transfer = s.mgmt.transfer ∧
      t.mgmt.mode = s.mgmt.mode ∧ (∀ i : Fin 12, t.mgmt.sources[i].number = s.mgmt.sources[i].number) ∧
      t.engine.locked = s.engine.locked ∧ t.fault.mask = s.fault.mask ∧ t.pending = s.pending
end

