-- ==== Sys2Proof/Laws/State.lean ====
section
/-! SUPPORT. What each update of one block leaves and what it changes, field by field, so that no later proof unfolds a
record update. -/

namespace Sys2Proof.Machine

/-- An entry of a table after an entry was changed. -/
theorem upd_get {α : Type} {n : Nat} (v : Table α n) (i j : Fin n) (f : α → α) :
    (Table.upd v i f)[j] = if j = i then f v[i] else v[j] := by
  by_cases h : j = i
  · subst h; simp [Table.upd]
  · have h' : (i : Nat) ≠ j := fun x => h (Fin.ext x.symm)
    simp [Table.upd, h', h]

/-- An entry of a table after that entry was changed. -/
@[simp] theorem upd_same {α : Type} {n : Nat} (v : Table α n) (i : Fin n) (f : α → α) :
    (Table.upd v i f)[(i : Nat)] = f v[(i : Nat)] := by
  simp [Table.upd]

/-- Any other entry of a table after one was changed. -/
theorem upd_other {α : Type} {n : Nat} (v : Table α n) (i j : Fin n) (f : α → α) (h : j ≠ i) :
    (Table.upd v i f)[j] = v[j] := by
  rw [upd_get, if_neg h]

@[simp] theorem State.modTimer_resetLow (f : Timer → Timer) (s : State) : (s.modTimer f).resetLow = s.resetLow := rfl
@[simp] theorem State.modTimer_timer (f : Timer → Timer) (s : State) : (s.modTimer f).timer = f s.timer := rfl
@[simp] theorem State.modTimer_ports (f : Timer → Timer) (s : State) : (s.modTimer f).ports = s.ports := rfl
@[simp] theorem State.modTimer_streams (f : Timer → Timer) (s : State) : (s.modTimer f).streams = s.streams := rfl
@[simp] theorem State.modTimer_streamCounters (f : Timer → Timer) (s : State) : (s.modTimer f).streamCounters = s.streamCounters := rfl
@[simp] theorem State.modTimer_legCounters (f : Timer → Timer) (s : State) : (s.modTimer f).legCounters = s.legCounters := rfl
@[simp] theorem State.modTimer_engine (f : Timer → Timer) (s : State) : (s.modTimer f).engine = s.engine := rfl
@[simp] theorem State.modTimer_egress (f : Timer → Timer) (s : State) : (s.modTimer f).egress = s.egress := rfl
@[simp] theorem State.modTimer_buffer (f : Timer → Timer) (s : State) : (s.modTimer f).buffer = s.buffer := rfl
@[simp] theorem State.modTimer_addr (f : Timer → Timer) (s : State) : (s.modTimer f).addr = s.addr := rfl
@[simp] theorem State.modTimer_noise (f : Timer → Timer) (s : State) : (s.modTimer f).noise = s.noise := rfl
@[simp] theorem State.modTimer_arc (f : Timer → Timer) (s : State) : (s.modTimer f).arc = s.arc := rfl
@[simp] theorem State.modTimer_fault (f : Timer → Timer) (s : State) : (s.modTimer f).fault = s.fault := rfl
@[simp] theorem State.modTimer_deviceCounters (f : Timer → Timer) (s : State) : (s.modTimer f).deviceCounters = s.deviceCounters := rfl
@[simp] theorem State.modTimer_probes (f : Timer → Timer) (s : State) : (s.modTimer f).probes = s.probes := rfl
@[simp] theorem State.modTimer_mgmt (f : Timer → Timer) (s : State) : (s.modTimer f).mgmt = s.mgmt := rfl
@[simp] theorem State.modTimer_pending (f : Timer → Timer) (s : State) : (s.modTimer f).pending = s.pending := rfl

@[simp] theorem State.modPort_resetLow (p : Port) (f : PortUnit → PortUnit) (s : State) : (s.modPort p f).resetLow = s.resetLow := rfl
@[simp] theorem State.modPort_timer (p : Port) (f : PortUnit → PortUnit) (s : State) : (s.modPort p f).timer = s.timer := rfl
@[simp] theorem State.modPort_ports (p : Port) (f : PortUnit → PortUnit) (s : State) : (s.modPort p f).ports = Table.upd s.ports p f := rfl
@[simp] theorem State.modPort_streams (p : Port) (f : PortUnit → PortUnit) (s : State) : (s.modPort p f).streams = s.streams := rfl
@[simp] theorem State.modPort_streamCounters (p : Port) (f : PortUnit → PortUnit) (s : State) : (s.modPort p f).streamCounters = s.streamCounters := rfl
@[simp] theorem State.modPort_legCounters (p : Port) (f : PortUnit → PortUnit) (s : State) : (s.modPort p f).legCounters = s.legCounters := rfl
@[simp] theorem State.modPort_engine (p : Port) (f : PortUnit → PortUnit) (s : State) : (s.modPort p f).engine = s.engine := rfl
@[simp] theorem State.modPort_egress (p : Port) (f : PortUnit → PortUnit) (s : State) : (s.modPort p f).egress = s.egress := rfl
@[simp] theorem State.modPort_buffer (p : Port) (f : PortUnit → PortUnit) (s : State) : (s.modPort p f).buffer = s.buffer := rfl
@[simp] theorem State.modPort_addr (p : Port) (f : PortUnit → PortUnit) (s : State) : (s.modPort p f).addr = s.addr := rfl
@[simp] theorem State.modPort_noise (p : Port) (f : PortUnit → PortUnit) (s : State) : (s.modPort p f).noise = s.noise := rfl
@[simp] theorem State.modPort_arc (p : Port) (f : PortUnit → PortUnit) (s : State) : (s.modPort p f).arc = s.arc := rfl
@[simp] theorem State.modPort_fault (p : Port) (f : PortUnit → PortUnit) (s : State) : (s.modPort p f).fault = s.fault := rfl
@[simp] theorem State.modPort_deviceCounters (p : Port) (f : PortUnit → PortUnit) (s : State) : (s.modPort p f).deviceCounters = s.deviceCounters := rfl
@[simp] theorem State.modPort_probes (p : Port) (f : PortUnit → PortUnit) (s : State) : (s.modPort p f).probes = s.probes := rfl
@[simp] theorem State.modPort_mgmt (p : Port) (f : PortUnit → PortUnit) (s : State) : (s.modPort p f).mgmt = s.mgmt := rfl
@[simp] theorem State.modPort_pending (p : Port) (f : PortUnit → PortUnit) (s : State) : (s.modPort p f).pending = s.pending := rfl

@[simp] theorem State.setStream_resetLow (n : StreamNo) (x : Option Stream) (s : State) : (s.setStream n x).resetLow = s.resetLow := rfl
@[simp] theorem State.setStream_timer (n : StreamNo) (x : Option Stream) (s : State) : (s.setStream n x).timer = s.timer := rfl
@[simp] theorem State.setStream_ports (n : StreamNo) (x : Option Stream) (s : State) : (s.setStream n x).ports = s.ports := rfl
@[simp] theorem State.setStream_streams (n : StreamNo) (x : Option Stream) (s : State) : (s.setStream n x).streams = Table.upd s.streams n fun _ => x := rfl
@[simp] theorem State.setStream_streamCounters (n : StreamNo) (x : Option Stream) (s : State) : (s.setStream n x).streamCounters = s.streamCounters := rfl
@[simp] theorem State.setStream_legCounters (n : StreamNo) (x : Option Stream) (s : State) : (s.setStream n x).legCounters = s.legCounters := rfl
@[simp] theorem State.setStream_engine (n : StreamNo) (x : Option Stream) (s : State) : (s.setStream n x).engine = s.engine := rfl
@[simp] theorem State.setStream_egress (n : StreamNo) (x : Option Stream) (s : State) : (s.setStream n x).egress = s.egress := rfl
@[simp] theorem State.setStream_buffer (n : StreamNo) (x : Option Stream) (s : State) : (s.setStream n x).buffer = s.buffer := rfl
@[simp] theorem State.setStream_addr (n : StreamNo) (x : Option Stream) (s : State) : (s.setStream n x).addr = s.addr := rfl
@[simp] theorem State.setStream_noise (n : StreamNo) (x : Option Stream) (s : State) : (s.setStream n x).noise = s.noise := rfl
@[simp] theorem State.setStream_arc (n : StreamNo) (x : Option Stream) (s : State) : (s.setStream n x).arc = s.arc := rfl
@[simp] theorem State.setStream_fault (n : StreamNo) (x : Option Stream) (s : State) : (s.setStream n x).fault = s.fault := rfl
@[simp] theorem State.setStream_deviceCounters (n : StreamNo) (x : Option Stream) (s : State) : (s.setStream n x).deviceCounters = s.deviceCounters := rfl
@[simp] theorem State.setStream_probes (n : StreamNo) (x : Option Stream) (s : State) : (s.setStream n x).probes = s.probes := rfl
@[simp] theorem State.setStream_mgmt (n : StreamNo) (x : Option Stream) (s : State) : (s.setStream n x).mgmt = s.mgmt := rfl
@[simp] theorem State.setStream_pending (n : StreamNo) (x : Option Stream) (s : State) : (s.setStream n x).pending = s.pending := rfl

@[simp] theorem State.modEngine_resetLow (f : Engine → Engine) (s : State) : (s.modEngine f).resetLow = s.resetLow := rfl
@[simp] theorem State.modEngine_timer (f : Engine → Engine) (s : State) : (s.modEngine f).timer = s.timer := rfl
@[simp] theorem State.modEngine_ports (f : Engine → Engine) (s : State) : (s.modEngine f).ports = s.ports := rfl
@[simp] theorem State.modEngine_streams (f : Engine → Engine) (s : State) : (s.modEngine f).streams = s.streams := rfl
@[simp] theorem State.modEngine_streamCounters (f : Engine → Engine) (s : State) : (s.modEngine f).streamCounters = s.streamCounters := rfl
@[simp] theorem State.modEngine_legCounters (f : Engine → Engine) (s : State) : (s.modEngine f).legCounters = s.legCounters := rfl
@[simp] theorem State.modEngine_engine (f : Engine → Engine) (s : State) : (s.modEngine f).engine = f s.engine := rfl
@[simp] theorem State.modEngine_egress (f : Engine → Engine) (s : State) : (s.modEngine f).egress = s.egress := rfl
@[simp] theorem State.modEngine_buffer (f : Engine → Engine) (s : State) : (s.modEngine f).buffer = s.buffer := rfl
@[simp] theorem State.modEngine_addr (f : Engine → Engine) (s : State) : (s.modEngine f).addr = s.addr := rfl
@[simp] theorem State.modEngine_noise (f : Engine → Engine) (s : State) : (s.modEngine f).noise = s.noise := rfl
@[simp] theorem State.modEngine_arc (f : Engine → Engine) (s : State) : (s.modEngine f).arc = s.arc := rfl
@[simp] theorem State.modEngine_fault (f : Engine → Engine) (s : State) : (s.modEngine f).fault = s.fault := rfl
@[simp] theorem State.modEngine_deviceCounters (f : Engine → Engine) (s : State) : (s.modEngine f).deviceCounters = s.deviceCounters := rfl
@[simp] theorem State.modEngine_probes (f : Engine → Engine) (s : State) : (s.modEngine f).probes = s.probes := rfl
@[simp] theorem State.modEngine_mgmt (f : Engine → Engine) (s : State) : (s.modEngine f).mgmt = s.mgmt := rfl
@[simp] theorem State.modEngine_pending (f : Engine → Engine) (s : State) : (s.modEngine f).pending = s.pending := rfl

@[simp] theorem State.modEgress_resetLow (e : Port) (f : Egress → Egress) (s : State) : (s.modEgress e f).resetLow = s.resetLow := rfl
@[simp] theorem State.modEgress_timer (e : Port) (f : Egress → Egress) (s : State) : (s.modEgress e f).timer = s.timer := rfl
@[simp] theorem State.modEgress_ports (e : Port) (f : Egress → Egress) (s : State) : (s.modEgress e f).ports = s.ports := rfl
@[simp] theorem State.modEgress_streams (e : Port) (f : Egress → Egress) (s : State) : (s.modEgress e f).streams = s.streams := rfl
@[simp] theorem State.modEgress_streamCounters (e : Port) (f : Egress → Egress) (s : State) : (s.modEgress e f).streamCounters = s.streamCounters := rfl
@[simp] theorem State.modEgress_legCounters (e : Port) (f : Egress → Egress) (s : State) : (s.modEgress e f).legCounters = s.legCounters := rfl
@[simp] theorem State.modEgress_engine (e : Port) (f : Egress → Egress) (s : State) : (s.modEgress e f).engine = s.engine := rfl
@[simp] theorem State.modEgress_egress (e : Port) (f : Egress → Egress) (s : State) : (s.modEgress e f).egress = Table.upd s.egress e f := rfl
@[simp] theorem State.modEgress_buffer (e : Port) (f : Egress → Egress) (s : State) : (s.modEgress e f).buffer = s.buffer := rfl
@[simp] theorem State.modEgress_addr (e : Port) (f : Egress → Egress) (s : State) : (s.modEgress e f).addr = s.addr := rfl
@[simp] theorem State.modEgress_noise (e : Port) (f : Egress → Egress) (s : State) : (s.modEgress e f).noise = s.noise := rfl
@[simp] theorem State.modEgress_arc (e : Port) (f : Egress → Egress) (s : State) : (s.modEgress e f).arc = s.arc := rfl
@[simp] theorem State.modEgress_fault (e : Port) (f : Egress → Egress) (s : State) : (s.modEgress e f).fault = s.fault := rfl
@[simp] theorem State.modEgress_deviceCounters (e : Port) (f : Egress → Egress) (s : State) : (s.modEgress e f).deviceCounters = s.deviceCounters := rfl
@[simp] theorem State.modEgress_probes (e : Port) (f : Egress → Egress) (s : State) : (s.modEgress e f).probes = s.probes := rfl
@[simp] theorem State.modEgress_mgmt (e : Port) (f : Egress → Egress) (s : State) : (s.modEgress e f).mgmt = s.mgmt := rfl
@[simp] theorem State.modEgress_pending (e : Port) (f : Egress → Egress) (s : State) : (s.modEgress e f).pending = s.pending := rfl

@[simp] theorem State.modBuffer_resetLow (f : FrameBuffer → FrameBuffer) (s : State) : (s.modBuffer f).resetLow = s.resetLow := rfl
@[simp] theorem State.modBuffer_timer (f : FrameBuffer → FrameBuffer) (s : State) : (s.modBuffer f).timer = s.timer := rfl
@[simp] theorem State.modBuffer_ports (f : FrameBuffer → FrameBuffer) (s : State) : (s.modBuffer f).ports = s.ports := rfl
@[simp] theorem State.modBuffer_streams (f : FrameBuffer → FrameBuffer) (s : State) : (s.modBuffer f).streams = s.streams := rfl
@[simp] theorem State.modBuffer_streamCounters (f : FrameBuffer → FrameBuffer) (s : State) : (s.modBuffer f).streamCounters = s.streamCounters := rfl
@[simp] theorem State.modBuffer_legCounters (f : FrameBuffer → FrameBuffer) (s : State) : (s.modBuffer f).legCounters = s.legCounters := rfl
@[simp] theorem State.modBuffer_engine (f : FrameBuffer → FrameBuffer) (s : State) : (s.modBuffer f).engine = s.engine := rfl
@[simp] theorem State.modBuffer_egress (f : FrameBuffer → FrameBuffer) (s : State) : (s.modBuffer f).egress = s.egress := rfl
@[simp] theorem State.modBuffer_buffer (f : FrameBuffer → FrameBuffer) (s : State) : (s.modBuffer f).buffer = f s.buffer := rfl
@[simp] theorem State.modBuffer_addr (f : FrameBuffer → FrameBuffer) (s : State) : (s.modBuffer f).addr = s.addr := rfl
@[simp] theorem State.modBuffer_noise (f : FrameBuffer → FrameBuffer) (s : State) : (s.modBuffer f).noise = s.noise := rfl
@[simp] theorem State.modBuffer_arc (f : FrameBuffer → FrameBuffer) (s : State) : (s.modBuffer f).arc = s.arc := rfl
@[simp] theorem State.modBuffer_fault (f : FrameBuffer → FrameBuffer) (s : State) : (s.modBuffer f).fault = s.fault := rfl
@[simp] theorem State.modBuffer_deviceCounters (f : FrameBuffer → FrameBuffer) (s : State) : (s.modBuffer f).deviceCounters = s.deviceCounters := rfl
@[simp] theorem State.modBuffer_probes (f : FrameBuffer → FrameBuffer) (s : State) : (s.modBuffer f).probes = s.probes := rfl
@[simp] theorem State.modBuffer_mgmt (f : FrameBuffer → FrameBuffer) (s : State) : (s.modBuffer f).mgmt = s.mgmt := rfl
@[simp] theorem State.modBuffer_pending (f : FrameBuffer → FrameBuffer) (s : State) : (s.modBuffer f).pending = s.pending := rfl

@[simp] theorem State.modAddr_resetLow (f : AddrTable → AddrTable) (s : State) : (s.modAddr f).resetLow = s.resetLow := rfl
@[simp] theorem State.modAddr_timer (f : AddrTable → AddrTable) (s : State) : (s.modAddr f).timer = s.timer := rfl
@[simp] theorem State.modAddr_ports (f : AddrTable → AddrTable) (s : State) : (s.modAddr f).ports = s.ports := rfl
@[simp] theorem State.modAddr_streams (f : AddrTable → AddrTable) (s : State) : (s.modAddr f).streams = s.streams := rfl
@[simp] theorem State.modAddr_streamCounters (f : AddrTable → AddrTable) (s : State) : (s.modAddr f).streamCounters = s.streamCounters := rfl
@[simp] theorem State.modAddr_legCounters (f : AddrTable → AddrTable) (s : State) : (s.modAddr f).legCounters = s.legCounters := rfl
@[simp] theorem State.modAddr_engine (f : AddrTable → AddrTable) (s : State) : (s.modAddr f).engine = s.engine := rfl
@[simp] theorem State.modAddr_egress (f : AddrTable → AddrTable) (s : State) : (s.modAddr f).egress = s.egress := rfl
@[simp] theorem State.modAddr_buffer (f : AddrTable → AddrTable) (s : State) : (s.modAddr f).buffer = s.buffer := rfl
@[simp] theorem State.modAddr_addr (f : AddrTable → AddrTable) (s : State) : (s.modAddr f).addr = f s.addr := rfl
@[simp] theorem State.modAddr_noise (f : AddrTable → AddrTable) (s : State) : (s.modAddr f).noise = s.noise := rfl
@[simp] theorem State.modAddr_arc (f : AddrTable → AddrTable) (s : State) : (s.modAddr f).arc = s.arc := rfl
@[simp] theorem State.modAddr_fault (f : AddrTable → AddrTable) (s : State) : (s.modAddr f).fault = s.fault := rfl
@[simp] theorem State.modAddr_deviceCounters (f : AddrTable → AddrTable) (s : State) : (s.modAddr f).deviceCounters = s.deviceCounters := rfl
@[simp] theorem State.modAddr_probes (f : AddrTable → AddrTable) (s : State) : (s.modAddr f).probes = s.probes := rfl
@[simp] theorem State.modAddr_mgmt (f : AddrTable → AddrTable) (s : State) : (s.modAddr f).mgmt = s.mgmt := rfl
@[simp] theorem State.modAddr_pending (f : AddrTable → AddrTable) (s : State) : (s.modAddr f).pending = s.pending := rfl

@[simp] theorem State.modNoise_resetLow (p : Port) (f : Monitor → Monitor) (s : State) : (s.modNoise p f).resetLow = s.resetLow := rfl
@[simp] theorem State.modNoise_timer (p : Port) (f : Monitor → Monitor) (s : State) : (s.modNoise p f).timer = s.timer := rfl
@[simp] theorem State.modNoise_ports (p : Port) (f : Monitor → Monitor) (s : State) : (s.modNoise p f).ports = s.ports := rfl
@[simp] theorem State.modNoise_streams (p : Port) (f : Monitor → Monitor) (s : State) : (s.modNoise p f).streams = s.streams := rfl
@[simp] theorem State.modNoise_streamCounters (p : Port) (f : Monitor → Monitor) (s : State) : (s.modNoise p f).streamCounters = s.streamCounters := rfl
@[simp] theorem State.modNoise_legCounters (p : Port) (f : Monitor → Monitor) (s : State) : (s.modNoise p f).legCounters = s.legCounters := rfl
@[simp] theorem State.modNoise_engine (p : Port) (f : Monitor → Monitor) (s : State) : (s.modNoise p f).engine = s.engine := rfl
@[simp] theorem State.modNoise_egress (p : Port) (f : Monitor → Monitor) (s : State) : (s.modNoise p f).egress = s.egress := rfl
@[simp] theorem State.modNoise_buffer (p : Port) (f : Monitor → Monitor) (s : State) : (s.modNoise p f).buffer = s.buffer := rfl
@[simp] theorem State.modNoise_addr (p : Port) (f : Monitor → Monitor) (s : State) : (s.modNoise p f).addr = s.addr := rfl
@[simp] theorem State.modNoise_noise (p : Port) (f : Monitor → Monitor) (s : State) : (s.modNoise p f).noise = Table.upd s.noise p f := rfl
@[simp] theorem State.modNoise_arc (p : Port) (f : Monitor → Monitor) (s : State) : (s.modNoise p f).arc = s.arc := rfl
@[simp] theorem State.modNoise_fault (p : Port) (f : Monitor → Monitor) (s : State) : (s.modNoise p f).fault = s.fault := rfl
@[simp] theorem State.modNoise_deviceCounters (p : Port) (f : Monitor → Monitor) (s : State) : (s.modNoise p f).deviceCounters = s.deviceCounters := rfl
@[simp] theorem State.modNoise_probes (p : Port) (f : Monitor → Monitor) (s : State) : (s.modNoise p f).probes = s.probes := rfl
@[simp] theorem State.modNoise_mgmt (p : Port) (f : Monitor → Monitor) (s : State) : (s.modNoise p f).mgmt = s.mgmt := rfl
@[simp] theorem State.modNoise_pending (p : Port) (f : Monitor → Monitor) (s : State) : (s.modNoise p f).pending = s.pending := rfl

@[simp] theorem State.modArc_resetLow (f : ArcLine → ArcLine) (s : State) : (s.modArc f).resetLow = s.resetLow := rfl
@[simp] theorem State.modArc_timer (f : ArcLine → ArcLine) (s : State) : (s.modArc f).timer = s.timer := rfl
@[simp] theorem State.modArc_ports (f : ArcLine → ArcLine) (s : State) : (s.modArc f).ports = s.ports := rfl
@[simp] theorem State.modArc_streams (f : ArcLine → ArcLine) (s : State) : (s.modArc f).streams = s.streams := rfl
@[simp] theorem State.modArc_streamCounters (f : ArcLine → ArcLine) (s : State) : (s.modArc f).streamCounters = s.streamCounters := rfl
@[simp] theorem State.modArc_legCounters (f : ArcLine → ArcLine) (s : State) : (s.modArc f).legCounters = s.legCounters := rfl
@[simp] theorem State.modArc_engine (f : ArcLine → ArcLine) (s : State) : (s.modArc f).engine = s.engine := rfl
@[simp] theorem State.modArc_egress (f : ArcLine → ArcLine) (s : State) : (s.modArc f).egress = s.egress := rfl
@[simp] theorem State.modArc_buffer (f : ArcLine → ArcLine) (s : State) : (s.modArc f).buffer = s.buffer := rfl
@[simp] theorem State.modArc_addr (f : ArcLine → ArcLine) (s : State) : (s.modArc f).addr = s.addr := rfl
@[simp] theorem State.modArc_noise (f : ArcLine → ArcLine) (s : State) : (s.modArc f).noise = s.noise := rfl
@[simp] theorem State.modArc_arc (f : ArcLine → ArcLine) (s : State) : (s.modArc f).arc = f s.arc := rfl
@[simp] theorem State.modArc_fault (f : ArcLine → ArcLine) (s : State) : (s.modArc f).fault = s.fault := rfl
@[simp] theorem State.modArc_deviceCounters (f : ArcLine → ArcLine) (s : State) : (s.modArc f).deviceCounters = s.deviceCounters := rfl
@[simp] theorem State.modArc_probes (f : ArcLine → ArcLine) (s : State) : (s.modArc f).probes = s.probes := rfl
@[simp] theorem State.modArc_mgmt (f : ArcLine → ArcLine) (s : State) : (s.modArc f).mgmt = s.mgmt := rfl
@[simp] theorem State.modArc_pending (f : ArcLine → ArcLine) (s : State) : (s.modArc f).pending = s.pending := rfl

@[simp] theorem State.modFault_resetLow (f : FaultUnit → FaultUnit) (s : State) : (s.modFault f).resetLow = s.resetLow := rfl
@[simp] theorem State.modFault_timer (f : FaultUnit → FaultUnit) (s : State) : (s.modFault f).timer = s.timer := rfl
@[simp] theorem State.modFault_ports (f : FaultUnit → FaultUnit) (s : State) : (s.modFault f).ports = s.ports := rfl
@[simp] theorem State.modFault_streams (f : FaultUnit → FaultUnit) (s : State) : (s.modFault f).streams = s.streams := rfl
@[simp] theorem State.modFault_streamCounters (f : FaultUnit → FaultUnit) (s : State) : (s.modFault f).streamCounters = s.streamCounters := rfl
@[simp] theorem State.modFault_legCounters (f : FaultUnit → FaultUnit) (s : State) : (s.modFault f).legCounters = s.legCounters := rfl
@[simp] theorem State.modFault_engine (f : FaultUnit → FaultUnit) (s : State) : (s.modFault f).engine = s.engine := rfl
@[simp] theorem State.modFault_egress (f : FaultUnit → FaultUnit) (s : State) : (s.modFault f).egress = s.egress := rfl
@[simp] theorem State.modFault_buffer (f : FaultUnit → FaultUnit) (s : State) : (s.modFault f).buffer = s.buffer := rfl
@[simp] theorem State.modFault_addr (f : FaultUnit → FaultUnit) (s : State) : (s.modFault f).addr = s.addr := rfl
@[simp] theorem State.modFault_noise (f : FaultUnit → FaultUnit) (s : State) : (s.modFault f).noise = s.noise := rfl
@[simp] theorem State.modFault_arc (f : FaultUnit → FaultUnit) (s : State) : (s.modFault f).arc = s.arc := rfl
@[simp] theorem State.modFault_fault (f : FaultUnit → FaultUnit) (s : State) : (s.modFault f).fault = f s.fault := rfl
@[simp] theorem State.modFault_deviceCounters (f : FaultUnit → FaultUnit) (s : State) : (s.modFault f).deviceCounters = s.deviceCounters := rfl
@[simp] theorem State.modFault_probes (f : FaultUnit → FaultUnit) (s : State) : (s.modFault f).probes = s.probes := rfl
@[simp] theorem State.modFault_mgmt (f : FaultUnit → FaultUnit) (s : State) : (s.modFault f).mgmt = s.mgmt := rfl
@[simp] theorem State.modFault_pending (f : FaultUnit → FaultUnit) (s : State) : (s.modFault f).pending = s.pending := rfl

@[simp] theorem State.setProbe_resetLow (q : Fin 4) (x : Probe) (s : State) : (s.setProbe q x).resetLow = s.resetLow := rfl
@[simp] theorem State.setProbe_timer (q : Fin 4) (x : Probe) (s : State) : (s.setProbe q x).timer = s.timer := rfl
@[simp] theorem State.setProbe_ports (q : Fin 4) (x : Probe) (s : State) : (s.setProbe q x).ports = s.ports := rfl
@[simp] theorem State.setProbe_streams (q : Fin 4) (x : Probe) (s : State) : (s.setProbe q x).streams = s.streams := rfl
@[simp] theorem State.setProbe_streamCounters (q : Fin 4) (x : Probe) (s : State) : (s.setProbe q x).streamCounters = s.streamCounters := rfl
@[simp] theorem State.setProbe_legCounters (q : Fin 4) (x : Probe) (s : State) : (s.setProbe q x).legCounters = s.legCounters := rfl
@[simp] theorem State.setProbe_engine (q : Fin 4) (x : Probe) (s : State) : (s.setProbe q x).engine = s.engine := rfl
@[simp] theorem State.setProbe_egress (q : Fin 4) (x : Probe) (s : State) : (s.setProbe q x).egress = s.egress := rfl
@[simp] theorem State.setProbe_buffer (q : Fin 4) (x : Probe) (s : State) : (s.setProbe q x).buffer = s.buffer := rfl
@[simp] theorem State.setProbe_addr (q : Fin 4) (x : Probe) (s : State) : (s.setProbe q x).addr = s.addr := rfl
@[simp] theorem State.setProbe_noise (q : Fin 4) (x : Probe) (s : State) : (s.setProbe q x).noise = s.noise := rfl
@[simp] theorem State.setProbe_arc (q : Fin 4) (x : Probe) (s : State) : (s.setProbe q x).arc = s.arc := rfl
@[simp] theorem State.setProbe_fault (q : Fin 4) (x : Probe) (s : State) : (s.setProbe q x).fault = s.fault := rfl
@[simp] theorem State.setProbe_deviceCounters (q : Fin 4) (x : Probe) (s : State) : (s.setProbe q x).deviceCounters = s.deviceCounters := rfl
@[simp] theorem State.setProbe_probes (q : Fin 4) (x : Probe) (s : State) : (s.setProbe q x).probes = Table.upd s.probes q fun _ => x := rfl
@[simp] theorem State.setProbe_mgmt (q : Fin 4) (x : Probe) (s : State) : (s.setProbe q x).mgmt = s.mgmt := rfl
@[simp] theorem State.setProbe_pending (q : Fin 4) (x : Probe) (s : State) : (s.setProbe q x).pending = s.pending := rfl

@[simp] theorem State.modMgmt_resetLow (f : MgmtLink → MgmtLink) (s : State) : (s.modMgmt f).resetLow = s.resetLow := rfl
@[simp] theorem State.modMgmt_timer (f : MgmtLink → MgmtLink) (s : State) : (s.modMgmt f).timer = s.timer := rfl
@[simp] theorem State.modMgmt_ports (f : MgmtLink → MgmtLink) (s : State) : (s.modMgmt f).ports = s.ports := rfl
@[simp] theorem State.modMgmt_streams (f : MgmtLink → MgmtLink) (s : State) : (s.modMgmt f).streams = s.streams := rfl
@[simp] theorem State.modMgmt_streamCounters (f : MgmtLink → MgmtLink) (s : State) : (s.modMgmt f).streamCounters = s.streamCounters := rfl
@[simp] theorem State.modMgmt_legCounters (f : MgmtLink → MgmtLink) (s : State) : (s.modMgmt f).legCounters = s.legCounters := rfl
@[simp] theorem State.modMgmt_engine (f : MgmtLink → MgmtLink) (s : State) : (s.modMgmt f).engine = s.engine := rfl
@[simp] theorem State.modMgmt_egress (f : MgmtLink → MgmtLink) (s : State) : (s.modMgmt f).egress = s.egress := rfl
@[simp] theorem State.modMgmt_buffer (f : MgmtLink → MgmtLink) (s : State) : (s.modMgmt f).buffer = s.buffer := rfl
@[simp] theorem State.modMgmt_addr (f : MgmtLink → MgmtLink) (s : State) : (s.modMgmt f).addr = s.addr := rfl
@[simp] theorem State.modMgmt_noise (f : MgmtLink → MgmtLink) (s : State) : (s.modMgmt f).noise = s.noise := rfl
@[simp] theorem State.modMgmt_arc (f : MgmtLink → MgmtLink) (s : State) : (s.modMgmt f).arc = s.arc := rfl
@[simp] theorem State.modMgmt_fault (f : MgmtLink → MgmtLink) (s : State) : (s.modMgmt f).fault = s.fault := rfl
@[simp] theorem State.modMgmt_deviceCounters (f : MgmtLink → MgmtLink) (s : State) : (s.modMgmt f).deviceCounters = s.deviceCounters := rfl
@[simp] theorem State.modMgmt_probes (f : MgmtLink → MgmtLink) (s : State) : (s.modMgmt f).probes = s.probes := rfl
@[simp] theorem State.modMgmt_mgmt (f : MgmtLink → MgmtLink) (s : State) : (s.modMgmt f).mgmt = f s.mgmt := rfl
@[simp] theorem State.modMgmt_pending (f : MgmtLink → MgmtLink) (s : State) : (s.modMgmt f).pending = s.pending := rfl

@[simp] theorem State.modStream_resetLow (n : StreamNo) (f : Stream → Stream) (s : State) : (s.modStream n f).resetLow = s.resetLow := rfl
@[simp] theorem State.modStream_timer (n : StreamNo) (f : Stream → Stream) (s : State) : (s.modStream n f).timer = s.timer := rfl
@[simp] theorem State.modStream_ports (n : StreamNo) (f : Stream → Stream) (s : State) : (s.modStream n f).ports = s.ports := rfl
@[simp] theorem State.modStream_streams (n : StreamNo) (f : Stream → Stream) (s : State) : (s.modStream n f).streams = Table.upd s.streams n fun _ => s.streams[n].map f := rfl
@[simp] theorem State.modStream_streamCounters (n : StreamNo) (f : Stream → Stream) (s : State) : (s.modStream n f).streamCounters = s.streamCounters := rfl
@[simp] theorem State.modStream_legCounters (n : StreamNo) (f : Stream → Stream) (s : State) : (s.modStream n f).legCounters = s.legCounters := rfl
@[simp] theorem State.modStream_engine (n : StreamNo) (f : Stream → Stream) (s : State) : (s.modStream n f).engine = s.engine := rfl
@[simp] theorem State.modStream_egress (n : StreamNo) (f : Stream → Stream) (s : State) : (s.modStream n f).egress = s.egress := rfl
@[simp] theorem State.modStream_buffer (n : StreamNo) (f : Stream → Stream) (s : State) : (s.modStream n f).buffer = s.buffer := rfl
@[simp] theorem State.modStream_addr (n : StreamNo) (f : Stream → Stream) (s : State) : (s.modStream n f).addr = s.addr := rfl
@[simp] theorem State.modStream_noise (n : StreamNo) (f : Stream → Stream) (s : State) : (s.modStream n f).noise = s.noise := rfl
@[simp] theorem State.modStream_arc (n : StreamNo) (f : Stream → Stream) (s : State) : (s.modStream n f).arc = s.arc := rfl
@[simp] theorem State.modStream_fault (n : StreamNo) (f : Stream → Stream) (s : State) : (s.modStream n f).fault = s.fault := rfl
@[simp] theorem State.modStream_deviceCounters (n : StreamNo) (f : Stream → Stream) (s : State) : (s.modStream n f).deviceCounters = s.deviceCounters := rfl
@[simp] theorem State.modStream_probes (n : StreamNo) (f : Stream → Stream) (s : State) : (s.modStream n f).probes = s.probes := rfl
@[simp] theorem State.modStream_mgmt (n : StreamNo) (f : Stream → Stream) (s : State) : (s.modStream n f).mgmt = s.mgmt := rfl
@[simp] theorem State.modStream_pending (n : StreamNo) (f : Stream → Stream) (s : State) : (s.modStream n f).pending = s.pending := rfl

@[simp] theorem State.modLeg_resetLow (n : StreamNo) (e : Port) (f : Leg → Leg) (s : State) : (s.modLeg n e f).resetLow = s.resetLow := rfl
@[simp] theorem State.modLeg_timer (n : StreamNo) (e : Port) (f : Leg → Leg) (s : State) : (s.modLeg n e f).timer = s.timer := rfl
@[simp] theorem State.modLeg_ports (n : StreamNo) (e : Port) (f : Leg → Leg) (s : State) : (s.modLeg n e f).ports = s.ports := rfl
@[simp] theorem State.modLeg_streamCounters (n : StreamNo) (e : Port) (f : Leg → Leg) (s : State) : (s.modLeg n e f).streamCounters = s.streamCounters := rfl
@[simp] theorem State.modLeg_legCounters (n : StreamNo) (e : Port) (f : Leg → Leg) (s : State) : (s.modLeg n e f).legCounters = s.legCounters := rfl
@[simp] theorem State.modLeg_engine (n : StreamNo) (e : Port) (f : Leg → Leg) (s : State) : (s.modLeg n e f).engine = s.engine := rfl
@[simp] theorem State.modLeg_egress (n : StreamNo) (e : Port) (f : Leg → Leg) (s : State) : (s.modLeg n e f).egress = s.egress := rfl
@[simp] theorem State.modLeg_buffer (n : StreamNo) (e : Port) (f : Leg → Leg) (s : State) : (s.modLeg n e f).buffer = s.buffer := rfl
@[simp] theorem State.modLeg_addr (n : StreamNo) (e : Port) (f : Leg → Leg) (s : State) : (s.modLeg n e f).addr = s.addr := rfl
@[simp] theorem State.modLeg_noise (n : StreamNo) (e : Port) (f : Leg → Leg) (s : State) : (s.modLeg n e f).noise = s.noise := rfl
@[simp] theorem State.modLeg_arc (n : StreamNo) (e : Port) (f : Leg → Leg) (s : State) : (s.modLeg n e f).arc = s.arc := rfl
@[simp] theorem State.modLeg_fault (n : StreamNo) (e : Port) (f : Leg → Leg) (s : State) : (s.modLeg n e f).fault = s.fault := rfl
@[simp] theorem State.modLeg_deviceCounters (n : StreamNo) (e : Port) (f : Leg → Leg) (s : State) : (s.modLeg n e f).deviceCounters = s.deviceCounters := rfl
@[simp] theorem State.modLeg_probes (n : StreamNo) (e : Port) (f : Leg → Leg) (s : State) : (s.modLeg n e f).probes = s.probes := rfl
@[simp] theorem State.modLeg_mgmt (n : StreamNo) (e : Port) (f : Leg → Leg) (s : State) : (s.modLeg n e f).mgmt = s.mgmt := rfl
@[simp] theorem State.modLeg_pending (n : StreamNo) (e : Port) (f : Leg → Leg) (s : State) : (s.modLeg n e f).pending = s.pending := rfl

@[simp] theorem bumpPort_resetLow (p : Port) (c : PortCounter) (s : State) : (bumpPort p c s).resetLow = s.resetLow := rfl
@[simp] theorem bumpPort_timer (p : Port) (c : PortCounter) (s : State) : (bumpPort p c s).timer = s.timer := rfl
@[simp] theorem bumpPort_streams (p : Port) (c : PortCounter) (s : State) : (bumpPort p c s).streams = s.streams := rfl
@[simp] theorem bumpPort_streamCounters (p : Port) (c : PortCounter) (s : State) : (bumpPort p c s).streamCounters = s.streamCounters := rfl
@[simp] theorem bumpPort_legCounters (p : Port) (c : PortCounter) (s : State) : (bumpPort p c s).legCounters = s.legCounters := rfl
@[simp] theorem bumpPort_engine (p : Port) (c : PortCounter) (s : State) : (bumpPort p c s).engine = s.engine := rfl
@[simp] theorem bumpPort_egress (p : Port) (c : PortCounter) (s : State) : (bumpPort p c s).egress = s.egress := rfl
@[simp] theorem bumpPort_buffer (p : Port) (c : PortCounter) (s : State) : (bumpPort p c s).buffer = s.buffer := rfl
@[simp] theorem bumpPort_addr (p : Port) (c : PortCounter) (s : State) : (bumpPort p c s).addr = s.addr := rfl
@[simp] theorem bumpPort_noise (p : Port) (c : PortCounter) (s : State) : (bumpPort p c s).noise = s.noise := rfl
@[simp] theorem bumpPort_arc (p : Port) (c : PortCounter) (s : State) : (bumpPort p c s).arc = s.arc := rfl
@[simp] theorem bumpPort_fault (p : Port) (c : PortCounter) (s : State) : (bumpPort p c s).fault = s.fault := rfl
@[simp] theorem bumpPort_deviceCounters (p : Port) (c : PortCounter) (s : State) : (bumpPort p c s).deviceCounters = s.deviceCounters := rfl
@[simp] theorem bumpPort_probes (p : Port) (c : PortCounter) (s : State) : (bumpPort p c s).probes = s.probes := rfl
@[simp] theorem bumpPort_mgmt (p : Port) (c : PortCounter) (s : State) : (bumpPort p c s).mgmt = s.mgmt := rfl
@[simp] theorem bumpPort_pending (p : Port) (c : PortCounter) (s : State) : (bumpPort p c s).pending = s.pending := rfl

@[simp] theorem bumpLeg_resetLow (n : StreamNo) (e : Port) (c : LegCounter) (s : State) : (bumpLeg n e c s).resetLow = s.resetLow := rfl
@[simp] theorem bumpLeg_timer (n : StreamNo) (e : Port) (c : LegCounter) (s : State) : (bumpLeg n e c s).timer = s.timer := rfl
@[simp] theorem bumpLeg_ports (n : StreamNo) (e : Port) (c : LegCounter) (s : State) : (bumpLeg n e c s).ports = s.ports := rfl
@[simp] theorem bumpLeg_streams (n : StreamNo) (e : Port) (c : LegCounter) (s : State) : (bumpLeg n e c s).streams = s.streams := rfl
@[simp] theorem bumpLeg_streamCounters (n : StreamNo) (e : Port) (c : LegCounter) (s : State) : (bumpLeg n e c s).streamCounters = s.streamCounters := rfl
@[simp] theorem bumpLeg_engine (n : StreamNo) (e : Port) (c : LegCounter) (s : State) : (bumpLeg n e c s).engine = s.engine := rfl
@[simp] theorem bumpLeg_egress (n : StreamNo) (e : Port) (c : LegCounter) (s : State) : (bumpLeg n e c s).egress = s.egress := rfl
@[simp] theorem bumpLeg_buffer (n : StreamNo) (e : Port) (c : LegCounter) (s : State) : (bumpLeg n e c s).buffer = s.buffer := rfl
@[simp] theorem bumpLeg_addr (n : StreamNo) (e : Port) (c : LegCounter) (s : State) : (bumpLeg n e c s).addr = s.addr := rfl
@[simp] theorem bumpLeg_noise (n : StreamNo) (e : Port) (c : LegCounter) (s : State) : (bumpLeg n e c s).noise = s.noise := rfl
@[simp] theorem bumpLeg_arc (n : StreamNo) (e : Port) (c : LegCounter) (s : State) : (bumpLeg n e c s).arc = s.arc := rfl
@[simp] theorem bumpLeg_fault (n : StreamNo) (e : Port) (c : LegCounter) (s : State) : (bumpLeg n e c s).fault = s.fault := rfl
@[simp] theorem bumpLeg_deviceCounters (n : StreamNo) (e : Port) (c : LegCounter) (s : State) : (bumpLeg n e c s).deviceCounters = s.deviceCounters := rfl
@[simp] theorem bumpLeg_probes (n : StreamNo) (e : Port) (c : LegCounter) (s : State) : (bumpLeg n e c s).probes = s.probes := rfl
@[simp] theorem bumpLeg_mgmt (n : StreamNo) (e : Port) (c : LegCounter) (s : State) : (bumpLeg n e c s).mgmt = s.mgmt := rfl
@[simp] theorem bumpLeg_pending (n : StreamNo) (e : Port) (c : LegCounter) (s : State) : (bumpLeg n e c s).pending = s.pending := rfl

@[simp] theorem bumpStream_resetLow (n : StreamNo) (c : StreamCounter) (s : State) : (bumpStream n c s).resetLow = s.resetLow := rfl
@[simp] theorem bumpStream_timer (n : StreamNo) (c : StreamCounter) (s : State) : (bumpStream n c s).timer = s.timer := rfl
@[simp] theorem bumpStream_ports (n : StreamNo) (c : StreamCounter) (s : State) : (bumpStream n c s).ports = s.ports := rfl
@[simp] theorem bumpStream_streams (n : StreamNo) (c : StreamCounter) (s : State) : (bumpStream n c s).streams = s.streams := rfl
@[simp] theorem bumpStream_legCounters (n : StreamNo) (c : StreamCounter) (s : State) : (bumpStream n c s).legCounters = s.legCounters := rfl
@[simp] theorem bumpStream_engine (n : StreamNo) (c : StreamCounter) (s : State) : (bumpStream n c s).engine = s.engine := rfl
@[simp] theorem bumpStream_egress (n : StreamNo) (c : StreamCounter) (s : State) : (bumpStream n c s).egress = s.egress := rfl
@[simp] theorem bumpStream_buffer (n : StreamNo) (c : StreamCounter) (s : State) : (bumpStream n c s).buffer = s.buffer := rfl
@[simp] theorem bumpStream_addr (n : StreamNo) (c : StreamCounter) (s : State) : (bumpStream n c s).addr = s.addr := rfl
@[simp] theorem bumpStream_noise (n : StreamNo) (c : StreamCounter) (s : State) : (bumpStream n c s).noise = s.noise := rfl
@[simp] theorem bumpStream_arc (n : StreamNo) (c : StreamCounter) (s : State) : (bumpStream n c s).arc = s.arc := rfl
@[simp] theorem bumpStream_fault (n : StreamNo) (c : StreamCounter) (s : State) : (bumpStream n c s).fault = s.fault := rfl
@[simp] theorem bumpStream_deviceCounters (n : StreamNo) (c : StreamCounter) (s : State) : (bumpStream n c s).deviceCounters = s.deviceCounters := rfl
@[simp] theorem bumpStream_probes (n : StreamNo) (c : StreamCounter) (s : State) : (bumpStream n c s).probes = s.probes := rfl
@[simp] theorem bumpStream_mgmt (n : StreamNo) (c : StreamCounter) (s : State) : (bumpStream n c s).mgmt = s.mgmt := rfl
@[simp] theorem bumpStream_pending (n : StreamNo) (c : StreamCounter) (s : State) : (bumpStream n c s).pending = s.pending := rfl

@[simp] theorem bumpDevice_resetLow (c : DeviceCounter) (s : State) : (bumpDevice c s).resetLow = s.resetLow := rfl
@[simp] theorem bumpDevice_timer (c : DeviceCounter) (s : State) : (bumpDevice c s).timer = s.timer := rfl
@[simp] theorem bumpDevice_ports (c : DeviceCounter) (s : State) : (bumpDevice c s).ports = s.ports := rfl
@[simp] theorem bumpDevice_streams (c : DeviceCounter) (s : State) : (bumpDevice c s).streams = s.streams := rfl
@[simp] theorem bumpDevice_streamCounters (c : DeviceCounter) (s : State) : (bumpDevice c s).streamCounters = s.streamCounters := rfl
@[simp] theorem bumpDevice_legCounters (c : DeviceCounter) (s : State) : (bumpDevice c s).legCounters = s.legCounters := rfl
@[simp] theorem bumpDevice_engine (c : DeviceCounter) (s : State) : (bumpDevice c s).engine = s.engine := rfl
@[simp] theorem bumpDevice_egress (c : DeviceCounter) (s : State) : (bumpDevice c s).egress = s.egress := rfl
@[simp] theorem bumpDevice_buffer (c : DeviceCounter) (s : State) : (bumpDevice c s).buffer = s.buffer := rfl
@[simp] theorem bumpDevice_addr (c : DeviceCounter) (s : State) : (bumpDevice c s).addr = s.addr := rfl
@[simp] theorem bumpDevice_noise (c : DeviceCounter) (s : State) : (bumpDevice c s).noise = s.noise := rfl
@[simp] theorem bumpDevice_arc (c : DeviceCounter) (s : State) : (bumpDevice c s).arc = s.arc := rfl
@[simp] theorem bumpDevice_fault (c : DeviceCounter) (s : State) : (bumpDevice c s).fault = s.fault := rfl
@[simp] theorem bumpDevice_probes (c : DeviceCounter) (s : State) : (bumpDevice c s).probes = s.probes := rfl
@[simp] theorem bumpDevice_mgmt (c : DeviceCounter) (s : State) : (bumpDevice c s).mgmt = s.mgmt := rfl
@[simp] theorem bumpDevice_pending (c : DeviceCounter) (s : State) : (bumpDevice c s).pending = s.pending := rfl

@[simp] theorem setFlag_resetLow (p : Port) (x : Flag) (s : State) : (setFlag p x s).resetLow = s.resetLow := rfl
@[simp] theorem setFlag_timer (p : Port) (x : Flag) (s : State) : (setFlag p x s).timer = s.timer := rfl
@[simp] theorem setFlag_streams (p : Port) (x : Flag) (s : State) : (setFlag p x s).streams = s.streams := rfl
@[simp] theorem setFlag_streamCounters (p : Port) (x : Flag) (s : State) : (setFlag p x s).streamCounters = s.streamCounters := rfl
@[simp] theorem setFlag_legCounters (p : Port) (x : Flag) (s : State) : (setFlag p x s).legCounters = s.legCounters := rfl
@[simp] theorem setFlag_engine (p : Port) (x : Flag) (s : State) : (setFlag p x s).engine = s.engine := rfl
@[simp] theorem setFlag_egress (p : Port) (x : Flag) (s : State) : (setFlag p x s).egress = s.egress := rfl
@[simp] theorem setFlag_buffer (p : Port) (x : Flag) (s : State) : (setFlag p x s).buffer = s.buffer := rfl
@[simp] theorem setFlag_addr (p : Port) (x : Flag) (s : State) : (setFlag p x s).addr = s.addr := rfl
@[simp] theorem setFlag_noise (p : Port) (x : Flag) (s : State) : (setFlag p x s).noise = s.noise := rfl
@[simp] theorem setFlag_arc (p : Port) (x : Flag) (s : State) : (setFlag p x s).arc = s.arc := rfl
@[simp] theorem setFlag_fault (p : Port) (x : Flag) (s : State) : (setFlag p x s).fault = s.fault := rfl
@[simp] theorem setFlag_deviceCounters (p : Port) (x : Flag) (s : State) : (setFlag p x s).deviceCounters = s.deviceCounters := rfl
@[simp] theorem setFlag_probes (p : Port) (x : Flag) (s : State) : (setFlag p x s).probes = s.probes := rfl
@[simp] theorem setFlag_mgmt (p : Port) (x : Flag) (s : State) : (setFlag p x s).mgmt = s.mgmt := rfl
@[simp] theorem setFlag_pending (p : Port) (x : Flag) (s : State) : (setFlag p x s).pending = s.pending := rfl

@[simp] theorem report_resetLow (c : Cause) (x : Place) (n : Option StreamNo) (s : State) : (report c x n s).resetLow = s.resetLow := rfl
@[simp] theorem report_timer (c : Cause) (x : Place) (n : Option StreamNo) (s : State) : (report c x n s).timer = s.timer := rfl
@[simp] theorem report_ports (c : Cause) (x : Place) (n : Option StreamNo) (s : State) : (report c x n s).ports = s.ports := rfl
@[simp] theorem report_streams (c : Cause) (x : Place) (n : Option StreamNo) (s : State) : (report c x n s).streams = s.streams := rfl
@[simp] theorem report_streamCounters (c : Cause) (x : Place) (n : Option StreamNo) (s : State) : (report c x n s).streamCounters = s.streamCounters := rfl
@[simp] theorem report_legCounters (c : Cause) (x : Place) (n : Option StreamNo) (s : State) : (report c x n s).legCounters = s.legCounters := rfl
@[simp] theorem report_engine (c : Cause) (x : Place) (n : Option StreamNo) (s : State) : (report c x n s).engine = s.engine := rfl
@[simp] theorem report_egress (c : Cause) (x : Place) (n : Option StreamNo) (s : State) : (report c x n s).egress = s.egress := rfl
@[simp] theorem report_buffer (c : Cause) (x : Place) (n : Option StreamNo) (s : State) : (report c x n s).buffer = s.buffer := rfl
@[simp] theorem report_addr (c : Cause) (x : Place) (n : Option StreamNo) (s : State) : (report c x n s).addr = s.addr := rfl
@[simp] theorem report_noise (c : Cause) (x : Place) (n : Option StreamNo) (s : State) : (report c x n s).noise = s.noise := rfl
@[simp] theorem report_arc (c : Cause) (x : Place) (n : Option StreamNo) (s : State) : (report c x n s).arc = s.arc := rfl
@[simp] theorem report_deviceCounters (c : Cause) (x : Place) (n : Option StreamNo) (s : State) : (report c x n s).deviceCounters = s.deviceCounters := rfl
@[simp] theorem report_probes (c : Cause) (x : Place) (n : Option StreamNo) (s : State) : (report c x n s).probes = s.probes := rfl
@[simp] theorem report_mgmt (c : Cause) (x : Place) (n : Option StreamNo) (s : State) : (report c x n s).mgmt = s.mgmt := rfl
@[simp] theorem report_pending (c : Cause) (x : Place) (n : Option StreamNo) (s : State) : (report c x n s).pending = s.pending := rfl

@[simp] theorem reportCutOff_resetLow (e : Port) (n : Option StreamNo) (s : State) : (reportCutOff e n s).resetLow = s.resetLow := rfl
@[simp] theorem reportCutOff_timer (e : Port) (n : Option StreamNo) (s : State) : (reportCutOff e n s).timer = s.timer := rfl
@[simp] theorem reportCutOff_ports (e : Port) (n : Option StreamNo) (s : State) : (reportCutOff e n s).ports = s.ports := rfl
@[simp] theorem reportCutOff_streams (e : Port) (n : Option StreamNo) (s : State) : (reportCutOff e n s).streams = s.streams := rfl
@[simp] theorem reportCutOff_streamCounters (e : Port) (n : Option StreamNo) (s : State) : (reportCutOff e n s).streamCounters = s.streamCounters := rfl
@[simp] theorem reportCutOff_legCounters (e : Port) (n : Option StreamNo) (s : State) : (reportCutOff e n s).legCounters = s.legCounters := rfl
@[simp] theorem reportCutOff_engine (e : Port) (n : Option StreamNo) (s : State) : (reportCutOff e n s).engine = s.engine := rfl
@[simp] theorem reportCutOff_egress (e : Port) (n : Option StreamNo) (s : State) : (reportCutOff e n s).egress = s.egress := rfl
@[simp] theorem reportCutOff_buffer (e : Port) (n : Option StreamNo) (s : State) : (reportCutOff e n s).buffer = s.buffer := rfl
@[simp] theorem reportCutOff_addr (e : Port) (n : Option StreamNo) (s : State) : (reportCutOff e n s).addr = s.addr := rfl
@[simp] theorem reportCutOff_noise (e : Port) (n : Option StreamNo) (s : State) : (reportCutOff e n s).noise = s.noise := rfl
@[simp] theorem reportCutOff_arc (e : Port) (n : Option StreamNo) (s : State) : (reportCutOff e n s).arc = s.arc := rfl
@[simp] theorem reportCutOff_deviceCounters (e : Port) (n : Option StreamNo) (s : State) : (reportCutOff e n s).deviceCounters = s.deviceCounters := rfl
@[simp] theorem reportCutOff_probes (e : Port) (n : Option StreamNo) (s : State) : (reportCutOff e n s).probes = s.probes := rfl
@[simp] theorem reportCutOff_mgmt (e : Port) (n : Option StreamNo) (s : State) : (reportCutOff e n s).mgmt = s.mgmt := rfl
@[simp] theorem reportCutOff_pending (e : Port) (n : Option StreamNo) (s : State) : (reportCutOff e n s).pending = s.pending := rfl

@[simp] theorem reportWith_resetLow (c : Cause) (x : Place) (n : Option StreamNo) (i : Option Port) (z : Option Stamp) (s : State) : (reportWith c x n i z s).resetLow = s.resetLow := rfl
@[simp] theorem reportWith_timer (c : Cause) (x : Place) (n : Option StreamNo) (i : Option Port) (z : Option Stamp) (s : State) : (reportWith c x n i z s).timer = s.timer := rfl
@[simp] theorem reportWith_ports (c : Cause) (x : Place) (n : Option StreamNo) (i : Option Port) (z : Option Stamp) (s : State) : (reportWith c x n i z s).ports = s.ports := rfl
@[simp] theorem reportWith_streams (c : Cause) (x : Place) (n : Option StreamNo) (i : Option Port) (z : Option Stamp) (s : State) : (reportWith c x n i z s).streams = s.streams := rfl
@[simp] theorem reportWith_streamCounters (c : Cause) (x : Place) (n : Option StreamNo) (i : Option Port) (z : Option Stamp) (s : State) : (reportWith c x n i z s).streamCounters = s.streamCounters := rfl
@[simp] theorem reportWith_legCounters (c : Cause) (x : Place) (n : Option StreamNo) (i : Option Port) (z : Option Stamp) (s : State) : (reportWith c x n i z s).legCounters = s.legCounters := rfl
@[simp] theorem reportWith_engine (c : Cause) (x : Place) (n : Option StreamNo) (i : Option Port) (z : Option Stamp) (s : State) : (reportWith c x n i z s).engine = s.engine := rfl
@[simp] theorem reportWith_egress (c : Cause) (x : Place) (n : Option StreamNo) (i : Option Port) (z : Option Stamp) (s : State) : (reportWith c x n i z s).egress = s.egress := rfl
@[simp] theorem reportWith_buffer (c : Cause) (x : Place) (n : Option StreamNo) (i : Option Port) (z : Option Stamp) (s : State) : (reportWith c x n i z s).buffer = s.buffer := rfl
@[simp] theorem reportWith_addr (c : Cause) (x : Place) (n : Option StreamNo) (i : Option Port) (z : Option Stamp) (s : State) : (reportWith c x n i z s).addr = s.addr := rfl
@[simp] theorem reportWith_noise (c : Cause) (x : Place) (n : Option StreamNo) (i : Option Port) (z : Option Stamp) (s : State) : (reportWith c x n i z s).noise = s.noise := rfl
@[simp] theorem reportWith_arc (c : Cause) (x : Place) (n : Option StreamNo) (i : Option Port) (z : Option Stamp) (s : State) : (reportWith c x n i z s).arc = s.arc := rfl
@[simp] theorem reportWith_deviceCounters (c : Cause) (x : Place) (n : Option StreamNo) (i : Option Port) (z : Option Stamp) (s : State) : (reportWith c x n i z s).deviceCounters = s.deviceCounters := rfl
@[simp] theorem reportWith_probes (c : Cause) (x : Place) (n : Option StreamNo) (i : Option Port) (z : Option Stamp) (s : State) : (reportWith c x n i z s).probes = s.probes := rfl
@[simp] theorem reportWith_mgmt (c : Cause) (x : Place) (n : Option StreamNo) (i : Option Port) (z : Option Stamp) (s : State) : (reportWith c x n i z s).mgmt = s.mgmt := rfl
@[simp] theorem reportWith_pending (c : Cause) (x : Place) (n : Option StreamNo) (i : Option Port) (z : Option Stamp) (s : State) : (reportWith c x n i z s).pending = s.pending := rfl

@[simp] theorem push_resetLow (b : RecordBody) (s : State) : (push b s).resetLow = s.resetLow := rfl
@[simp] theorem push_timer (b : RecordBody) (s : State) : (push b s).timer = s.timer := rfl
@[simp] theorem push_ports (b : RecordBody) (s : State) : (push b s).ports = s.ports := rfl
@[simp] theorem push_streams (b : RecordBody) (s : State) : (push b s).streams = s.streams := rfl
@[simp] theorem push_streamCounters (b : RecordBody) (s : State) : (push b s).streamCounters = s.streamCounters := rfl
@[simp] theorem push_legCounters (b : RecordBody) (s : State) : (push b s).legCounters = s.legCounters := rfl
@[simp] theorem push_engine (b : RecordBody) (s : State) : (push b s).engine = s.engine := rfl
@[simp] theorem push_egress (b : RecordBody) (s : State) : (push b s).egress = s.egress := rfl
@[simp] theorem push_buffer (b : RecordBody) (s : State) : (push b s).buffer = s.buffer := rfl
@[simp] theorem push_addr (b : RecordBody) (s : State) : (push b s).addr = s.addr := rfl
@[simp] theorem push_noise (b : RecordBody) (s : State) : (push b s).noise = s.noise := rfl
@[simp] theorem push_arc (b : RecordBody) (s : State) : (push b s).arc = s.arc := rfl
@[simp] theorem push_fault (b : RecordBody) (s : State) : (push b s).fault = s.fault := rfl
@[simp] theorem push_deviceCounters (b : RecordBody) (s : State) : (push b s).deviceCounters = s.deviceCounters := rfl
@[simp] theorem push_probes (b : RecordBody) (s : State) : (push b s).probes = s.probes := rfl
@[simp] theorem push_pending (b : RecordBody) (s : State) : (push b s).pending = s.pending := rfl

@[simp] theorem answer_resetLow (q : Request) (r : Reply) (s : State) : (answer q r s).resetLow = s.resetLow := rfl
@[simp] theorem answer_timer (q : Request) (r : Reply) (s : State) : (answer q r s).timer = s.timer := rfl
@[simp] theorem answer_ports (q : Request) (r : Reply) (s : State) : (answer q r s).ports = s.ports := rfl
@[simp] theorem answer_streams (q : Request) (r : Reply) (s : State) : (answer q r s).streams = s.streams := rfl
@[simp] theorem answer_streamCounters (q : Request) (r : Reply) (s : State) : (answer q r s).streamCounters = s.streamCounters := rfl
@[simp] theorem answer_legCounters (q : Request) (r : Reply) (s : State) : (answer q r s).legCounters = s.legCounters := rfl
@[simp] theorem answer_engine (q : Request) (r : Reply) (s : State) : (answer q r s).engine = s.engine := rfl
@[simp] theorem answer_egress (q : Request) (r : Reply) (s : State) : (answer q r s).egress = s.egress := rfl
@[simp] theorem answer_buffer (q : Request) (r : Reply) (s : State) : (answer q r s).buffer = s.buffer := rfl
@[simp] theorem answer_addr (q : Request) (r : Reply) (s : State) : (answer q r s).addr = s.addr := rfl
@[simp] theorem answer_noise (q : Request) (r : Reply) (s : State) : (answer q r s).noise = s.noise := rfl
@[simp] theorem answer_arc (q : Request) (r : Reply) (s : State) : (answer q r s).arc = s.arc := rfl
@[simp] theorem answer_fault (q : Request) (r : Reply) (s : State) : (answer q r s).fault = s.fault := rfl
@[simp] theorem answer_deviceCounters (q : Request) (r : Reply) (s : State) : (answer q r s).deviceCounters = s.deviceCounters := rfl
@[simp] theorem answer_probes (q : Request) (r : Reply) (s : State) : (answer q r s).probes = s.probes := rfl
@[simp] theorem answer_pending (q : Request) (r : Reply) (s : State) : (answer q r s).pending = s.pending := rfl

end Sys2Proof.Machine
end

