-- ==== Sys2Proof/Laws/Kept.lean ====
section
/-! SUPPORT. `Kept s t`: what the operations of every block but the management link leave of a state, said once for each
operation, so that a statement about every command needs no operation unfolded. -/

namespace Sys2Proof.Laws

open Sys2Proof.Machine Sys2Proof.Safety

/-- No notice source holds two pending notices of one kind. -/
def KindsOk (m : MgmtLink) : Prop := ∀ i : Fin 12, (m.sources[i].pending.map fun n => n.data.kind).Nodup

/-- What an operation of a block leaves: the queues and settings of the management link, the production lock, the capture
mask, a locked first-fault record, the waiting commands, and the good order of pending sets, cells and address table. -/
structure Kept (s t : State) : Prop where
  low : t.resetLow = s.resetLow
  outbound : t.mgmt.outbound = s.mgmt.outbound
  inbound : t.mgmt.inbound = s.mgmt.inbound
  transfer : t.mgmt.transfer = s.mgmt.transfer
  mode : t.mgmt.mode = s.mgmt.mode
  serial : t.mgmt.serial = s.mgmt.serial
  numbers : ∀ i : Fin 12, t.mgmt.sources[i].number = s.mgmt.sources[i].number
  locked : t.engine.locked = s.engine.locked
  mask : t.fault.mask = s.fault.mask
  record : ∀ r, s.fault.record = some r → t.fault.record = some r
  pending : t.pending = s.pending
  kinds : KindsOk s.mgmt → KindsOk t.mgmt
  cells : CellsOk s.buffer → CellsOk t.buffer
  addr : AddrOk s.addr.entries → AddrOk t.addr.entries

theorem Kept.refl (s : State) : Kept s s :=
  ⟨rfl, rfl, rfl, rfl, rfl, rfl, fun _ => rfl, rfl, rfl, fun _ h => h, rfl, id, id, id⟩

theorem Kept.trans {s t u : State} (h : Kept s t) (k : Kept t u) : Kept s u where
  low := k.low.trans h.low
  outbound := k.outbound.trans h.outbound
  inbound := k.inbound.trans h.inbound
  transfer := k.transfer.trans h.transfer
  mode := k.mode.trans h.mode
  serial := k.serial.trans h.serial
  numbers i := (k.numbers i).trans (h.numbers i)
  locked := k.locked.trans h.locked
  mask := k.mask.trans h.mask
  record r hr := k.record r (h.record r hr)
  pending := k.pending.trans h.pending
  kinds x := k.kinds (h.kinds x)
  cells x := k.cells (h.cells x)
  addr x := k.addr (h.addr x)

/-- An update of a block that `Kept` does not speak of. -/
theorem Kept.plain {s t : State} (low : t.resetLow = s.resetLow) (mgmt : t.mgmt = s.mgmt)
    (locked : t.engine.locked = s.engine.locked) (mask : t.fault.mask = s.fault.mask)
    (record : t.fault.record = s.fault.record) (pending : t.pending = s.pending) (buffer : t.buffer = s.buffer)
    (addr : t.addr.entries = s.addr.entries) : Kept s t where
  low := low
  outbound := by rw [mgmt]
  inbound := by rw [mgmt]
  transfer := by rw [mgmt]
  mode := by rw [mgmt]
  serial := by rw [mgmt]
  numbers _ := by rw [mgmt]
  locked := locked
  mask := mask
  record _ h := record.trans h
  pending := pending
  kinds := by rw [mgmt]; exact id
  cells := by rw [buffer]; exact id
  addr := by rw [addr]; exact id

/-- An operation keeps every state. -/
def Keeps (f : State → State) : Prop := ∀ s, Kept s (f s)

theorem Keeps.comp {f g : State → State} (hf : Keeps f) (hg : Keeps g) : Keeps fun s => f (g s) :=
  fun s => (hg s).trans (hf (g s))

theorem Keeps.forAll {α : Type} {f : α → State → State} (h : ∀ x, Keeps (f x)) (xs : List α) : Keeps (forAll xs f) := by
  induction xs with
  | nil => exact Kept.refl
  | cons x xs ih => exact fun s => (h x s).trans (ih (f x s))

theorem forAll_kept {α : Type} {f : α → State → State} {xs : List α} {s : State} (h : ∀ x t, Kept t (f x t)) :
    Kept s (forAll xs f s) := Keeps.forAll h xs s

/-! ### Ops -/

theorem modTimer_keeps (f) : Keeps (State.modTimer f) := fun _ => .plain rfl rfl rfl rfl rfl rfl rfl rfl
theorem modPort_keeps (p f) : Keeps (State.modPort p f) := fun _ => .plain rfl rfl rfl rfl rfl rfl rfl rfl
theorem setStream_keeps (n x) : Keeps (State.setStream n x) := fun _ => .plain rfl rfl rfl rfl rfl rfl rfl rfl
theorem modStream_keeps (n f) : Keeps (State.modStream n f) := fun _ => .plain rfl rfl rfl rfl rfl rfl rfl rfl
theorem modLeg_keeps (n e f) : Keeps (State.modLeg n e f) := fun _ => .plain rfl rfl rfl rfl rfl rfl rfl rfl
theorem modEgress_keeps (e f) : Keeps (State.modEgress e f) := fun _ => .plain rfl rfl rfl rfl rfl rfl rfl rfl
theorem modNoise_keeps (p f) : Keeps (State.modNoise p f) := fun _ => .plain rfl rfl rfl rfl rfl rfl rfl rfl
theorem modArc_keeps (f) : Keeps (State.modArc f) := fun _ => .plain rfl rfl rfl rfl rfl rfl rfl rfl
theorem setProbe_keeps (q x) : Keeps (State.setProbe q x) := fun _ => .plain rfl rfl rfl rfl rfl rfl rfl rfl
theorem bumpPort_keeps (p c) : Keeps (bumpPort p c) := fun _ => .plain rfl rfl rfl rfl rfl rfl rfl rfl
theorem bumpLeg_keeps (n e c) : Keeps (bumpLeg n e c) := fun _ => .plain rfl rfl rfl rfl rfl rfl rfl rfl
theorem bumpStream_keeps (n c) : Keeps (bumpStream n c) := fun _ => .plain rfl rfl rfl rfl rfl rfl rfl rfl
theorem bumpDevice_keeps (c) : Keeps (bumpDevice c) := fun _ => .plain rfl rfl rfl rfl rfl rfl rfl rfl
theorem setFlag_keeps (p x) : Keeps (setFlag p x) := fun _ => .plain rfl rfl rfl rfl rfl rfl rfl rfl
theorem reportWith_keeps (c x n i z) : Keeps (reportWith c x n i z) := fun _ => .plain rfl rfl rfl rfl rfl rfl rfl rfl
theorem report_keeps (c x n) : Keeps (report c x n) := reportWith_keeps c x n none none
theorem reportCutOff_keeps (e n) : Keeps (reportCutOff e n) := fun _ => .plain rfl rfl rfl rfl rfl rfl rfl rfl

theorem modEngine_keeps {f : Engine → Engine} (h : ∀ g, (f g).locked = g.locked) : Keeps (State.modEngine f) :=
  fun s => .plain rfl rfl (h s.engine) rfl rfl rfl rfl rfl

theorem modEngine_kept {f : Engine → Engine} {s : State} (h : ∀ g, (f g).locked = g.locked) :
    Kept s (s.modEngine f) := modEngine_keeps h s

theorem modAddr_same {f : AddrTable → AddrTable} {s : State} (h : ∀ a, (f a).entries = a.entries) :
    Kept s (s.modAddr f) := .plain rfl rfl rfl rfl rfl rfl rfl (h s.addr)

theorem modBuffer_keeps {f : FrameBuffer → FrameBuffer} {s : State} (h : CellsOk s.buffer → CellsOk (f s.buffer)) :
    Kept s (s.modBuffer f) where
  low := rfl
  outbound := rfl
  inbound := rfl
  transfer := rfl
  mode := rfl
  serial := rfl
  numbers _ := rfl
  locked := rfl
  mask := rfl
  record _ hr := hr
  pending := rfl
  kinds := id
  cells := h
  addr := id

/-! ### Notices and reports -/

/-- The kinds at a source after a raise are those before, and the kind raised if it was not there (R176). -/
theorem joinPending_kinds (cycle : CycleNo) (d : NoticeData) (xs : List Notice) :
    (joinPending cycle d xs).map (fun n => n.data.kind) =
      if d.kind ∈ xs.map (fun n => n.data.kind) then xs.map (fun n => n.data.kind)
      else xs.map (fun n => n.data.kind) ++ [d.kind] := by
  induction xs with
  | nil => simp [joinPending]
  | cons x xs ih =>
    unfold joinPending
    by_cases h : x.data.kind = d.kind
    · simp [h]
    · have h' : ¬d.kind = x.data.kind := fun e => h e.symm
      rw [if_neg h, List.map_cons, ih]
      by_cases hm : d.kind ∈ xs.map (fun n => n.data.kind)
      · simp [hm]
      · simp [hm, h']

theorem joinPending_nodup (cycle : CycleNo) (d : NoticeData) {xs : List Notice}
    (h : (xs.map fun n => n.data.kind).Nodup) : ((joinPending cycle d xs).map fun n => n.data.kind).Nodup := by
  rw [joinPending_kinds]
  split
  · exact h
  · rename_i hm
    exact List.nodup_append.2 ⟨h, by simp, fun a ha b hb e => hm (by rw [← List.mem_singleton.1 hb, ← e]; exact ha)⟩

theorem raise_keeps (src cycle d) : Keeps (raise src cycle d) := by
  intro s
  unfold raise
  refine ⟨rfl, ?_, ?_, ?_, ?_, ?_, ?_, rfl, rfl, fun _ h => h, rfl, ?_, id, id⟩
  all_goals simp only [State.modMgmt_mgmt]
  any_goals (split <;> rfl)
  · intro i
    split
    · rfl
    · simp only [upd_get]
      split
      · next h => subst h; rfl
      · rfl
  · intro h i
    split
    · exact h i
    · simp only [upd_get]
      split
      · next e => subst e; exact joinPending_nodup _ _ (h i)
      · exact h i

theorem takeReport_keeps (r : Report) : Keeps fun s => takeReport s r := by
  intro s
  unfold takeReport
  simp only []
  split
  · next h =>
    have hn : s.fault.record = none := h.1
    have base : Kept s ((bumpDevice (.total r.fields.cause) s).modFault fun u => { u with record := some r.fields }) :=
      ⟨rfl, rfl, rfl, rfl, rfl, rfl, fun _ => rfl, rfl, rfl,
        fun _ hr => absurd (hn.symm.trans hr) (by simp), rfl, id, id, id⟩
    exact base.trans (raise_keeps _ _ _ _)
  · exact bumpDevice_keeps _ s

theorem takeReports_keeps : Keeps takeReports := by
  intro s
  unfold takeReports
  have base : Kept s (s.modFault fun u => { u with inbox := [] }) := .plain rfl rfl rfl rfl rfl rfl rfl rfl
  have loop : ∀ (rs : List Report) t, Kept t (rs.foldl takeReport t) := by
    intro rs
    induction rs with
    | nil => exact Kept.refl
    | cons r rs ih => exact fun t => (takeReport_keeps r t).trans (ih _)
  exact base.trans (loop _ _)

theorem legDrop_keeps (c n e) : Keeps (legDrop c n e) := by
  intro s
  unfold legDrop
  cases c.legCounter with
  | none => exact (report_keeps _ _ _ s).trans (setFlag_keeps _ _ _)
  | some k => exact (bumpLeg_keeps _ _ k s).trans ((report_keeps _ _ _ _).trans (setFlag_keeps _ _ _))

theorem beDrop_keeps (c k p e) : Keeps (beDrop c k p e) := fun s =>
  (bumpPort_keeps _ _ s).trans ((reportWith_keeps _ _ _ _ _ _).trans (setFlag_keeps _ _ _))

/-! ### The frame buffer -/

/-- The cells of one pool among frames of which one is put at the end. -/
theorem cellsIn_append (pool : Pool) (xs : List FrameRecord) (r : FrameRecord) :
    cellsIn pool (xs ++ [r]) = cellsIn pool xs + if r.pool = pool then r.cells else 0 := by
  unfold cellsIn
  by_cases h : r.pool = pool <;> simp [h]

/-- A change of records that leaves pools and cells leaves the cells of every pool. -/
theorem cellsIn_map (pool : Pool) (f : FrameRecord → FrameRecord) (h : ∀ r, (f r).pool = r.pool ∧ (f r).cells = r.cells)
    (xs : List FrameRecord) : cellsIn pool (xs.map f) = cellsIn pool xs := by
  unfold cellsIn
  induction xs with
  | nil => rfl
  | cons x xs ih =>
    by_cases hx : x.pool = pool
    · simpa [List.filter_cons, (h x).1, (h x).2, hx] using ih
    · simpa [List.filter_cons, (h x).1, hx] using ih

/-- Handles being distinct, taking a frame out takes its cells out. -/
theorem cellsIn_remove (pool : Pool) {xs : List FrameRecord} {r : FrameRecord} (hn : (xs.map (·.id)).Nodup)
    (hr : r ∈ xs) :
    cellsIn pool xs = cellsIn pool (xs.filter fun x => x.id != r.id) + if r.pool = pool then r.cells else 0 := by
  induction xs with
  | nil => simp at hr
  | cons x xs ih =>
    rw [List.map_cons, List.nodup_cons] at hn
    rcases List.mem_cons.1 hr with e | hr'
    · subst e
      have hf : (xs.filter fun x => x.id != r.id) = xs := by
        rw [List.filter_eq_self]
        intro a ha
        have : a.id ≠ r.id := fun e => hn.1 (e ▸ List.mem_map_of_mem ha)
        simpa using this
      by_cases hx : r.pool = pool
      · simp [cellsIn, hx, hf]; omega
      · simp [cellsIn, hx, hf]
    · have hx : x.id ≠ r.id := fun e => hn.1 (e ▸ List.mem_map_of_mem hr')
      have ih := ih hn.2 hr'
      by_cases hp : x.pool = pool
      · simp_all [cellsIn]; omega
      · simp_all [cellsIn]

theorem frame_mem {s : State} {id : FrameId} {r : FrameRecord} (h : s.frame id = some r) :
    r ∈ s.buffer.frames ∧ r.id = id :=
  ⟨List.mem_of_find?_eq_some h, by simpa using List.find?_some h⟩

/-- A change of records that leaves handles, pools and cells. -/
theorem mapFrames_keeps (f : FrameRecord → FrameRecord)
    (h : ∀ r, (f r).id = r.id ∧ (f r).pool = r.pool ∧ (f r).cells = r.cells) (s : State) :
    Kept s (s.modBuffer fun b => { b with frames := b.frames.map f }) :=
  modBuffer_keeps fun k =>
    { motion := by simpa [cellsIn_map _ f fun r => (h r).2] using k.motion
      bestEffort := by simpa [cellsIn_map _ f fun r => (h r).2] using k.bestEffort
      motionLow := k.motionLow
      beLow := k.beLow
      handles := by
        have : (s.buffer.frames.map f).map (·.id) = s.buffer.frames.map (·.id) := by
          rw [List.map_map]; exact List.map_congr_left fun r _ => (h r).1
        simpa [this] using k.handles
      fresh := by
        intro r hr
        obtain ⟨x, hx, rfl⟩ := List.mem_map.1 hr
        rw [(h x).1]; exact k.fresh x hx }

theorem orphanFrames_keeps (n) : Keeps (orphanFrames n) := fun s =>
  mapFrames_keeps _ (fun r => by split <;> simp) s

theorem freeFrame_keeps {s : State} {r : FrameRecord} (hr : r ∈ s.buffer.frames) : Kept s (freeFrame r s) := by
  have base : Kept s (s.modBuffer fun b => giveCells r.pool r.cells
      { b with frames := b.frames.filter fun x => x.id != r.id }) := by
    refine modBuffer_keeps fun k => ?_
    have hm := cellsIn_remove .motion k.handles hr
    have hb := cellsIn_remove .bestEffort k.handles hr
    have k1 := k.motion
    have k2 := k.bestEffort
    have k3 := k.motionLow
    have k4 := k.beLow
    have hn : ((s.buffer.frames.filter fun x => x.id != r.id).map (·.id)).Nodup :=
      k.handles.sublist (List.filter_sublist.map _)
    have hf : ∀ x ∈ s.buffer.frames.filter (fun x => x.id != r.id), x.id < s.buffer.nextId :=
      fun x hx => k.fresh x (List.mem_filter.1 hx).1
    cases hp : r.pool <;> simp only [hp, giveCells, if_true, reduceCtorEq, if_false] at hm hb ⊢ <;>
      refine ⟨?_, ?_, ?_, ?_, hn, hf⟩ <;> simp only <;> omega
  unfold freeFrame
  simp only []
  split
  · split
    · exact base
    · exact base.trans (modStream_keeps _ _ _)
  · exact base

theorem returnRef_keeps (id) : Keeps (returnRef id) := by
  intro s
  unfold returnRef
  split
  · exact Kept.refl s
  · next r h =>
    split
    · exact freeFrame_keeps (frame_mem h).1
    · exact mapFrames_keeps _ (fun r => by split <;> simp) s

theorem returnRefs_keeps (ids) : Keeps (returnRefs ids) := Keeps.forAll (fun id => returnRef_keeps id) ids

/-- A frame that its pool can hold is stored. -/
theorem storeFrame_keeps {pool : Pool} {f : RxFrame} {s : State} (refs ingress start n cls)
    (motion : pool = .motion → cellsOf (frameLen f) ≤ s.buffer.motionFree)
    (bestEffort : pool = .bestEffort → cellsOf (frameLen f) ≤ s.buffer.beFree) :
    Kept s (storeFrame pool refs ingress start n cls f s) := by
  refine modBuffer_keeps fun k => ?_
  have k1 := k.motion
  have k2 := k.bestEffort
  have k3 := k.motionLow
  have k4 := k.beLow
  have hn : ∀ r : FrameRecord, r.id = s.buffer.nextId → ((s.buffer.frames ++ [r]).map (·.id)).Nodup := by
    intro r hr
    rw [List.map_append, List.nodup_append]
    refine ⟨k.handles, by simp, fun a ha b hb e => ?_⟩
    obtain ⟨x, hx, rfl⟩ := List.mem_map.1 ha
    rw [List.map_singleton, List.mem_singleton, hr] at hb
    exact absurd (e.trans hb) (Nat.ne_of_lt (k.fresh x hx))
  have hf : ∀ r : FrameRecord, r.id = s.buffer.nextId → ∀ x ∈ s.buffer.frames ++ [r], x.id < s.buffer.nextId + 1 := by
    intro r hr x hx
    rcases List.mem_append.1 hx with hx | hx
    · exact Nat.lt_succ_of_lt (k.fresh x hx)
    · rw [List.mem_singleton.1 hx, hr]; exact Nat.lt_succ_self _
  cases pool with
  | motion =>
    have room := motion rfl
    refine ⟨?_, ?_, ?_, ?_, hn _ rfl, hf _ rfl⟩ <;>
      simp only [takeCells, cellsIn_append, if_true, reduceCtorEq, if_false] <;> omega
  | bestEffort =>
    have room := bestEffort rfl
    refine ⟨?_, ?_, ?_, ?_, hn _ rfl, hf _ rfl⟩ <;>
      simp only [takeCells, cellsIn_append, if_true, reduceCtorEq, if_false] <;> omega

end Sys2Proof.Laws
end

