-- ==== Sys2Proof/Laws/KeptBlocks.lean ====
section
/-! SUPPORT. `Kept` for the operations of the blocks: address table, probes, noise monitors, egress schedulers, forwarding,
engine, cycle timer and port units. -/

namespace Sys2Proof.Laws

open Sys2Proof.Machine Sys2Proof.Safety

/-! ### The address table (R126, R130) -/

/-- The lowest free position of ascending entries from `p` on is no further than their number. -/
theorem lowestFree_le (p : Nat) (xs : List AddrEntry) : lowestFree p xs ≤ p + xs.length := by
  induction xs generalizing p with
  | nil => simp [lowestFree]
  | cons x xs ih =>
    unfold lowestFree
    split
    · have := ih (p + 1); simp only [List.length_cons]; omega
    · omega

/-- The lowest free position of ascending entries from `p` on is at least `p`, and no entry holds it. -/
theorem lowestFree_spec (p : Nat) (xs : List AddrEntry) (asc : xs.Pairwise fun x y => x.pos < y.pos)
    (lo : ∀ x ∈ xs, p ≤ x.pos) : p ≤ lowestFree p xs ∧ ∀ x ∈ xs, x.pos ≠ lowestFree p xs := by
  induction xs generalizing p with
  | nil => simp [lowestFree]
  | cons x xs ih =>
    rw [List.pairwise_cons] at asc
    unfold lowestFree
    split
    · next h =>
      have h' := ih (p + 1) asc.2 fun y hy => by have := asc.1 y hy; omega
      refine ⟨by omega, fun y hy => ?_⟩
      rcases List.mem_cons.1 hy with e | hy
      · subst e; omega
      · exact h'.2 y hy
    · next h =>
      have hx := lo x (by simp)
      refine ⟨Nat.le_refl _, fun y hy => ?_⟩
      rcases List.mem_cons.1 hy with e | hy
      · subst e; exact h
      · have := asc.1 y hy; omega

theorem mem_insertEntry {z x : AddrEntry} {xs : List AddrEntry} : z ∈ insertEntry x xs ↔ z = x ∨ z ∈ xs := by
  induction xs with
  | nil => simp [insertEntry]
  | cons y ys ih =>
    unfold insertEntry
    split
    · simp only [List.mem_cons, ih]; tauto
    · simp

theorem insertEntry_ascending {x : AddrEntry} {xs : List AddrEntry} (asc : xs.Pairwise fun x y => x.pos < y.pos)
    (new : ∀ y ∈ xs, y.pos ≠ x.pos) : (insertEntry x xs).Pairwise fun x y => x.pos < y.pos := by
  induction xs with
  | nil => simp [insertEntry]
  | cons y ys ih =>
    have asc' := List.pairwise_cons.1 asc
    unfold insertEntry
    split
    · next h =>
      rw [List.pairwise_cons]
      refine ⟨fun z hz => ?_, ih asc'.2 fun z hz => new z (by simp [hz])⟩
      rcases mem_insertEntry.1 hz with e | hz
      · subst e; exact h
      · exact asc'.1 z hz
    · next h =>
      have := new y (by simp)
      rw [List.pairwise_cons]
      refine ⟨fun z hz => ?_, asc⟩
      rcases List.mem_cons.1 hz with e | hz
      · subst e; omega
      · have := asc'.1 z hz; omega

theorem insertEntry_keys {x : AddrEntry} {xs : List AddrEntry}
    (keys : xs.Pairwise fun x y => ¬(x.mac = y.mac ∧ x.vlan = y.vlan))
    (new : ∀ y ∈ xs, ¬(y.mac = x.mac ∧ y.vlan = x.vlan)) :
    (insertEntry x xs).Pairwise fun x y => ¬(x.mac = y.mac ∧ x.vlan = y.vlan) := by
  induction xs with
  | nil => simp [insertEntry]
  | cons y ys ih =>
    have keys' := List.pairwise_cons.1 keys
    unfold insertEntry
    split
    · rw [List.pairwise_cons]
      refine ⟨fun z hz => ?_, ih keys'.2 fun z hz => new z (by simp [hz])⟩
      rcases mem_insertEntry.1 hz with e | hz
      · subst e; exact new y (by simp)
      · exact keys'.1 z hz
    · rw [List.pairwise_cons]
      exact ⟨fun z hz e => new z hz ⟨e.1.symm, e.2.symm⟩, keys⟩

/-- A key that no entry holds. -/
theorem addrEntry_none {s : State} {mac : Mac} {vlan : Option Nat} (h : s.addrEntry mac vlan = none) :
    ∀ x ∈ s.addr.entries, ¬(x.mac = mac ∧ x.vlan = vlan) := by
  intro x hx e
  have := List.find?_eq_none.1 h x hx
  simp [e.1, e.2] at this

/-- Changes of the address table's entries alone. -/
theorem modAddr_kept {s : State} {f : AddrTable → AddrTable}
    (h : AddrOk s.addr.entries → AddrOk (f s.addr).entries) : Kept s (s.modAddr f) :=
  ⟨rfl, rfl, rfl, rfl, rfl, rfl, fun _ => rfl, rfl, rfl, fun _ hr => hr, rfl, id, id, h⟩

theorem addrInsert_keeps {s : State} {mac : Mac} {vlan : Option Nat} (p kind) (new : s.addrEntry mac vlan = none)
    (room : s.addrFull = false) : Kept s (addrInsert mac vlan p kind s) := by
  refine modAddr_kept fun k => ?_
  have sp := lowestFree_spec 0 s.addr.entries k.ascending fun _ _ => Nat.zero_le _
  refine ⟨insertEntry_ascending k.ascending sp.2, fun x hx => ?_, insertEntry_keys k.keys (addrEntry_none new),
    fun x hx => ?_⟩
  rcases mem_insertEntry.1 hx with e | hx
  · subst e
    have := lowestFree_le 0 s.addr.entries
    simp only [State.addrFull, Config.addressPositions] at room
    rw [Nat.zero_add] at this
    exact Nat.lt_of_le_of_lt this (Nat.lt_of_not_le (of_decide_eq_false room))
  · exact k.bounded x hx
  · rcases mem_insertEntry.1 hx with e | hx
    · subst e; exact Nat.zero_le _
    · exact k.ages x hx

theorem addrUpdate_keeps (pos) {f : AddrEntry → AddrEntry}
    (h : ∀ x, (f x).pos = x.pos ∧ (f x).mac = x.mac ∧ (f x).vlan = x.vlan) (age : ∀ x, x.age ≤ 3 → (f x).age ≤ 3) :
    Keeps (addrUpdate pos f) := by
  intro s
  have h' : ∀ x, (if x.pos == pos then f x else x).pos = x.pos ∧ (if x.pos == pos then f x else x).mac = x.mac ∧
      (if x.pos == pos then f x else x).vlan = x.vlan := by
    intro x; split
    · exact h x
    · simp
  refine modAddr_kept fun k => ⟨?_, ?_, ?_, ?_⟩
  · rw [List.pairwise_map]; exact k.ascending.imp fun {x y} e => by rw [(h' x).1, (h' y).1]; exact e
  · intro x hx; obtain ⟨y, hy, rfl⟩ := List.mem_map.1 hx; rw [(h' y).1]; exact k.bounded y hy
  · rw [List.pairwise_map]
    exact k.keys.imp fun {x y} e => by rw [(h' x).2.1, (h' y).2.1, (h' x).2.2, (h' y).2.2]; exact e
  · intro x hx
    obtain ⟨y, hy, rfl⟩ := List.mem_map.1 hx
    split
    · exact age y (k.ages y hy)
    · exact k.ages y hy

theorem addrOk_sublist {xs ys : List AddrEntry} (k : AddrOk ys) (h : xs.Sublist ys) : AddrOk xs :=
  ⟨k.ascending.sublist h, fun x hx => k.bounded x (h.subset hx), k.keys.sublist h, fun x hx => k.ages x (h.subset hx)⟩

theorem addrOk_aged {xs : List AddrEntry} (k : AddrOk xs) : AddrOk (sweepEntries xs) := by
  have k' := addrOk_sublist k (xs := xs.filter fun x => !(x.kind == .learned && decide (3 ≤ x.age))) List.filter_sublist
  have h' : ∀ x : AddrEntry, (if x.kind = .learned then { x with age := x.age + 1 } else x).pos = x.pos ∧
      (if x.kind = .learned then { x with age := x.age + 1 } else x).mac = x.mac ∧
      (if x.kind = .learned then { x with age := x.age + 1 } else x).vlan = x.vlan := by
    intro x; split <;> simp
  refine ⟨?_, ?_, ?_, ?_⟩
  · unfold sweepEntries; rw [List.pairwise_map]
    exact k'.ascending.imp fun {x y} e => by rw [(h' x).1, (h' y).1]; exact e
  · intro x hx; obtain ⟨y, hy, rfl⟩ := List.mem_map.1 hx; rw [(h' y).1]; exact k'.bounded y hy
  · unfold sweepEntries; rw [List.pairwise_map]
    exact k'.keys.imp fun {x y} e => by rw [(h' x).2.1, (h' y).2.1, (h' x).2.2, (h' y).2.2]; exact e
  · intro x hx
    obtain ⟨y, hy, rfl⟩ := List.mem_map.1 hx
    have old := k'.ages y hy
    have young := (List.mem_filter.1 hy).2
    split
    · next e =>
      simp only [e, beq_self_eq_true, Bool.true_and, Bool.not_eq_true', decide_eq_false_iff_not] at young
      show y.age + 1 ≤ 3
      omega
    · exact old

theorem ageTable_keeps : Keeps ageTable := by
  intro s
  unfold ageTable
  split
  · exact modAddr_same fun _ => rfl
  · split
    · exact ⟨rfl, rfl, rfl, rfl, rfl, rfl, fun _ => rfl, rfl, rfl, fun _ hr => hr, rfl, id, id, fun k => addrOk_aged k⟩
    · exact modAddr_same fun _ => rfl

theorem ageCycle_keeps : Keeps ageCycle := by
  intro s
  unfold ageCycle
  split
  · exact modAddr_same fun _ => rfl
  · exact (ageTable_keeps s).trans (modAddr_same fun _ => rfl)

/-! ### Probes -/

theorem probeCaptures_keeps (n e c q) : Keeps (probeCaptures n e c q) := by
  intro s
  unfold probeCaptures
  split
  · split
    · exact (setProbe_keeps _ _ s).trans (raise_keeps _ _ _ _)
    · exact Kept.refl s
  · exact Kept.refl s

theorem probeStart_keeps (n e r w g) : Keeps (probeStart n e r w g) :=
  fun s => Keeps.forAll (fun q => probeCaptures_keeps n e _ q) allProbes s

theorem probeCount_keeps (cycle q) : Keeps (probeCount cycle q) := by
  intro s
  unfold probeCount
  split
  · split
    · exact (setProbe_keeps _ _ s).trans (raise_keeps _ _ _ _)
    · exact setProbe_keeps _ _ s
  · exact Kept.refl s

theorem probeFreed_keeps (cycle n q) : Keeps (probeFreed cycle n q) := by
  intro s
  unfold probeFreed
  split
  · split
    · exact setProbe_keeps _ _ s
    · exact Kept.refl s
  · exact Kept.refl s

/-! ### Noise monitors -/

theorem noiseChange_keeps (p new cause count cycle phase) : Keeps (noiseChange p new cause count cycle phase) := by
  intro s
  unfold noiseChange
  simp only []
  split
  · exact (modNoise_keeps _ _ s).trans ((setFlag_keeps _ _ _).trans ((bumpPort_keeps _ _ _).trans (raise_keeps _ _ _ _)))
  · exact (modNoise_keeps _ _ s).trans (raise_keeps _ _ _ _)

theorem noiseChangeNow_keeps (p new cause) : Keeps (noiseChangeNow p new cause) :=
  fun s => noiseChange_keeps _ _ _ _ _ _ s

theorem upwardTest_keeps (p) : Keeps (upwardTest p) := by
  intro s
  unfold upwardTest
  simp only []
  split <;> (repeat' split) <;> first | exact Kept.refl s | exact noiseChangeNow_keeps _ _ _ s

theorem receiveFault_keeps (p) : Keeps (receiveFault p) := fun s =>
  (modNoise_keeps _ _ s).trans ((modNoise_keeps _ _ _).trans (upwardTest_keeps _ _))

theorem noiseCheck_keeps (cycle p) : Keeps (noiseCheck cycle p) := by
  intro s
  unfold noiseCheck
  refine Kept.trans ?_ (modNoise_keeps _ _ _)
  split
  · split
    · exact (bumpPort_keeps _ _ s).trans (noiseChange_keeps _ _ _ _ _ _ _)
    · exact (bumpPort_keeps _ _ s).trans (modNoise_keeps _ _ _)
  · split
    · exact noiseChange_keeps _ _ _ _ _ _ s
    · exact modNoise_keeps _ _ s
  · exact Kept.refl s

theorem noiseCycle_keeps (cycle p) : Keeps (noiseCycle cycle p) := by
  intro s
  unfold noiseCycle
  refine Kept.trans ?_ (modNoise_keeps _ _ _)
  split
  · exact Kept.refl s
  · exact noiseCheck_keeps _ _ s

theorem checkAhead_keeps (p) : Keeps (checkAhead p) := fun s =>
  (noiseCheck_keeps _ _ s).trans (modNoise_keeps _ _ _)

theorem arcEdge_keeps (on stamp) : Keeps (arcEdge on stamp) := by
  intro s
  unfold arcEdge
  dsimp only
  split
  · refine Kept.trans ((bumpDevice_keeps _ s).trans (modArc_keeps _ _)) (Keeps.forAll (fun p s => ?_) _ _)
    repeat' split
    · exact modNoise_keeps _ _ s
    · exact noiseChangeNow_keeps _ _ _ s
    · exact Kept.refl s
  · exact (bumpDevice_keeps _ s).trans (modArc_keeps _ _)

theorem exposedOn_keeps (p) : Keeps (exposedOn p) := by
  intro s
  unfold exposedOn
  repeat' split
  · exact modNoise_keeps _ _ s
  · exact noiseChangeNow_keeps _ _ _ s
  · exact Kept.refl s

theorem noiseRestart_keeps (p) : Keeps (noiseRestart p) := by
  intro s
  unfold noiseRestart
  refine Kept.trans ?_ (modNoise_keeps _ _ _)
  split
  · exact Kept.refl s
  · exact noiseChangeNow_keeps _ _ _ s

/-! ### Egress schedulers -/

theorem chooseBestEffort_keeps (e g cs) : Keeps (chooseBestEffort e g cs) := by
  induction cs with
  | nil => exact Kept.refl
  | cons c cs ih =>
    intro s
    unfold chooseBestEffort
    split
    · exact (modEgress_keeps _ _ s).trans (bumpPort_keeps _ _ _)
    · exact ih s

theorem dropHead_keeps (cause n e id) : Keeps (dropHead cause n e id) := fun s =>
  (modLeg_keeps _ _ _ s).trans ((legDrop_keeps _ _ _ _).trans (returnRef_keeps _ _))

theorem startMotion_keeps (e g o d r) : Keeps (startMotion e g o d r) := fun s =>
  (modLeg_keeps _ _ _ s).trans ((modEgress_keeps _ _ _).trans
    ((bumpLeg_keeps _ _ _ _).trans ((bumpPort_keeps _ _ _).trans (probeStart_keeps _ _ _ _ _ _))))

theorem startCopy_keeps (e o id rest) : Keeps (startCopy e o id rest) := fun s =>
  (modEgress_keeps _ _ s).trans ((bumpLeg_keeps _ _ _ _).trans (bumpPort_keeps _ _ _))

theorem chooseAgain_keeps (e g fuel) : Keeps (chooseAgain e g fuel) := by
  induction fuel with
  | zero => exact Kept.refl
  | succ fuel ih =>
    intro s
    unfold chooseAgain
    repeat' split
    · exact chooseBestEffort_keeps _ _ _ s
    · exact chooseBestEffort_keeps _ _ _ s
    · exact Kept.refl s
    · exact (dropHead_keeps _ _ _ _ s).trans (ih _)
    · exact startMotion_keeps _ _ _ _ _ s
    · exact Kept.refl s
    · exact (modEgress_keeps _ _ s).trans (ih _)
    · exact startCopy_keeps _ _ _ _ s
    · exact (modEgress_keeps _ _ s).trans (ih _)

theorem choose_keeps (e) : Keeps (choose e) := by
  intro s
  unfold choose
  repeat' split
  · exact Kept.refl s
  · exact Kept.refl s
  · exact chooseAgain_keeps _ _ _ s

theorem openPrimary_keeps (e w) : Keeps (openPrimary e w) := fun s =>
  (modEgress_keeps _ _ s).trans (choose_keeps _ _)

theorem openTwin_keeps (e w) : Keeps (openTwin e w) := by
  intro s
  unfold openTwin
  split <;> exact (modEgress_keeps _ _ s).trans (choose_keeps _ _)

theorem dropSlot_keeps (cause n e) : Keeps (dropSlot cause n e) := by
  intro s
  unfold dropSlot
  split
  · exact Kept.refl s
  · exact (modLeg_keeps _ _ _ s).trans
      (Keeps.forAll (fun id => (returnRef_keeps id).comp (legDrop_keeps cause n e)) _ _)

theorem letGo_keeps (n e) : Keeps (letGo n e) := by
  intro s
  unfold letGo
  split
  · exact Kept.refl s
  · exact (modLeg_keeps _ _ _ s).trans (returnRefs_keeps _ _)

theorem emptyWindow_keeps (n e l d) : Keeps (emptyWindow n e l d) := by
  intro s
  unfold emptyWindow
  simp only []
  split
  · exact (bumpLeg_keeps _ _ _ s).trans ((modLeg_keeps _ _ _ _).trans (raise_keeps _ _ _ _))
  · exact (bumpLeg_keeps _ _ _ s).trans (modLeg_keeps _ _ _ _)

theorem closeLeg_keeps (e o) : Keeps (closeLeg e o) := by
  intro s
  unfold closeLeg
  simp only []
  repeat' split
  · exact Kept.refl s
  · exact dropSlot_keeps _ _ _ s
  · exact emptyWindow_keeps _ _ _ _ s
  · exact Kept.refl s
  · exact Kept.refl s

theorem leaveBestEffort_keeps (e id) : Keeps (leaveBestEffort e id) := fun s =>
  (modEgress_keeps _ _ s).trans (returnRef_keeps _ _)

theorem endTransmission_keeps (e x) : Keeps (endTransmission e x) := by
  intro s
  unfold endTransmission
  simp only []
  repeat' split
  · exact modEgress_keeps _ _ s
  · exact (modEgress_keeps _ _ s).trans (returnRef_keeps _ _)
  · exact modEgress_keeps _ _ s
  · exact (modEgress_keeps _ _ s).trans (leaveBestEffort_keeps _ _ _)

theorem cutMotion_keeps (n e id) : Keeps (cutMotion n e id) := fun s =>
  (reportCutOff_keeps _ _ s).trans ((setFlag_keeps _ _ _).trans ((modLeg_keeps _ _ _ _).trans (returnRef_keeps _ _)))

theorem cutWire_keeps (e) : Keeps (cutWire e) := by
  intro s
  unfold cutWire
  split
  · exact Kept.refl s
  · simp only []
    split
    · exact (modEgress_keeps _ _ s).trans ((bumpPort_keeps _ _ _).trans (cutMotion_keeps _ _ _ _))
    · exact (modEgress_keeps _ _ s).trans ((bumpPort_keeps _ _ _).trans (cutMotion_keeps _ _ _ _))
    · exact (modEgress_keeps _ _ s).trans ((bumpPort_keeps _ _ _).trans
        ((reportCutOff_keeps _ _ _).trans ((setFlag_keeps _ _ _).trans (leaveBestEffort_keeps _ _ _))))

theorem dropQueue_keeps (e c) : Keeps (dropQueue e c) := fun s =>
  (modEgress_keeps _ _ s).trans
    (Keeps.forAll (fun id s => (beDrop_keeps _ _ _ _ s).trans (leaveBestEffort_keeps e id _)) _ _)

theorem emptyEgress_keeps (e) : Keeps (emptyEgress e) := fun s =>
  (cutWire_keeps e s).trans ((Keeps.forAll (dropQueue_keeps e) _ _).trans
    ((Keeps.forAll (fun n => dropSlot_keeps .linkDown n e) _ _).trans
      ((Keeps.forAll (fun n => letGo_keeps n e) _ _).trans (modEgress_keeps _ _ _))))

/-! ### Forwarding -/

theorem ingressDrop_keeps (p cause n) : Keeps (ingressDrop p cause n) := fun s =>
  (bumpPort_keeps _ _ s).trans (report_keeps _ _ _ _)

theorem portDrop_keeps (p cause) : Keeps (portDrop p cause) := by
  intro s
  unfold portDrop
  refine (ingressDrop_keeps p cause none s).trans ?_
  dsimp only
  split
  · exact receiveFault_keeps _ _
  · exact receiveFault_keeps _ _
  · exact receiveFault_keeps _ _
  · exact setFlag_keeps _ _ _
  · exact Kept.refl _

theorem slotEntry_keeps (n e d id) : Keeps (slotEntry n e d id) := by
  intro s
  unfold slotEntry
  simp only []
  split
  · exact (modLeg_keeps _ _ _ s).trans (choose_keeps _ _)
  · split
    · exact (modLeg_keeps _ _ _ s).trans
        ((returnRef_keeps _ _).trans ((bumpLeg_keeps _ _ _ _).trans (choose_keeps _ _)))
    · exact (choose_keeps _ s).trans ((legDrop_keeps _ _ _ _).trans (returnRef_keeps _ _))

theorem legArrival_keeps (n d id l) : Keeps (legArrival n d id l) := by
  intro s
  unfold legArrival
  split
  · exact slotEntry_keeps _ _ _ _ s
  all_goals first | exact legDrop_keeps _ _ _ s | exact Kept.refl s

theorem motionRefused_keeps (p n t) : Keeps (motionRefused p n t) := fun s =>
  (ingressDrop_keeps _ _ _ s).trans
    (Keeps.forAll (fun _ s => (bumpLeg_keeps _ _ _ s).trans (setFlag_keeps _ _ _)) _ _)

theorem motionArrival_keeps (p start n t f) : Keeps (motionArrival p start n t f) := by
  intro s
  unfold motionArrival
  refine (bumpStream_keeps n .matched s).trans ?_
  dsimp only
  split
  · exact Keeps.forAll (fun l => legArrival_keeps n _ _ l) _ _
  · split
    · exact motionRefused_keeps _ _ _ _
    · next h =>
      rw [not_or] at h
      exact (storeFrame_keeps _ _ _ _ _ (fun _ => Nat.le_of_not_lt h.2) (fun e => by cases e)).trans
        ((modStream_keeps _ _ _).trans (Keeps.forAll (fun l => legArrival_keeps n _ _ l) _ _))

theorem streamOversize_keeps (p n) : Keeps (streamOversize p n) := fun s =>
  (ingressDrop_keeps _ _ _ s).trans ((bumpStream_keeps _ _ _).trans (setFlag_keeps _ _ _))

theorem learn_keeps (p f) : Keeps (learn p f) := by
  intro s
  unfold learn
  split
  · exact Kept.refl s
  · split
    · next h =>
      split
      · exact (report_keeps _ _ _ s).trans (raise_keeps _ _ _ _)
      · next hf => exact (addrInsert_keeps _ _ h (by simpa using hf)).trans (bumpDevice_keeps _ _)
    · split
      · simp only []
        split
        · refine addrUpdate_keeps _ ?_ ?_ s
          · exact fun _ => ⟨rfl, rfl, rfl⟩
          · exact fun _ _ => Nat.zero_le _
        · refine Kept.trans (addrUpdate_keeps _ ?_ ?_ s) (bumpDevice_keeps _ _)
          · exact fun _ => ⟨rfl, rfl, rfl⟩
          · exact fun _ _ => Nat.zero_le _
      · split
        · exact Kept.refl s
        · exact bumpDevice_keeps _ s

theorem joinClass_keeps (cls c id e) : Keeps (joinClass cls c id e) := fun s =>
  (modEgress_keeps _ _ s).trans (choose_keeps _ _)

theorem targetDrop_keeps (p e) : Keeps (targetDrop p e) := by
  intro s
  unfold targetDrop
  split <;> exact beDrop_keeps _ _ _ _ s

/-- Drops for single targets leave the buffer. -/
theorem targetDrop_buffer (p : Port) (es : List Port) (s : State) : (forAll es (targetDrop p) s).buffer = s.buffer := by
  induction es generalizing s with
  | nil => rfl
  | cons e es ih =>
    refine (ih (targetDrop p e s)).trans ?_
    unfold targetDrop
    split <;> rfl

theorem admit_keeps (p start f cls ts) : Keeps (admitFrame p start f cls ts) := by
  intro s
  have dropped : Kept s (forAll (ts.filter fun e => s.ports[e].link == .down) (targetDrop p) s) :=
    Keeps.forAll (targetDrop_keeps p) _ s
  have refused := dropped.trans ((ingressDrop_keeps p .noBuffer none _).trans (setFlag_keeps p .beDrop _))
  unfold admitFrame
  dsimp only
  by_cases room : cellsOf (frameLen f) ≤ s.buffer.beFree
  · rw [if_pos room]
    split
    · split
      · exact refused
      · exact dropped
    · exact (Keeps.forAll (targetDrop_keeps p) _ s).trans (Kept.trans (storeFrame_keeps _ _ _ _ _ (fun e => by cases e)
        (fun _ => by rw [targetDrop_buffer]; exact room)) (Keeps.forAll (joinClass_keeps _ _ _) _ _))
  · rw [if_neg room]
    split
    · split
      · exact refused
      · exact dropped
    · next h => exact absurd rfl h

theorem bestEffort_keeps (p start f) : Keeps (bestEffort p start f) := by
  intro s
  unfold bestEffort
  refine (learn_keeps p f s).trans ?_
  simp only []
  split
  · exact (bumpPort_keeps _ _ _).trans ((report_keeps _ _ _ _).trans (setFlag_keeps _ _ _))
  · exact admit_keeps _ _ _ _ _ _

theorem classify_keeps (p start f) : Keeps (classify p start f) := by
  intro s
  unfold classify
  split
  · exact bestEffort_keeps _ _ _ s
  · split
    · exact bestEffort_keeps _ _ _ s
    · split
      · split
        · exact streamOversize_keeps _ _ s
        · exact motionArrival_keeps _ _ _ _ _ s
      · exact (bumpStream_keeps _ _ s).trans (bestEffort_keeps _ _ _ _)

/-! ### The engine -/

theorem finishReply_keeps (kind tag body) : Keeps (finishReply kind tag body) := modEngine_keeps fun _ => rfl
theorem dropPending_keeps (n) : Keeps (dropPending n) := modEngine_keeps fun _ => rfl
theorem raiseKappa_keeps (m e) : Keeps (raiseKappa m e) := fun s => modPort_keeps _ _ s
theorem insertLeg_keeps (n m e p) : Keeps (insertLeg n m e p) := fun _ => .plain rfl rfl rfl rfl rfl rfl rfl rfl
theorem setCurrent_keeps (c) : Keeps (setCurrent c) := modEngine_keeps fun _ => rfl
theorem countStep_keeps (b) : Keeps (countStep b) := fun _ => .plain rfl rfl rfl rfl rfl rfl rfl rfl
theorem unpost_keeps (kind p) : Keeps (unpost kind p) := modEngine_keeps fun g => by cases kind <;> rfl

theorem takeLegStep_keeps : Keeps takeLegStep := by
  intro s
  unfold takeLegStep
  repeat' split
  all_goals first
    | exact Kept.refl s
    | exact (setCurrent_keeps _ s).trans (countStep_keeps _ _)

theorem carryRelease_keeps (tag n) : Keeps (carryRelease tag n) := by
  intro s
  unfold carryRelease
  refine Kept.trans ?_ (modStream_keeps _ _ _)
  refine Kept.trans ?_ (modEngine_kept fun _ => rfl)
  exact dropPending_keeps n s

theorem arbitrate_keeps (fuel) : Keeps (arbitrate fuel) := by
  induction fuel with
  | zero => exact Kept.refl
  | succ fuel ih =>
    intro s
    unfold arbitrate
    split
    · exact Kept.refl s
    · split
      · simp only []
        split
        · exact (unpost_keeps _ _ s).trans (ih _)
        · exact (unpost_keeps _ _ s).trans ((setCurrent_keeps _ _).trans (modEngine_kept fun _ => rfl))
      · split
        · exact Kept.refl s
        · simp only []
          split
          · refine Kept.trans ?_ (ih _)
            refine Kept.trans ?_ (carryRelease_keeps _ _ _)
            exact modEngine_kept fun _ => rfl
          · refine Kept.trans ?_ (modEngine_kept fun _ => rfl)
            refine Kept.trans ?_ (setCurrent_keeps _ _)
            refine Kept.trans ?_ (modStream_keeps _ _ _)
            exact modEngine_kept fun _ => rfl

theorem engineTake_keeps : Keeps engineTake := fun s => arbitrate_keeps _ s

theorem placeSuccess_keeps (r) : Keeps (placeSuccess r) := by
  intro s
  unfold placeSuccess
  refine Kept.trans ?_ (engineTake_keeps _)
  refine Kept.trans ?_ (modEngine_kept fun _ => rfl)
  refine Kept.trans (Keeps.forAll (fun x => ?_) _ s) (modStream_keeps _ _ _)
  exact fun s => (modLeg_keeps _ _ _ s).trans ((insertLeg_keeps _ _ _ _ _).trans (raiseKappa_keeps _ _ _))

theorem placeFailure_keeps (r why) : Keeps (placeFailure r why) := fun s =>
  (setStream_keeps _ _ s).trans ((finishReply_keeps _ _ _ _).trans ((setCurrent_keeps _ _).trans (engineTake_keeps _)))

theorem repairSuccess_keeps (r) : Keeps (repairSuccess r) := by
  intro s
  unfold repairSuccess
  refine Kept.trans ?_ (engineTake_keeps _)
  refine Kept.trans ?_ (modEngine_kept fun _ => rfl)
  refine Kept.trans (Keeps.forAll (f := fun e s => s.modEngine fun g => { g with timelines := Table.upd g.timelines e (r.keep e) })
    (fun e => modEngine_keeps fun _ => rfl) _ s) (Keeps.forAll (fun x s => ?_) _ _)
  obtain ⟨n, e, res⟩ := x
  cases res with
  | placed p => exact (modLeg_keeps _ _ _ s).trans ((insertLeg_keeps _ _ _ _ _).trans (raiseKappa_keeps _ _ _))
  | refused why => exact modLeg_keeps _ _ _ s

theorem endPlace_keeps : Keeps endPlace := by
  intro s
  unfold endPlace
  repeat' split
  · exact placeFailure_keeps _ _ s
  · exact placeSuccess_keeps _ s
  · exact Kept.refl s
  · exact Kept.refl s

theorem endRepair_keeps : Keeps endRepair := by
  intro s
  unfold endRepair
  repeat' split
  · exact repairSuccess_keeps _ s
  · exact Kept.refl s
  · exact Kept.refl s

theorem endHeld_keeps : Keeps endHeld := by
  intro s
  unfold endHeld
  repeat' split
  all_goals first | exact placeSuccess_keeps _ s | exact repairSuccess_keeps _ s | exact Kept.refl s

theorem commitState_keeps (n e old new) : Keeps (commitState n e old new) := by
  intro s
  unfold commitState
  dsimp only
  split
  · exact (modLeg_keeps _ _ _ s).trans ((dropSlot_keeps _ _ _ _).trans (letGo_keeps _ _ _))
  · exact modLeg_keeps _ _ _ s

theorem commitLeg_keeps (n l) : Keeps (commitLeg n l) := by
  intro s
  unfold commitLeg
  split
  · exact Kept.refl s
  · exact (modLeg_keeps _ _ _ s).trans (commitState_keeps _ _ _ _ _)
  · exact (modLeg_keeps _ _ _ s).trans (commitState_keeps _ _ _ _ _)

theorem freeReleasing_keeps (n t) : Keeps (freeReleasing n t) := by
  intro s
  unfold freeReleasing
  refine Kept.trans (Kept.trans (forAll_kept fun l t => ?_) ((orphanFrames_keeps n _).trans (setStream_keeps n none _)))
    (forAll_kept fun q t => probeFreed_keeps _ n q t)
  exact (dropSlot_keeps .released n l.egress t).trans (letGo_keeps _ _ _)

theorem commitStream_keeps (n) : Keeps (commitStream n) := by
  intro s
  unfold commitStream
  repeat' split
  · exact Kept.refl s
  · exact setStream_keeps _ _ s
  · exact Keeps.forAll (fun l => commitLeg_keeps n l) _ s
  · exact freeReleasing_keeps _ _ s
  · exact Kept.refl s

theorem commit_keeps : Keeps commit := by
  intro s
  unfold commit
  dsimp only
  refine Kept.trans ?_ (modEngine_kept fun _ => rfl)
  refine Kept.trans ?_ (forAll_kept fun d t => raise_keeps _ _ d t)
  refine Kept.trans ?_ (modEngine_kept fun _ => rfl)
  refine Kept.trans ?_ (forAll_kept commitStream_keeps)
  exact forAll_kept fun e t => modEgress_keeps e _ t

theorem engineCycle_keeps : Keeps engineCycle := by
  intro s
  unfold engineCycle
  refine Kept.trans ?_ (endHeld_keeps _)
  split
  · exact commit_keeps s
  · exact Kept.refl s

/-! ### The cycle timer -/

theorem changeSync_keeps (new) : Keeps (changeSync new) := by
  intro s
  unfold changeSync
  split
  · exact Kept.refl s
  · exact (modTimer_keeps _ s).trans (raise_keeps _ _ _ _)

theorem recordStrobe_keeps (r) : Keeps (recordStrobe r) := modTimer_keeps _

theorem deviceReport_keeps (c z) : Keeps (deviceReport c z) := reportWith_keeps _ _ _ _ _

theorem realign_keeps (stamp t) : Keeps (realign stamp t) := fun s =>
  (modTimer_keeps _ s).trans ((changeSync_keeps _ _).trans (deviceReport_keeps _ _ _))

theorem inWindow_keeps (stamp t ref eps) : Keeps (inWindow stamp t ref eps) := by
  intro s
  unfold inWindow
  simp only []
  refine Kept.trans ?_ (recordStrobe_keeps _ _)
  split
  · exact (modTimer_keeps _ s).trans ((modTimer_keeps _ _).trans (changeSync_keeps _ _))
  · exact modTimer_keeps _ s

theorem outOfWindow_keeps (stamp t ref eps) : Keeps (outOfWindow stamp t ref eps) := by
  intro s
  unfold outOfWindow
  simp only []
  have base := (modTimer_keeps (Timer.setMark ref) s).trans (deviceReport_keeps .outOfWindow (some stamp) _)
  split
  · exact base.trans ((realign_keeps _ _ _).trans (recordStrobe_keeps _ _))
  · exact base.trans ((modTimer_keeps _ _).trans (recordStrobe_keeps _ _))

theorem takeStrobe_keeps (stamp) : Keeps (takeStrobe stamp) := by
  intro s
  unfold takeStrobe
  simp only []
  repeat' split
  all_goals first
    | exact recordStrobe_keeps _ s
    | exact (deviceReport_keeps _ _ s).trans (recordStrobe_keeps _ _)
    | exact inWindow_keeps _ _ _ _ s
    | exact outOfWindow_keeps _ _ _ _ s
    | exact (modTimer_keeps _ s).trans ((realign_keeps _ _ _).trans (recordStrobe_keeps _ _))

theorem sampleCyc_keeps (level) : Keeps (sampleCyc level) := by
  intro s
  unfold sampleCyc
  simp only []
  split
  · exact (modTimer_keeps _ s).trans (takeStrobe_keeps _ _)
  · exact modTimer_keeps _ s

theorem sampleArc_keeps (level) : Keeps (sampleArc level) := by
  intro s
  unfold sampleArc
  simp only []
  split
  · exact (modArc_keeps _ s).trans (arcEdge_keeps _ _ _)
  · exact modArc_keeps _ s

theorem qualifyCyc_keeps (level) : Keeps (qualifyCyc level) := by
  intro s
  unfold qualifyCyc
  split
  · exact sampleCyc_keeps _ s
  · exact Kept.refl s

theorem qualifyArc_keeps (level) : Keeps (qualifyArc level) := by
  intro s
  unfold qualifyArc
  split
  · exact sampleArc_keeps _ s
  · exact Kept.refl s

theorem endCheck_keeps : Keeps endCheck := by
  intro s
  have base := deviceReport_keeps .missedStrobe none s
  unfold endCheck
  dsimp only
  repeat' split
  · exact Kept.refl s
  · exact base
  · exact base.trans ((modTimer_keeps _ _).trans (changeSync_keeps _ _))
  · exact base.trans ((modTimer_keeps _ _).trans (changeSync_keeps _ _))
  · exact base.trans (modTimer_keeps _ _)
  · exact Kept.refl s

theorem startPasses_keeps : Keeps startPasses := fun s => Keeps.forAll (fun e => modEgress_keeps e _) _ s

theorem cycleStart_keeps : Keeps cycleStart := by
  intro s
  unfold cycleStart
  dsimp only
  refine Kept.trans ?_ (ageCycle_keeps _)
  refine Kept.trans ?_ (forAll_kept fun q t => probeCount_keeps _ q t)
  refine Kept.trans ?_ (forAll_kept fun p t => noiseCycle_keeps _ p t)
  refine Kept.trans ?_ (startPasses_keeps _)
  refine Kept.trans ?_ (engineCycle_keeps _)
  exact (endCheck_keeps s).trans (modTimer_keeps _ _)

/-! ### Port units -/

theorem modRunningLegs_keeps (e f) : Keeps (modRunningLegs e f) := fun _ => .plain rfl rfl rfl rfl rfl rfl rfl rfl

theorem linkEvent_keeps (p kind link) : Keeps (linkEvent p kind link) := fun s =>
  (modPort_keeps _ _ s).trans ((bumpPort_keeps _ _ _).trans (raise_keeps _ _ _ _))

theorem takeLinkDown_keeps (p) : Keeps (takeLinkDown p) := by
  intro s
  unfold takeLinkDown
  dsimp only
  refine Kept.trans ?_ (linkEvent_keeps _ _ _ _)
  have base := fun f => (emptyEgress_keeps p s).trans ((modRunningLegs_keeps p f _).trans (setFlag_keeps p .linkLost _))
  split
  · exact (base _).trans ((bumpPort_keeps _ _ _).trans (modPort_keeps _ _ _))
  · exact base _

theorem takeLinkUp_keeps (p x) : Keeps (takeLinkUp p x) := by
  intro s
  unfold takeLinkUp
  dsimp only
  refine Kept.trans ?_ (choose_keeps _ _)
  refine Kept.trans ?_ (linkEvent_keeps _ _ _ _)
  refine Kept.trans ?_ (modPort_keeps _ _ _)
  split
  · exact modRunningLegs_keeps _ _ s
  · exact (modRunningLegs_keeps _ _ s).trans (setFlag_keeps _ _ _)

theorem phyReport_keeps (p r) : Keeps (phyReport p r) := by
  intro s
  unfold phyReport
  split
  · exact Kept.refl s
  · exact takeLinkUp_keeps _ _ s
  · exact takeLinkDown_keeps _ s
  · split
    · exact Kept.refl s
    · exact (takeLinkDown_keeps _ s).trans (takeLinkUp_keeps _ _ _)

theorem changePlan_keeps (p) : Keeps (changePlan p) := by
  intro s
  unfold changePlan
  dsimp only
  split
  · refine Kept.trans ?_ (setFlag_keeps _ _ _)
    exact modEngine_kept fun _ => rfl
  · exact modEngine_kept fun _ => rfl

theorem ite_kept {c : Prop} [Decidable c] {s a b : State} (ha : Kept s a) (hb : Kept s b) :
    Kept s (if c then a else b) := by
  split
  · exact ha
  · exact hb

theorem applyConfig_keeps (p c) : Keeps (applyConfig p c) := by
  intro s
  unfold applyConfig
  dsimp only
  refine Kept.trans ?_ (engineTake_keeps _)
  have base := modPort_keeps p (PortUnit.withSettings c) s
  have h1 := fun d [Decidable d] => ite_kept (c := d) base (base.trans (changePlan_keeps p _))
  have h2 := fun d e [Decidable d] [Decidable e] => ite_kept (c := e) ((h1 d).trans (exposedOn_keeps p _)) (h1 d)
  exact ite_kept ((h2 _ _).trans (choose_keeps p _)) (h2 _ _)

end Sys2Proof.Laws
end

