-- ==== Sys2Proof/Laws/Ops.lean ====
section
/-! SUPPORT. What each shared operation does, said once: the end of an event, the reports, taking a request and replying,
references and the frame buffer, notices, and the numbers of a payload. -/

namespace Sys2Proof.Laws

open Sys2Proof.Machine Sys2Proof.Safety

/-! ### Events and reports -/

/-- With no report made, the fault unit has nothing to take. -/
@[simp] theorem takeReports_none {s : State} (h : s.fault.inbox = []) : takeReports s = s := by
  have e : s.modFault (fun u => { u with inbox := [] }) = s := by
    have f : ({ s.fault with inbox := [] } : FaultUnit) = s.fault := by rw [← h]
    simp only [State.modFault, f]
  rw [takeReports, e, h]
  rfl

/-- With one report made, the fault unit takes it. -/
theorem takeReports_one {s : State} {r : Report} (h : s.fault.inbox = [r]) :
    takeReports s = takeReport (s.modFault fun u => { u with inbox := [] }) r := by
  rw [takeReports, h]; rfl

/-- An event while RESET_N is high: its effect, then the reports. -/
theorem event_high {s : State} (h : s.resetLow = false) (f : State → State) : event f s = .next (takeReports (f s)) := by
  simp [event, running, h]

/-- An event that makes no report. -/
theorem event_silent {s : State} (h : s.resetLow = false) {f : State → State} (k : (f s).fault.inbox = []) :
    event f s = .next (f s) := by
  rw [event_high h, takeReports_none k]

/-- An event whose trigger does not hold. -/
theorem event_idle {s : State} (h : Awake s) {f : State → State} (k : f s = s) : event f s = .next s := by
  rw [event_high h.high, k, takeReports_none h.noReports]

/-- While RESET_N is low no event has an effect. -/
theorem event_low {s : State} (h : s.resetLow = true) (f : State → State) : event f s = .next s := by
  simp [event, running, h]

/-! ### Taking a request and replying -/

/-- The state with the request taken from the inbound queue. -/
abbrev took (rest : List Request) (s : State) : State := s.modMgmt fun m => { m with inbound := rest }

theorem takes_offered {s : State} {q : Request} {rest : List Request} (h : Offers s q rest) :
    s.takes q.kind = some (q, rest) := by
  simp [State.takes, h.head, h.high, State.requestOffered, h.noneFinished, Config.outboundPlaces, h.room]

/-- A request of another kind is not taken. -/
theorem takes_other {s : State} {q : Request} {rest : List Request} {kind : Byte} (h : s.mgmt.inbound = q :: rest)
    (k : q.kind ≠ kind) : s.takes kind = none := by
  simp [State.takes, h, k]

/-- What taking a request does: its rule, on the state without it, where its length is right; BAD_LENGTH where it is not. -/
theorem taking_offered {s : State} {q : Request} {rest : List Request} (h : Offers s q rest) (len : Nat)
    (run : Request → State → State) :
    taking q.kind len run s =
      if q.payload.length = len then run q (took rest s) else replied q rest (.badLength len) s := by
  simp only [taking, takes_offered h]
  rfl

/-- A request of the right kind and length that makes no report. -/
theorem request_next {s : State} {q : Request} {rest : List Request} {kind : Byte} {len : Nat}
    {run : Request → State → State} (h : Offers s q rest) (hk : q.kind = kind) (hl : q.payload.length = len)
    (quiet : (run q (took rest s)).fault.inbox = []) : event (taking kind len run) s = .next (run q (took rest s)) := by
  subst hk
  have e : taking q.kind len run s = run q (took rest s) := by rw [taking_offered h, if_pos hl]
  rw [event_silent h.high (by rw [e]; exact quiet), e]

/-- A reply to a request just taken, the state otherwise as it was. -/
@[simp] theorem answer_took (q : Request) (rest : List Request) (r : Reply) (s : State) :
    answer q r (took rest s) = replied q rest r s := rfl

@[simp] theorem refuse_took (q : Request) (rest : List Request) (c : Code) (s : State) :
    refuse q c (took rest s) = replied q rest (.plain c) s := rfl

@[simp] theorem badField_took (q : Request) (rest : List Request) (offset : Nat) (s : State) :
    badField q offset (took rest s) = replied q rest (.badField offset) s := rfl

/-- A reply leaves no report. -/
@[simp] theorem answer_inbox (q : Request) (r : Reply) (s : State) : (answer q r s).fault = s.fault := rfl

/-! ### Notices -/

/-- A raise at a source that is not routed. -/
theorem raise_unrouted {src : Fin 12} {s : State} (h : s.mgmt.sources[src].number = 0) (cycle : CycleNo) (d : NoticeData) :
    raise src cycle d s = s.modMgmt fun m => { m with unrouted := satInc m.unrouted } := by
  simp only [raise, State.modMgmt, if_pos h]

/-- A raise at a source that is routed. -/
theorem raise_routed {src : Fin 12} {s : State} (h : s.mgmt.sources[src].number ≠ 0) (cycle : CycleNo) (d : NoticeData) :
    raise src cycle d s = s.modMgmt fun m =>
      { m with sources := Table.upd m.sources src fun x => { x with pending := joinPending cycle d x.pending } } := by
  simp only [raise, State.modMgmt, if_neg h]

/-- A raised notice of a routed source is pending, with its data. -/
theorem joinPending_mem (cycle : CycleNo) (d : NoticeData) (xs : List Notice) :
    ∃ n ∈ joinPending cycle d xs, n.cycle = cycle ∧ n.data = d := by
  induction xs with
  | nil => exact ⟨⟨1, cycle, d⟩, by simp [joinPending], rfl, rfl⟩
  | cons x xs ih =>
    simp only [joinPending]
    split
    · exact ⟨⟨min 255 (x.repeats + 1), cycle, d⟩, by simp, rfl, rfl⟩
    · obtain ⟨n, hn, h⟩ := ih
      exact ⟨n, by simp [hn], h⟩

/-! ### Frames -/

/-- A stored frame is found under the handle it took, and every other one under its own. -/
theorem storeFrame_frame {s : State} (h : CellsOk s.buffer) (pool : Pool) (refs : Nat) (p : Port) (start : Stamp)
    (n : Option StreamNo) (cls : Option ClassNo) (f : RxFrame) :
    (storeFrame pool refs p start n cls f s).frame s.buffer.nextId =
      some ⟨s.buffer.nextId, pool, cellsOf (frameLen f), refs, frameLen f, p, start, s.timer.grain, n, cls, false, f.bytes⟩ := by
  have none : s.buffer.frames.find? (fun r => r.id == s.buffer.nextId) = none := by
    rw [List.find?_eq_none]
    intro r hr
    have := h.fresh r hr
    simpa using Nat.ne_of_lt this
  cases pool <;> simp [State.frame, storeFrame, takeCells, State.modBuffer, List.find?_append, none]

/-- A reference that is not the last leaves the frame with one fewer. -/
theorem returnRef_frame {s : State} {id : FrameId} {r : FrameRecord} (h : s.frame id = some r) (k : 1 < r.refs) :
    (returnRef id s).frame id = some { r with refs := r.refs - 1 } := by
  have hid : r.id = id := by
    have := List.find?_some h
    simpa using this
  rw [returnRef, h]
  simp only [if_neg (Nat.not_le.2 k), State.frame, State.modBuffer]
  unfold State.frame at h
  rw [List.find?_map]
  have e : ((fun x : FrameRecord => x.id == id) ∘ fun x => if x.id == id then { x with refs := x.refs - 1 } else x) =
      fun x => x.id == id := by
    funext x
    simp only [Function.comp]
    split <;> rfl
  rw [e, h]
  simp [hid]

/-- The last reference frees the frame. -/
theorem returnRef_last {s : State} {id : FrameId} {r : FrameRecord} (h : s.frame id = some r) (k : r.refs ≤ 1) :
    returnRef id s = freeFrame r s := by
  rw [returnRef, h]
  simp only [if_pos k]

/-! ### Payload bytes -/

/-- A byte of a payload is below 256. -/
theorem Request.b_lt (q : Request) (i : Nat) : q.b i < 256 := by
  unfold Request.b
  exact BitVec.isLt _

/-- A field of a record has the length its layout gives it. -/
@[simp] theorem beBytes_length (k v : Nat) : (beBytes k v).length = k := by
  induction k with
  | zero => rfl
  | succ k ih => simp [beBytes, ih]

theorem beValue_foldl (bs : List Byte) (a : Nat) :
    bs.foldl (fun a b => a * 256 + b.toNat) a = a * 256 ^ bs.length + beValue bs := by
  induction bs generalizing a with
  | nil => simp [beValue]
  | cons b bs ih =>
    have e : beValue (b :: bs) = b.toNat * 256 ^ bs.length + beValue bs := by simpa [beValue] using ih b.toNat
    rw [List.foldl_cons, ih, e, List.length_cons, Nat.pow_succ]
    ring

/-- What a field of a record spells: the number put there, as far as the field's bytes hold it. -/
theorem beValue_beBytes (k v : Nat) : beValue (beBytes k v) = v % 256 ^ k := by
  induction k with
  | zero => simp [beBytes, beValue, Nat.mod_one]
  | succ k ih =>
    rw [beBytes, beValue, List.foldl_cons, beValue_foldl, ih, beBytes_length, Nat.mod_pow_succ, BitVec.toNat_ofNat]
    ring

/-- A port number in a payload byte. -/
theorem asPort_of {v : Nat} {p : Port} (h : v = p.val) : asPort v = some p := by
  subst h; simp [asPort]

theorem asPort_none {v : Nat} (h : 8 ≤ v) : asPort v = none := by
  simp [asPort]; omega

end Sys2Proof.Laws
end

