-- ==== Sys2Proof/Laws/Returns.lean ====
section
/-! SUPPORT. References: what the return of one, and of several one after another, does to the stored frames and to the pools
(R124). -/

namespace Sys2Proof.Laws

open Sys2Proof.Machine Sys2Proof.Safety

/-- Nothing returned. -/
theorem returned_refl (s : State) : Returned s s [] fun _ => false where
  handles := .refl _
  absent := fun _ h => h
  frames := by intro id r h; simp [h]
  cells := fun _ => ⟨rfl, rfl⟩

/-- One return after another. -/
theorem returned_trans {s t u : State} {xs ys : List FrameId} {f g : StreamNo → Bool} (h : Returned s t xs f)
    (h' : Returned t u ys g) : Returned s u (xs ++ ys) fun n => f n || g n where
  handles := h'.handles.trans h.handles
  absent := fun id e => h'.absent id (h.absent id e)
  frames := by
    intro id r e
    have k := h.frames id r e
    rw [List.count_append]
    by_cases c : xs.count id ≠ 0 ∧ r.refs ≤ xs.count id
    · rw [if_pos c] at k
      rw [h'.absent id k, if_pos (by omega)]
    · rw [if_neg c] at k
      rw [h'.frames id _ k]
      have m : (Option.any (fun n => f n || g n) r.stream) = (Option.any f r.stream || Option.any g r.stream) := by
        cases r.stream <;> rfl
      by_cases d : ys.count id ≠ 0 ∧ r.refs - xs.count id ≤ ys.count id
      · rw [if_pos d, if_pos (by omega)]
      · rw [if_neg d, if_neg (by omega), m, Nat.sub_sub, Bool.or_assoc]
  cells := by
    intro n
    have a := h.cells n
    have b := h'.cells (n.sublist h.handles)
    exact ⟨b.1.trans a.1, b.2.trans a.2⟩

/-- The frames that stay stored when one leaves. -/
theorem frame_freeFrame (r : FrameRecord) (s : State) (id : FrameId) :
    (freeFrame r s).frame id = if id = r.id then none else s.frame id := by
  have e : (freeFrame r s).buffer.frames = s.buffer.frames.filter fun x => x.id != r.id := by
    unfold freeFrame
    cases r.stream <;> cases r.pool <;> (try cases r.orphan) <;> rfl
  rw [State.frame, e, List.find?_filter, State.frame]
  split
  · next h =>
    subst h
    refine List.find?_eq_none.2 fun x _ => ?_
    simp
  · next h =>
    congr 1
    funext x
    by_cases k : x.id = id
    · simp [k, h]
    · simp [k]

/-- What a holder's return does (R124): once, for one frame. -/
theorem returnRef_returned (id : FrameId) (s : State) : Returned s (returnRef id s) [id] fun _ => false := by
  have none_any (x : Option StreamNo) : x.any (fun _ => false) = false := by cases x <;> rfl
  cases h : s.frame id with
  | none =>
    have e : returnRef id s = s := by rw [returnRef, h]
    rw [e]
    refine ⟨.refl _, fun _ h => h, fun i r k => ?_, fun _ => ⟨rfl, rfl⟩⟩
    have ne : id ≠ i := by rintro rfl; rw [h] at k; cases k
    simp [ne, k, none_any]
  | some r =>
    have hid : r.id = id := by simpa using List.find?_some h
    have mem : r ∈ s.buffer.frames := List.mem_of_find?_eq_some h
    by_cases c : r.refs ≤ 1
    · rw [returnRef_last h c]
      have frames : (freeFrame r s).buffer.frames = s.buffer.frames.filter fun x => x.id != r.id := by
        unfold freeFrame
        cases r.stream <;> cases r.pool <;> (try cases r.orphan) <;> rfl
      refine ⟨?_, fun i k => ?_, fun i x k => ?_, fun n => ?_⟩
      · rw [frames]; exact (List.filter_sublist).map _
      · rw [frame_freeFrame, k]; split <;> rfl
      · rw [frame_freeFrame, hid, k]
        by_cases e : i = id
        · subst e
          rw [h] at k; cases k
          simp [c]
        · have e' : id ≠ i := fun z => e z.symm
          simp [e, e', none_any]
      · have a := cellsIn_remove .motion n mem
        have b := cellsIn_remove .bestEffort n mem
        have m : (freeFrame r s).buffer.motionFree = s.buffer.motionFree + (if r.pool = .motion then r.cells else 0) := by
          unfold freeFrame
          cases r.stream <;> cases r.pool <;> (try cases r.orphan) <;> rfl
        have f : (freeFrame r s).buffer.beFree = s.buffer.beFree + (if r.pool = .bestEffort then r.cells else 0) := by
          unfold freeFrame
          cases r.stream <;> cases r.pool <;> (try cases r.orphan) <;> rfl
        rw [frames, m, f]
        omega
    · have e : returnRef id s = s.modBuffer fun b => { b with
          frames := b.frames.map fun x => if x.id == id then { x with refs := x.refs - 1 } else x } := by
        rw [returnRef, h]; simp only [if_neg c]
      have ids : (returnRef id s).buffer.frames.map (·.id) = s.buffer.frames.map (·.id) := by
        rw [e]
        show List.map _ (List.map _ s.buffer.frames) = _
        rw [List.map_map]
        refine List.map_congr_left fun x _ => ?_
        simp only [Function.comp]
        split <;> rfl
      have cells (p : Pool) : cellsIn p (returnRef id s).buffer.frames = cellsIn p s.buffer.frames := by
        rw [e]
        exact cellsIn_map p _ (fun x => by split <;> exact ⟨rfl, rfl⟩) _
      have at' (i : FrameId) : (returnRef id s).frame i =
          (s.frame i).map fun x => if x.id == id then { x with refs := x.refs - 1 } else x := by
        rw [e]
        show (List.map _ s.buffer.frames).find? _ = _
        rw [List.find?_map]
        have : ((fun x : FrameRecord => x.id == i) ∘ fun x => if x.id == id then { x with refs := x.refs - 1 } else x) =
            fun x => x.id == i := by
          funext x; simp only [Function.comp]; split <;> rfl
        rw [this]; rfl
      refine ⟨ids ▸ .refl _, fun i k => ?_, fun i x k => ?_, fun _ => ?_⟩
      · rw [at', k]; rfl
      · have xid : x.id = i := by simpa using List.find?_some k
        rw [at', k]
        by_cases z : i = id
        · subst z
          rw [h] at k; cases k
          simp [xid, c, none_any]
        · have z' : id ≠ i := fun w => z w.symm
          have other : x.id ≠ id := xid ▸ z
          simp [other, z', none_any]
      · rw [cells, cells, e]
        exact ⟨rfl, rfl⟩

/-- What the return of several references does (R124). -/
theorem returnRefs_returned (ids : List FrameId) (s : State) : Returned s (returnRefs ids s) ids fun _ => false := by
  induction ids generalizing s with
  | nil => exact returned_refl s
  | cons id ids ih => exact returned_trans (returnRef_returned id s) (ih (returnRef id s))

end Sys2Proof.Laws
end

