-- ==== Sys2Proof/Laws/Timelines.lean ====
section
/-! SUPPORT. Timelines: what a sorted insertion keeps (R61), and that a placed leg fits the view it was searched in (R66,
R69, R70, R72). -/

namespace Sys2Proof.Laws

open Sys2Proof.Machine Sys2Proof.Safety

/-- Two windows do not overlap. -/
def Apart (x y : Window) : Prop := x.stop ≤ y.start ∨ y.stop ≤ x.start

theorem apart_symm {x y : Window} (h : Apart x y) : Apart y x := h.symm

theorem insertWindow_perm (w : Window) (tl : List Window) : (insertWindow w tl).Perm (w :: tl) := by
  induction tl with
  | nil => exact .refl _
  | cons x xs ih =>
    simp only [insertWindow]
    split
    · exact (ih.cons x).trans (.swap w x xs)
    · exact .refl _

theorem insertWindows_perm (ws tl : List Window) : (insertWindows ws tl).Perm (ws ++ tl) := by
  induction ws generalizing tl with
  | nil => exact .refl _
  | cons w ws ih =>
    refine (ih (insertWindow w tl)).trans (((insertWindow_perm w tl).append_left ws).trans ?_)
    exact List.perm_middle

theorem insertWindows_append (vs ws tl : List Window) :
    insertWindows (vs ++ ws) tl = insertWindows ws (insertWindows vs tl) := by
  simp [insertWindows, List.foldl_append]

theorem mem_insertWindow {w x : Window} {tl : List Window} : x ∈ insertWindow w tl ↔ x = w ∨ x ∈ tl := by
  simp [(insertWindow_perm w tl).mem_iff]

theorem mem_insertWindows {ws tl : List Window} {x : Window} : x ∈ insertWindows ws tl ↔ x ∈ ws ∨ x ∈ tl := by
  simp [(insertWindows_perm ws tl).mem_iff]

/-- A window apart from every window of a timeline in order enters it in order. -/
theorem insertWindow_ordered {w : Window} {tl : List Window} (hw : w.start < w.stop) (hp : ∀ x ∈ tl, x.start < x.stop)
    (ho : tl.Pairwise fun x y => x.stop ≤ y.start) (hd : ∀ x ∈ tl, Apart w x) :
    (insertWindow w tl).Pairwise fun x y => x.stop ≤ y.start := by
  induction tl with
  | nil => simp [insertWindow]
  | cons x xs ih =>
    rw [List.pairwise_cons] at ho
    have hx := hp x (.head _)
    have ax : w.stop ≤ x.start ∨ x.stop ≤ w.start := hd x (.head _)
    simp only [insertWindow]
    split
    · refine List.pairwise_cons.2 ⟨fun y hy => ?_, ih (fun y h => hp y (.tail _ h)) ho.2 fun y h => hd y (.tail _ h)⟩
      rcases mem_insertWindow.1 hy with rfl | hy
      · omega
      · exact ho.1 y hy
    · refine List.pairwise_cons.2 ⟨fun y hy => ?_, List.pairwise_cons.2 ho⟩
      rcases List.mem_cons.1 hy with rfl | hy
      · omega
      · have := ho.1 y hy
        omega

/-- Windows apart from one another and from a timeline in order enter it in order (R61, R72). -/
theorem timelineOk_insert {ws tl : List Window} (h : TimelineOk tl) (hp : ∀ w ∈ ws, w.start < w.stop)
    (hw : ws.Pairwise Apart) (hd : ∀ w ∈ ws, ∀ x ∈ tl, Apart w x) (hs : ws.length + tl.length ≤ 256) :
    TimelineOk (insertWindows ws tl) := by
  have key : ∀ x ∈ insertWindows ws tl, x.start < x.stop := fun x hx =>
    (mem_insertWindows.1 hx).elim (hp x) (h.proper x)
  refine ⟨key, ?_, by rw [(insertWindows_perm ws tl).length_eq, List.length_append]; exact hs⟩
  clear hs key
  have ho := h.ordered
  have ht := h.proper
  clear h
  induction ws generalizing tl with
  | nil => exact ho
  | cons w ws ih =>
    rw [List.pairwise_cons] at hw
    refine ih (fun x hx => hp x (.tail _ hx)) hw.2 (fun x hx y hy => ?_)
      (insertWindow_ordered (hp w (.head _)) ht ho (hd w (.head _))) fun y hy => ?_
    · rcases mem_insertWindow.1 hy with rfl | hy
      · exact (hw.1 x hx).symm
      · exact hd x (.tail _ hx) y hy
    · rcases mem_insertWindow.1 hy with rfl | hy
      · exact hp y (.head _)
      · exact ht y hy

/-- In a timeline in order any two entries are apart. -/
theorem timelineOk_apart {tl : List Window} (h : TimelineOk tl) : tl.Pairwise Apart := h.ordered.imp Or.inl

/-- What entered a timeline in order was apart from one another and from what stood there. -/
theorem apart_of_insert {ws tl : List Window} (h : TimelineOk (insertWindows ws tl)) :
    ws.Pairwise Apart ∧ tl.Pairwise Apart ∧ ∀ w ∈ ws, ∀ x ∈ tl, Apart w x := by
  have := ((insertWindows_perm ws tl).pairwise_iff fun {_ _} h => apart_symm h).1 (timelineOk_apart h)
  exact List.pairwise_append.1 this

/-- Fewer windows, in order, are a timeline in order. -/
theorem timelineOk_sublist {tl tl' : List Window} (h : TimelineOk tl) (hs : tl'.Sublist tl) : TimelineOk tl' :=
  ⟨fun w hw => h.proper w (hs.subset hw), h.ordered.sublist hs, hs.length_le.trans h.size⟩

theorem timelineOk_filter {tl : List Window} (h : TimelineOk tl) (c : Window → Bool) : TimelineOk (tl.filter c) :=
  timelineOk_sublist h List.filter_sublist

/-- Fewer windows entering fewer windows in order are still in order. -/
theorem timelineOk_insert_sublist {ws ws' tl tl' : List Window} (h : TimelineOk (insertWindows ws tl)) (ht : TimelineOk tl)
    (hw : ws'.Sublist ws) (hs : tl'.Sublist tl) : TimelineOk (insertWindows ws' tl') := by
  obtain ⟨a, -, c⟩ := apart_of_insert h
  refine timelineOk_insert (timelineOk_sublist ht hs) (fun w m => h.proper w (mem_insertWindows.2 (.inl (hw.subset m)))) (a.sublist hw)
    (fun w m x k => c w (hw.subset m) x (hs.subset k)) ?_
  have := h.size
  rw [(insertWindows_perm ws tl).length_eq, List.length_append] at this
  have := hw.length_le
  have := hs.length_le
  omega

/-! ### A placed leg fits its view -/

/-- Where no jump is found, no occurrence listed overlaps a window of the view (R66, R67). -/
theorem jumpFrom_none {view : List Window} {period w s : Nat} {js : List Nat} (h : jumpFrom view period w s js = none) :
    ∀ j ∈ js, ∀ x ∈ view, s + j * period + w ≤ x.start ∨ x.stop ≤ s + j * period := by
  induction js with
  | nil => intro j hj; cases hj
  | cons k ks ih =>
    simp only [jumpFrom] at h
    split at h
    · cases h
    · next hn =>
      intro j hj x hx
      rcases List.mem_cons.1 hj with rfl | hj
      · have := List.find?_eq_none.1 hn x hx
        simp only [overlaps, Bool.and_eq_true, decide_eq_true_eq, not_and, not_lt] at this
        by_cases c : s + j * period < x.stop
        · exact .inl (this c)
        · exact .inr (not_lt.1 c)
      · exact ih h j hj x hx

/-- A jump raises the candidate (R67). -/
theorem jumpFrom_raises {view : List Window} {period w s s' : Nat} {js : List Nat}
    (h : jumpFrom view period w s js = some s') : s < s' := by
  induction js with
  | nil => cases h
  | cons k ks ih =>
    simp only [jumpFrom] at h
    split at h
    · next x hx =>
      have hx := List.find?_some hx
      simp only [overlaps, Bool.and_eq_true, decide_eq_true_eq] at hx
      cases h
      omega
    · exact ih h

/-- A start that first fit answers lies from its candidate to the latest end and overlaps nothing of the view (R66, R67). -/
theorem firstFit_spec {view : List Window} {period r w d fuel c s : Nat} (h : firstFit view period r w d fuel c = some s) :
    c ≤ s ∧ s + w ≤ d ∧ ∀ j < r, ∀ x ∈ view, s + j * period + w ≤ x.start ∨ x.stop ≤ s + j * period := by
  induction fuel generalizing c with
  | zero => cases h
  | succ fuel ih =>
    simp only [firstFit] at h
    split at h
    · cases h
    · next hd =>
      split at h
      · next s' hj =>
        obtain ⟨a, b⟩ := ih h
        refine ⟨le_trans ?_ a, b⟩
        exact (jumpFrom_raises hj).le
      · next hj =>
        cases h
        exact ⟨le_refl _, not_lt.1 hd, fun j hj' => jumpFrom_none hj j (List.mem_range.2 hj')⟩

/-- The occurrences of one window, within their periods, are apart. -/
theorem occurrences_apart (n : StreamNo) (kind : WindowKind) {s w period r : Nat} (h : s + w ≤ period) :
    ((List.range r).map fun j => (⟨s + j * period, s + j * period + w, n, j, kind⟩ : Window)).Pairwise Apart := by
  rw [List.pairwise_map]
  refine List.pairwise_lt_range.imp fun {a b} hab => .inl ?_
  have : (a + 1) * period ≤ b * period := Nat.mul_le_mul_right _ hab
  simp only [Nat.add_mul, Nat.one_mul] at this
  simp only
  omega

/-- The windows of a placed leg enter the view it was searched in, in order (R61, R66, R69, R70, R72). -/
theorem legSearch_fits {i : LegInputs} {view : List Window} {p : Placement} (n : StreamNo)
    (h : legSearch i view = .placed p) (hv : TimelineOk view) (hw : 0 < legLength i) :
    TimelineOk (insertWindows (windowsOf n i.repeats (legPeriod i) p) view) := by
  have latest : legLatest i ≤ legPeriod i := (min_le_right _ _).trans (Nat.sub_le _ _)
  have placed : ∃ s, firstFit view (legPeriod i) i.repeats (legLength i) (legLatest i) (legLatest i + 1) (legEarliest i) = some s ∧
      if i.twinned then view.length + 2 * i.repeats ≤ 256 ∧ ∃ s2, firstFit view (legPeriod i) i.repeats (legLength i)
          (legLatest i) (legLatest i + 1) (s + legLength i + i.tau) = some s2 ∧ p = ⟨s, some s2, legLength i⟩
      else view.length + i.repeats ≤ 256 ∧ p = ⟨s, none, legLength i⟩ := by
    cases ht : i.twinned <;> simp only [legSearch, ht, if_true, Bool.false_eq_true, if_false] at h ⊢ <;>
      split at h <;> try cases h
    all_goals
      rename_i hc
      simp only [Config.timelineSize, not_lt] at hc
      split at h <;> try cases h
      split at h <;> try cases h
      split at h <;> try cases h
    · rename_i s hs
      exact ⟨s, hs, hc, rfl⟩
    · rename_i s hs
      split at h <;> try cases h
      rename_i s2 hs2
      exact ⟨s, hs, hc, s2, hs2, rfl⟩
  obtain ⟨s, hs, placed⟩ := placed
  obtain ⟨-, sd, sj⟩ := firstFit_spec hs
  split at placed
  · obtain ⟨hc, s2, hs2, rfl⟩ := placed
    obtain ⟨s1, s2d, s2j⟩ := firstFit_spec hs2
    refine timelineOk_insert hv ?_ ?_ ?_ ?_
    · simp only [windowsOf, List.mem_append, List.mem_map]
      rintro w (⟨j, -, rfl⟩ | ⟨j, -, rfl⟩) <;> simp only <;> omega
    · refine List.pairwise_append.2 ⟨occurrences_apart n _ (sd.trans latest), occurrences_apart n _ (s2d.trans latest), ?_⟩
      simp only [List.mem_map, List.mem_range]
      rintro _ ⟨j, -, rfl⟩ _ ⟨k, -, rfl⟩
      have e2 := s2d.trans latest
      rcases Nat.lt_or_ge k j with hjk | hjk
      · right
        have : (k + 1) * legPeriod i ≤ j * legPeriod i := Nat.mul_le_mul_right _ hjk
        simp only [Nat.add_mul, Nat.one_mul] at this
        simp only
        omega
      · left
        have : j * legPeriod i ≤ k * legPeriod i := Nat.mul_le_mul_right _ hjk
        simp only
        omega
    · simp only [windowsOf, List.mem_append, List.mem_map, List.mem_range]
      rintro w (⟨j, hj, rfl⟩ | ⟨j, hj, rfl⟩) x hx
      · exact sj j hj x hx
      · exact s2j j hj x hx
    · simp only [windowsOf, List.length_append, List.length_map, List.length_range]
      omega
  · obtain ⟨hc, rfl⟩ := placed
    refine timelineOk_insert hv ?_ ?_ ?_ ?_
    · simp only [windowsOf, List.append_nil, List.mem_map]
      rintro w ⟨j, -, rfl⟩
      simp only
      omega
    · simp only [windowsOf, List.append_nil]
      exact occurrences_apart n _ (sd.trans latest)
    · simp only [windowsOf, List.append_nil, List.mem_map, List.mem_range]
      rintro w ⟨j, hj, rfl⟩ x hx
      exact sj j hj x hx
    · simp only [windowsOf, List.append_nil, List.length_map, List.length_range]
      omega

/-- W is positive for a stream that takes at least one frame in a window (R62). -/
theorem legLength_pos {d : Desc} (h : 1 ≤ d.k) (planM : Nat) (speeds : Table Speed 8) (e : Port) (u : PortUnit) :
    0 < legLength (legInputs d planM speeds e u) := by
  have hf : 0 < (speeds[e]).factor := by cases speeds[e] <;> decide
  exact Nat.add_pos_left (Nat.mul_pos (Nat.mul_pos h (Nat.succ_pos (d.lmax + 19))) hf) _

end Sys2Proof.Laws
end

