-- ==== Sys2Proof/WellFormed.lean ====
section
/-! DEFINITION. Which commands can come at all. Port, probe and stream numbers are bounded by their types; a frame
that ends has at least the byte whose arrival began it (R31). -/

namespace Sys2Proof

/-- A frame has at least one byte: it began when the first byte of its destination address arrived (R31). -/
def RxFrame.wf (f : RxFrame) : Bool := !f.bytes.isEmpty

/-- The command can come from outside or from a block of the part. -/
def Instr.wf : Instr → Bool
  | .frameEnd _ f => f.wf
  | _ => true

end Sys2Proof
end

