-- ==== Sys2Proof/Tests/Slice0.lean ====
section
/-! SUPPORT. Tests: ill-formed commands that WellFormed refuses; the manual's worked examples, one step each; and for every
statement with hypotheses a witness, a concrete state and operands that meet them, clause by clause at a boundary value. -/

namespace Sys2Proof.Tests

-- One test after another: each test that waits for the kernel would hold a thread of its own.
set_option Elab.async false

open Sys2Proof Sys2Proof.Machine Sys2Proof.Safety

/-! ### Small states -/

/-- The machine after reset. -/
abbrev R : State := State.reset

/-- A request with tag 7. -/
abbrev ask (kind : Byte) (payload : List Byte) : Request := ⟨kind, 7, payload⟩

/-- A state with that request alone in the inbound queue. -/
abbrev asking (kind : Byte) (payload : List Byte) (s : State) : State :=
  { s with mgmt := { s.mgmt with inbound := [ask kind payload] } }

/-- The state after a command. -/
def after (c : Instr) (s : State) : State :=
  match exec c s with
  | .next t => t
  | _ => s

/-- The codes that the replies in the outbound queue begin with. -/
def codes (s : State) : List Code :=
  s.mgmt.outbound.filterMap fun r =>
    match r.body with
    | .reply _ _ x => some x.code
    | .notice .. => none

/-- The last reply in the outbound queue. -/
def lastReply (s : State) : Option Reply :=
  s.mgmt.outbound.getLast?.bind fun r =>
    match r.body with
    | .reply _ _ x => some x
    | .notice .. => none

/-- A phase of the current cycle. -/
def atPhase (k : Nat) (s : State) : State :=
  { s with timer := { s.timer with grain := s.timer.start + BitVec.ofNat 32 k } }

/-- A port's link is UP. -/
def upAt (p : Port) (v : Speed) (s : State) : State := s.modPort p fun u => { u with link := .up v }

/-- Stream 21 of section 4.8. -/
def desc21 : Desc :=
  { key := ⟨6, 0x020000000104, some 20⟩, egressSet := 4, repeats := 2, rho := 4000, bound := 20000, lmax := 128, k := 2
    handling := .sequenced, twin := .off, missLimit := 1 }

/-- A leg on egress 2, placed as in section 4.8. -/
def leg21 (x : LegState) : Leg := ⟨2, some x, some ⟨7300, none, 312⟩, none, [], [], 0, false⟩

/-- Stream 21, ACTIVE. -/
def stream21 (x : LegState) : Stream := ⟨.active, desc21, 0, some 501, false, [leg21 x]⟩

/-- The windows of stream 21 on egress 2. -/
def windows21 : List Window := [⟨7300, 7612, 21, 0, .primary⟩, ⟨69800, 70112, 21, 1, .primary⟩]

/-- Stream 21 ACTIVE with its windows in both timelines of egress 2, which is UP at its planned speed. -/
def cell (x : LegState) : State :=
  ((upAt 2 .s1000 R).setStream 21 (some (stream21 x))).modEgress 2 (fun y => { y with timeline := windows21 })
    |>.modEngine fun g => { g with timelines := Table.upd g.timelines 2 fun _ => windows21, pool := 4 }

/-- Every notice source with this arbitration number. -/
def routed (k : Nat) (s : State) : State := s.modMgmt fun m => { m with sources := m.sources.map fun x => { x with number := k } }

/-- A stored motion frame of stream 21, received at grain 0. -/
def frame21 (id : FrameId) : FrameRecord :=
  ⟨id, .motion, 1, 1, 128, 6, 0, 0, some 21, none, false, List.replicate 128 0⟩

/-- Frame 0 of stream 21 stored and waiting in its slot. -/
def waiting21 (x : LegState) : State :=
  ((cell x).modLeg 21 2 fun l => { l with slot := [0] }).modBuffer fun b =>
    { b with frames := [frame21 0], motionFree := 511, motionLow := 511, nextId := 1 }

/-- A port that receives a frame whose first byte came at grain 0. -/
def receiving (p : Port) (s : State) : State := s.modPort p fun u => { u with receiving := some 0 }

/-- Port 1 UP, receiving. -/
def rx1 (s : State) : State := receiving 1 (upAt 1 .s1000 s)

/-- The first window of stream 21 open, with this sent count. -/
def opened (w : Window) (sent : Nat) (copies : List FrameId) (s : State) : State :=
  s.modEgress 2 fun y => { y with openWindow := some ⟨w, false, false, sent, copies⟩, nextWindow := 1 }

/-- A twin window of stream 21, its leg keeping frame 0 and its stream's twin ARMED, the port in this noise state. -/
def twinAt (x : NoiseState) (s : State) : State :=
  ((s.modStream 21 fun t => { t with desc := { t.desc with twin := .armed } }).modLeg 21 2 fun l =>
      { l with slot := [], retained := [0] }).modNoise 2 (fun m => { m with state := x })
    |>.modEgress 2 fun y => { y with timeline := [⟨8124, 8436, 21, 0, .twin⟩] }

/-- Frame 0 on the wire of egress 2 since grain 0. -/
def sending (k : WireKind) (s : State) : State := s.modEgress 2 fun y => { y with wire := some ⟨0, 0, k⟩ }

/-- A best-effort frame of 64 bytes and class 3, received at grain 0. -/
def frameBE : FrameRecord := ⟨0, .bestEffort, 1, 1, 64, 1, 0, 0, none, some 3, false, List.replicate 64 0⟩

/-- That frame in class queue 3 of egress 2. -/
def waitingBE (s : State) : State :=
  { s with buffer := { s.buffer with
      frames := [frameBE], beFree := 1535, beLow := 1535, nextId := 1 } }
    |>.modEgress 2 fun y => { y with queues := Table.upd y.queues 3 fun _ => [0], beCount := 1 }

/-- A wire that sends something. -/
def busy (e : Port) (s : State) : State := s.modEgress e fun y => { y with wire := some ⟨0, 0, .bestEffort⟩ }

/-- An egress with this best-effort cell count. -/
def counting (e : Port) (k : Nat) (s : State) : State := s.modEgress e fun y => { y with beCount := k }

/-- The other seven ports UP and sending. -/
def flooding : State := [0, 2, 3, 4, 5, 6, 7].foldl (fun s p => busy p (upAt p .s1000 s)) (rx1 R)

/-- A frame of the key of stream 21, with this many bytes after its tag. -/
def streamFrame (k : Nat) : RxFrame :=
  ⟨[2, 0, 0, 0, 1, 4] ++ [2, 0, 0, 0, 0, 1] ++ [0x81, 0, 0, 20] ++ List.replicate k 0, false, true⟩

/-- Port 6 UP, receiving a frame. -/
def rx6 (s : State) : State := receiving 6 (upAt 6 .s1000 s)

/-- Stream 21 in another state. -/
def staged (x : Stage) (s : State) : State := s.modStream 21 fun y => { y with stage := x }

/-- The window at the head of the timeline of egress 2. -/
def head2 (s : State) : Option Window := (s.egress[(2 : Port)].timeline.drop s.egress[(2 : Port)].nextWindow).head?

/-- The flood with port 0 DOWN and the limit of port 2 reached. -/
def partly : State := (counting 2 384 flooding).modPort 0 fun u => { u with link := .down }

/-! ### Well-formed commands -/

theorem test_wf_refuses_an_empty_frame : (Instr.frameEnd 0 ⟨[], false, true⟩).wf = false := by decide

theorem test_wf_takes_a_frame_of_one_byte : (Instr.frameEnd 0 ⟨[0], false, true⟩).wf = true := by decide

theorem test_no_word_spells_a_command : decodeTableWord 8 0 = none := rfl

/-! ### The management link (chapter 11) -/

/-- R173's own example. -/
theorem test_crc_of_the_digits :
    crc16 [0x31, 0x32, 0x33, 0x34, 0x35, 0x36, 0x37, 0x38, 0x39] = 0x29B1#16 := by decide +kernel

/-- An IDENTIFY record that the host shifts in joins the inbound queue. Its
CRC is taken over kind and tag (R173). -/
theorem test_transfer_end_queues_a_request :
    (after (.transferEnd ([4, 1, 7] ++ beBytes 2 (crc16 [1, 7]).toNat)) (after .transferStart R)).mgmt.inbound =
      [⟨1, 7, []⟩] := by decide +kernel

/-- A record cut short is counted in LINK_SHORT (R173). -/
theorem test_transfer_end_counts_a_short_record :
    (after (.transferEnd [4, 1, 7]) (after .transferStart R)).mgmt.short = 1 := by decide +kernel

/-- IDENTIFY gives part code 0x0816 and revision 2 (the opening file). -/
theorem test_identify : lastReply (after .identify (asking 0x01 [] R)) = some (.identity 0x0816 2 .openStart false) := by
  decide +kernel

/-- An unknown kind is replied BAD_KIND with the kind (R175). -/
theorem test_bad_kind : lastReply (after .badKind (asking 0x21 [] R)) = some (.badKind 0x21) := by decide +kernel

theorem test_wrong_length : lastReply (after .lock (asking 0x10 [0] R)) = some (.badLength 0) := by decide +kernel

/-- RESTART is refused LOCKED under the production lock (R180). -/
theorem test_restart_locked :
    codes (after .restart (asking 0x02 [] (R.modEngine fun g => { g with locked := true }))) = [.locked] := by
  decide +kernel

/-- Section 11.7: with 11 notices in the queue, LINK_STATE enters and FIRST_FAULT waits. -/
def slowHost : State :=
  { R with mgmt := { R.mgmt with
      outbound := List.replicate 11 ⟨0, .notice 0 ⟨1, 0, .syncState .locked .acquiring 0⟩⟩
      sources := Table.upd (Table.upd R.mgmt.sources 4 fun _ =>
        ⟨4, [⟨1, 0, .linkState 3 .down .s1000⟩]⟩) 10 fun _ =>
        ⟨9, [⟨1, 0, .firstFault ⟨.late, .egress, some 4, some 3, 0, 0, 0⟩⟩]⟩ } }

theorem test_notice_pick_takes_the_link_state :
    (after .noticePick slowHost).mgmt.outbound.getLast?.map (·.body) =
      some (.notice 4 ⟨1, 0, .linkState 3 .down .s1000⟩) := by decide +kernel

theorem test_notice_pick_keeps_to_twelve_notices :
    (after .noticePick (after .noticePick slowHost)).mgmt.outbound.length = 12 := by decide +kernel

/-! ### Cell time (chapter 1) -/

/-- The correction sequence of section 1.10: cycle 1000 starts at 10,000,000; a strobe stamped 40 grains later gives +16. -/
def locked1000 : State :=
  { R with timer := { R.timer with
      grain := 10000064, start := 10000000, cycle := 1000, sync := .locked
      cyc := ⟨false, 16, 2, 10000040, true, false⟩ } }

theorem test_strobe_lengthens_the_cycle : (after .strobe locked1000).timer.endE = 125016 := by decide +kernel

/-- Section 1.10: ten grains before the start of cycle 1004, case B, the adjustment becomes −10. -/
theorem test_strobe_ahead_of_the_next_start :
    (after .strobe { locked1000 with timer := { locked1000.timer with
      grain := 10500032, start := 10375040, cyc := ⟨false, 16, 2, 10500030, true, false⟩ } }).timer.adjust = -10 := by
  decide +kernel

/-- Section 1.10: a strobe qualified across a cycle start is case A, and E becomes 124,984. -/
theorem test_strobe_across_a_cycle_start :
    (after .strobe { locked1000 with timer := { locked1000.timer with
      grain := 20000128, start := 20000064, cyc := ⟨false, 64, 2, 20000000, true, false⟩ } }).timer.endE = 124984 := by
  decide +kernel

/-- Section 1.10: the strobe in HOLDOVER at t = 41,250 realigns cycle 203 to 166,250 grains. -/
theorem test_realign_in_holdover :
    (after .strobe { locked1000 with timer := { locked1000.timer with
      sync := .holdover, missRun := 2, grain := 50416288, start := 50375000
      cyc := ⟨false, 16, 2, 50416250, true, false⟩ } }).timer.endE = 166250 := by decide +kernel

/-- Section 1.10: cycle 201 ends unmatched, and the state becomes HOLDOVER with a miss run of 1. -/
theorem test_unmatched_cycle_enters_holdover :
    (let t := (after .cycleStart (atPhase 125000 locked1000)).timer
     (t.sync, t.missRun, t.cycle)) = (.holdover, 1, 1001) := by decide +kernel

/-- SET_SYNC: an interval of 12 lies between 8 and 16 and takes the larger; enable 1 gives ACQUIRING (R14). -/
theorem test_set_sync :
    (let t := (after .setSync (asking 0x04 [1, 0, 250, 16, 0, 12] R)).timer
     (t.cyc.interval, t.holdLimit, t.sync)) = (16, 1, .acquiring) := by decide +kernel

/-! ### Reservation arithmetic and the engine (chapters 4 and 5) -/

/-- The inputs of section 4.8. -/
def inputs21 : LegInputs :=
  { rho := 4000, repeats := 2, bound := 20000, lmax := 128, k := 2, twinned := false, m := 125000, gi := 10, ge := 1
    mu := 16, tau := 512, kappa := 75 }

/-- The timeline of section 4.8. -/
def view21 : List Window := [⟨6700, 7000, 7, 0, .primary⟩, ⟨69400, 69800, 7, 1, .primary⟩]

/-- Section 4.8: s = 7,300 and W = 312. -/
theorem test_section_4_8 : legSearch inputs21 view21 = .placed ⟨7300, none, 312⟩ := by decide +kernel

/-- Section 4.9: the twin start is 8,124. -/
theorem test_section_4_9 : legSearch { inputs21 with twinned := true } view21 = .placed ⟨7300, some 8124, 312⟩ := by
  decide +kernel

/-- Section 4.9: a window [8,300, 8,500) moves the twin start to 8,500. -/
theorem test_section_4_9_jump :
    legSearch { inputs21 with twinned := true } (insertWindow ⟨8300, 8500, 9, 0, .primary⟩ view21) =
      .placed ⟨7300, some 8500, 312⟩ := by decide +kernel

/-- Section 5.11: at 100 Mbit/s W = 2,976 and, on the empty view, s = 5,480. -/
theorem test_section_5_11 : legSearch { inputs21 with ge := 10 } [] = .placed ⟨5480, none, 2976⟩ := by decide +kernel

/-- PLACE of stream 21 on an idle engine: the engine takes the op at once (R82, R85). -/
def place21 : List Byte :=
  [21, 6, 2, 0, 0, 0, 1, 4, 0, 20, 4, 2, 0, 0, 15, 160, 0, 0, 78, 32, 0, 128, 2, 1, 0, 1]

theorem test_place_is_taken :
    ((after .place (asking 0x0D place21 R)).streams[(21 : StreamNo)].map fun t => (t.stage, t.desc)) =
      some (.searching, desc21) := by decide +kernel

/-- Place, leg step, end and commit: the stream is ACTIVE in cycle 1, its leg DORMANT behind a DOWN link (R45). -/
theorem test_place_reaches_the_commit :
    ((after .cycleStart (atPhase 125000 (after .placeOpEnd (after .legStep
      (after .place (asking 0x0D place21 R)))))).streams[(21 : StreamNo)].map fun t =>
        (t.stage, t.firstActive, t.legs.map fun l => l.state)) = some (.active, some 1, [some .dormant]) := by
  decide +kernel

/-- RELEASE of an ACTIVE stream on an idle engine: RELEASING, its windows out of the pending timeline only (R88). -/
theorem test_release_of_an_active_stream :
    (let t := after .release (asking 0x0E [21] (cell .live))
     (t.streams[(21 : StreamNo)].map (·.stage), t.engine.timelines[(2 : Port)].length, t.egress[(2 : Port)].timeline.length)) =
      (some .releasing, 0, 2) := by decide +kernel

/-! ### Ports, frames and windows (chapters 2, 6 and 7) -/

/-- A LINK_DOWN makes the LIVE leg DORMANT and drops its waiting frame with cause LINK_DOWN (R20, R21). -/
theorem test_link_down_drops_the_slot :
    (let t := after (.linkDown 2) (waiting21 .live)
     ((t.leg 21 2).map fun l => (l.state, l.slot), t.legCounters[legIndex 21 2][9], t.buffer.motionFree)) =
      (some (some .dormant, []), 1, 512) := by decide +kernel

/-- A waiting frame starts as its window opens (R104, R105). -/
theorem test_window_opens_and_the_frame_starts :
    (let t := after (.windowOpen 2) (atPhase 7300 (waiting21 .live))
     (t.egress[(2 : Port)].wire, t.egress[(2 : Port)].openWindow.map (·.sent))) =
      (some ⟨0, 7300, .motion 21 false⟩, some 1) := by decide +kernel

/-- Late by one grain: 148 grains of wire time do not fit into 147 (R104). -/
theorem test_late_by_one_grain :
    (after (.windowOpen 2) (atPhase 7465 (waiting21 .live))).legCounters[legIndex 21 2][2] = 1 := by decide +kernel

/-- An untagged best-effort frame of 64 bytes with source 02-00-00-00-00-01. -/
def frame64 (dest : List Byte) : RxFrame := ⟨dest ++ [2, 0, 0, 0, 0, 1] ++ List.replicate 52 0, false, true⟩

/-- It is learned at position 0 with age 0 (R127). -/
theorem test_frame_is_learned :
    (after (.frameEnd 1 (frame64 [2, 0, 0, 0, 0, 9])) (after (.receptionStart 1) (upAt 1 .s1000 R))).addr.entries =
      [⟨0, 0x020000000001, none, 1, .learned, 0⟩] := by decide +kernel

/-- A frame of 63 bytes is a RUNT: counted, and a receive fault of the port (R32, R140). -/
theorem test_runt :
    (let t := after (.frameEnd 1 ⟨List.replicate 63 0, false, true⟩) (after (.receptionStart 1) (upAt 1 .s1000 R))
     (t.ports[(1 : Port)].counters[3], t.noise[(1 : Port)].count, t.deviceCounters[2])) = (1, 1, 1) := by decide +kernel

/-- A flood to one DOWN and six UP targets: stored once for the six that take it (section 7.6). -/
theorem test_flood :
    (let s := [0, 1, 2, 3, 4, 6, 7].foldl (fun s p => upAt p .s1000 s) R
     let t := after (.frameEnd 2 (frame64 [255, 255, 255, 255, 255, 255])) (after (.receptionStart 2) s)
     (t.buffer.frames.map (·.refs), t.ports[(5 : Port)].counters[16], t.egress[(0 : Port)].beCount)) = ([6], 1, 1) := by
  decide +kernel

/-- SET_FILTER rounds a base down and a size up to multiples of 16 (R35). -/
theorem test_set_filter :
    ((after .setFilter (asking 0x09 ([0, 1] ++ [0, 31, 0, 17, 1] ++ List.replicate 35 0) R)).ports[(0 : Port)].windows[0]) =
      ⟨16, 32, true⟩ := by decide +kernel

/-! ### Noise, faults, counters and probes (chapters 8 to 10) -/

/-- Section 8.7: the 16th fault of a cycle takes port 6 from WATCH to DISTURBED. -/
theorem test_sixteenth_fault :
    (receiveFault 6 (R.modNoise 6 fun _ => ⟨.watch, 15, 0, 0, false⟩)).noise[(6 : Port)].state = .disturbed := by
  decide +kernel

/-- Section 9.5: a LATE on egress 4 locks the record; the next report is counted only. -/
theorem test_first_fault_locks :
    (let late : Report := ⟨⟨.late, .egress, some 4, some 3, 1200, 10020, 0⟩, none, none, false⟩
     let later : Report := ⟨⟨.overrun, .egress, some 4, some 8, 1200, 19920, 0⟩, none, none, false⟩
     let t := takeReport (takeReport R late) later
     (t.fault.record.map (·.cause), t.deviceCounters[8], t.deviceCounters[10])) = (some .late, 1, 1) := by decide +kernel

/-- FILTERED is not captured under the reset mask (section 9.5). -/
theorem test_filtered_is_not_captured :
    (takeReport R ⟨⟨.filtered, .ingress, some 2, none, 1200, 2100, 0⟩, none, none, false⟩).fault.record = none := by decide +kernel

/-- Section 10.8: a probe armed on stream 21 and egress 2 captures the frame with slack 7,612 − (7,300 + 148) = 164. -/
theorem test_probe_captures_the_slack :
    ((after (.windowOpen 2) (atPhase 7300 ((waiting21 .live).setProbe 0 (.armed ⟨21, 2, 0, 2⟩)))).probes[(0 : Fin 4)].capture.map
      (·.slack)) = some 164 := by decide +kernel

/-- COUNTERS_READ of an index beyond the stream group is refused at offset 3 (R157). -/
theorem test_counters_read_index : lastReply (after .countersRead (asking 0x18 [1, 0, 0, 3, 0] R)) = some (.badField 3) := by
  decide +kernel

/-! ### Witnesses: the terms they are written in -/

/-- The request is offered a place in that state, and a condition on it holds. -/
structure Met (s : State) (kind : Byte) (payload : List Byte) (cond : Request → Bool) : Prop where
  offers : Offers (asking kind payload s) (ask kind payload) []
  holds : cond (ask kind payload) = true

/-- Nothing holds the part back, as a test. -/
def ready (s : State) : Bool :=
  !s.resetLow && s.fault.inbox.isEmpty && s.engine.finished.isEmpty && decide (s.mgmt.outbound.length < 16)

theorem met {s : State} {kind : Byte} {payload : List Byte} {cond : Request → Bool}
    (h : (ready s && cond (ask kind payload)) = true) : Met s kind payload cond := by
  simp only [ready, Bool.and_eq_true, Bool.not_eq_true', List.isEmpty_iff, decide_eq_true_eq] at h
  exact ⟨⟨⟨h.1.1.1.1, h.1.1.1.2⟩, rfl, h.1.1.2, h.1.2⟩, h.2⟩

/-- The state is awake, and a condition on it holds. -/
structure Meets (s : State) (cond : State → Bool) : Prop where
  awake : Awake s
  holds : cond s = true

theorem meets {s : State} {cond : State → Bool} (h : (!s.resetLow && s.fault.inbox.isEmpty && cond s) = true) :
    Meets s cond := by
  simp only [Bool.and_eq_true, Bool.not_eq_true', List.isEmpty_iff] at h
  exact ⟨⟨h.1.1, h.1.2⟩, h.2⟩

/-- A condition on every stream that is not FREE, as a test. -/
def every (s : State) (P : StreamNo → Stream → Bool) : Bool := decide (∀ i : StreamNo, (s.streams[i].all (P i)) = true)

theorem of_every {s : State} {P : StreamNo → Stream → Bool} (h : every s P = true) (i : StreamNo) (x : Stream)
    (e : s.streams[i] = some x) : P i x = true := by
  have h' := of_decide_eq_true h i
  rw [e] at h'
  exact h'

/-- The engine has nothing waiting, as a test. -/
def nothingWaits (s : State) : Bool :=
  decide (s.engine.waiting = [] ∧ ∀ e : Port, s.engine.egressRepairs[e] = false ∧ s.engine.ingressRepairs[e] = false)

theorem of_nothingWaits {s : State} (h : nothingWaits s = true) : NothingWaits s := by
  simp only [nothingWaits, decide_eq_true_eq] at h
  exact h

/-! ### Witnesses: the queue of commands and the management link -/

theorem witness_StepRunsTheFrontCommand : ∃ rest, { R with pending := [.lock, .identify] }.pending = Instr.lock :: rest :=
  ⟨[.identify], rfl⟩

/-- An event is due (the sample at grain 0); none is due (at grain 1, the part awake); the part is held. -/
theorem witness_IdleAndHeldSteps :
    (R.pending = [] ∧ R.due = some (.filterSample .cyc false)) ∧
    ((atPhase 1 R).pending = [] ∧ (atPhase 1 R).due = none ∧ (atPhase 1 R).resetLow = false) ∧
    ({ R with resetLow := true }.resetLow = true ∧ ∀ high, Instr.lock ≠ .resetN high) := by
  refine ⟨⟨rfl, ?_⟩, ⟨rfl, ?_, rfl⟩, rfl, ?_⟩
  · decide +kernel
  · decide +kernel
  · intro _ h; cases h

/-- A record of the outbound queue: the reply to a LOCK. -/
def okRecord : OutRecord := ⟨0, .reply 0x90 7 (.plain .ok)⟩

/-- A state with `k` records in its outbound queue. -/
def holding (k : Nat) (s : State) : State := { s with mgmt := { s.mgmt with outbound := List.replicate k okRecord } }

/-- A transfer of that record in progress. -/
def shifting (s : State) : State := { holding 1 s with mgmt := { (holding 1 s).mgmt with transfer := some ⟨some okRecord, false⟩ } }

/-- No transfer; one that has latched a record, and one with a null record; RESET_N low. -/
theorem witness_TransfersLatchAndRemoveTheHead :
    Meets (holding 1 R) (fun s => s.mgmt.transfer == none) ∧
    Meets (shifting R) (fun s => s.mgmt.transfer == some ⟨some okRecord, false⟩) ∧
    Meets (after .transferStart R) (fun s => s.mgmt.transfer == some ⟨none, false⟩) ∧
    (after .resetNLow R).resetLow = true := by
  refine ⟨meets ?_, meets ?_, meets ?_, ?_⟩ <;> decide +kernel

/-- One length byte for each line of R173's table, at the ends of its range. -/
theorem witness_TransferEndJudgesTheHostRecord :
    Meets (shifting R) (fun s => s.mgmt.transfer == some ⟨some okRecord, false⟩) ∧
    ((0 : Byte) = 0) ∧ ((3 : Byte).toNat < 4 ∧ 63 < (64 : Byte).toNat) ∧ ([1, 7, 0] : List Byte).length < (4 : Byte).toNat ∧
    ((4 : Byte).toNat ≤ [1, 7, 0, 0].length) ∧ 4 ≤ (List.replicate 4 (ask 1 [])).length := by
  refine ⟨meets ?_, rfl, ?_, ?_, ?_, ?_⟩ <;> decide +kernel

/-- Kinds 0x00 and 0x21; a length that is wrong by one; a full queue, a finished reply ahead, another request's turn. -/
theorem witness_RequestsAreTakenByKindAndLength :
    Met R 0x00 [] (fun q => decide (q.kind.toNat = 0)) ∧ Met R 0x21 [] (fun q => decide (0x20 < q.kind.toNat)) ∧
    (Met R 0x10 [0] (fun q => decide (q.kind = 0x10 ∧ q.payload.length ≠ 0)) ∧ (Instr.lock, 0x10, 0) ∈ requestTable) ∧
    Meets (holding 16 R) (fun s => decide (16 ≤ s.mgmt.outbound.length)) ∧
    Meets (R.modEngine fun g => { g with finished := [⟨0x8D, 7, .plain .cancelled⟩] }) (fun s => s.engine.finished != []) ∧
    Meets (asking 0x01 [] R) (fun s => s.mgmt.inbound.all fun q => q.kind != 0x10) := by
  refine ⟨met ?_, met ?_, ⟨met ?_, by simp [requestTable]⟩, meets ?_, meets ?_, meets ?_⟩ <;> decide +kernel

theorem witness_IdentifyAndLinkStatus :
    Met R 0x01 [] (fun q => decide (q.payload = [])) ∧ Met R 0x03 [0] (fun q => decide (q.payload = [0])) ∧
    Met R 0x03 [1] (fun q => decide (q.payload = [1])) ∧ Met R 0x03 [2] (fun q => decide (q.payload = [2])) ∧
    (Awake R ∧ exec .countersRead R = .next R) := by
  refine ⟨met ?_, met ?_, met ?_, met ?_, ⟨rfl, rfl⟩, rfl⟩ <;> decide +kernel

/-- The production lock set and clear. -/
def lockSet (s : State) : State := s.modEngine fun g => { g with locked := true }

theorem witness_RestartReturnsToReset :
    Met (lockSet R) 0x02 [] (fun q => decide (q.payload = []) && (lockSet R).engine.locked) ∧
    Met R 0x02 [] (fun q => decide (q.payload = []) && !R.engine.locked) := by
  and_intros <;> (apply met; decide +kernel)

/-- Index 12, number 16, and the accepted ends of both ranges. -/
theorem witness_SetNoticeRoutesASource :
    Met R 0x1D [12, 0] (fun q => decide (11 < q.b 0)) ∧ Met R 0x1D [11, 16] (fun q => decide (q.b 0 ≤ 11 ∧ 15 < q.b 1)) ∧
    Met R 0x1D [0, 0] (fun q => decide (q.b 0 = 0 ∧ q.b 1 = 0)) ∧
    Met R 0x1D [11, 15] (fun q => decide (q.b 0 = 11 ∧ q.b 1 = 15)) := by
  and_intros <;> (apply met; decide +kernel)

theorem witness_NoticePickTakesTheHighestLevel :
    Meets slowHost (fun s => decide (s.engine.finished = [] ∧ s.mgmt.inbound = [] ∧ s.mgmt.outbound.length < 16 ∧
      s.mgmt.notices < 12 ∧ s.mgmt.sources[(4 : Fin 12)].pending ≠ [])) := meets (by decide +kernel)

/-- Number 0; a number, nothing of the kind pending; one pending behind a notice of another kind. -/
theorem witness_RaiseFollowsTheArbitrationNumber :
    R.mgmt.sources[(1 : Fin 12)].number = 0 ∧
    (R.mgmt.sources[(0 : Fin 12)].number ≠ 0 ∧ R.mgmt.sources[(0 : Fin 12)].pending = []) ∧
    (let n : Notice := ⟨255, 0, .noiseState 3 .watch .clean .faultCount 4 9⟩
     let m : Notice := ⟨1, 0, .linkState 3 .down .s1000⟩
     let s := R.modMgmt fun x => { x with sources := Table.upd x.sources 4 fun _ => ⟨1, [m, n]⟩ }
     s.mgmt.sources[(4 : Fin 12)].number ≠ 0 ∧ s.mgmt.sources[(4 : Fin 12)].pending = [m] ++ n :: [] ∧
       m.data.kind ≠ n.data.kind) := by decide +kernel

/-- A PLACED reply of five legs, and one of four, with the last places free and taken. -/
def placedWith (k : Nat) : PlacedReply :=
  ⟨21, 0, 1, 128, 20000, .sequenced, List.replicate k ⟨2, some .live, some ⟨7300, none, 312⟩⟩⟩

theorem witness_FinishedReplyMoveTakesItsPlaces :
    (let s (legs k : Nat) : State :=
      (holding k R).modEngine fun g => { g with finished := [⟨0x8D, 7, .placed (placedWith legs)⟩] }
     let at' (legs k : Nat) : Prop := Meets (s legs k) fun t =>
      t.engine.finished == [⟨0x8D, 7, .placed (placedWith legs)⟩] && t.mgmt.outbound.length == k &&
        (placedWith legs).legs.length == legs
     at' 5 14 ∧ at' 5 15 ∧ at' 4 15 ∧ at' 4 16) := by
  and_intros <;> (apply meets; decide +kernel)

/-! ### Witnesses: cell time -/

/-- Enable 2, and 1 and 0 in DISABLED and in LOCKED, at the ends of the parameters' ranges; the sync unit's notices routed and
not. -/
theorem witness_SetSyncAppliesTheParameters :
    Met R 0x04 [2, 0, 0, 0, 0, 0] (fun q => decide (1 < q.b 0)) ∧
    Met R 0x04 [1, 0, 0, 65, 0, 12] (fun q => decide (q.b 0 = 1 ∧ R.timer.sync = .disabled)) ∧
    Met R 0x04 [0, 16, 0, 64, 255, 48] (fun q => decide (q.b 0 = 0 ∧ R.timer.sync = .disabled)) ∧
    Met locked1000 0x04 [1, 15, 255, 0, 1, 16] (fun q => decide (q.b 0 = 1 ∧ locked1000.timer.sync = .locked)) ∧
    Met locked1000 0x04 [0, 0, 1, 0, 1, 255] (fun q => decide (q.b 0 = 0 ∧ locked1000.timer.sync = .locked ∧
      locked1000.mgmt.sources[(0 : Fin 12)].number ≠ 0)) ∧
    Met (routed 0 locked1000) 0x04 [0, 0, 1, 0, 1, 255] (fun q => decide (q.b 0 = 0 ∧
      (routed 0 locked1000).mgmt.sources[(0 : Fin 12)].number = 0)) := by
  and_intros <;> (apply met; decide +kernel)

/-- A state with a PLACE op current. -/
def searching : State := after .place (asking 0x0D place21 R)

theorem witness_SetCycleAndLock :
    Met (lockSet R) 0x0F [0, 31] (fun q => q.payload.length == 2 && (lockSet R).engine.locked) ∧
    Met (cell .live) 0x0F [3, 232] (fun q => q.payload.length == 2 && !(cell .live).engine.locked &&
      (cell .live).streams[(21 : StreamNo)].isSome) ∧
    Met R 0x0F [3, 233] (fun q => q.payload.length == 2 && decide ((∀ i : StreamNo, R.streams[i] = none) ∧
      R.engine.current = none ∧ R.engine.waiting = [] ∧
      ∀ p : Port, R.engine.egressRepairs[p] = false ∧ R.engine.ingressRepairs[p] = false)) ∧
    Met searching 0x10 [] (fun _ => searching.engine.current != none) ∧
    Met R 0x10 [] (fun _ => !R.engine.commitDue) := by
  and_intros <;> (apply met; decide +kernel)

/-- At grain 0 both lines are sampled; at grain 1 neither; each line half-qualified, on a rise and on a fall, at its third
sample. -/
theorem witness_FilterSampleAndCycFall :
    (let third (level : Bool) : State := (R.modTimer fun x => { x with grain := 32, cyc := ⟨!level, 16, 2, 0, level, false⟩ }).modArc
       fun a => { a with filter := ⟨!level, 16, 2, 0, level, false⟩ }
     Meets R (fun s => !s.timer.cyc.sampled && s.timer.grain.toNat % s.timer.cyc.interval == 0 && s.timer.cyc.count ≤ 1 &&
       !s.arc.filter.sampled && s.timer.grain.toNat % s.arc.filter.interval == 0 && s.arc.filter.count ≤ 1) ∧
     Meets (atPhase 1 R) (fun s => s.timer.grain.toNat % s.timer.cyc.interval != 0 &&
       s.timer.grain.toNat % s.arc.filter.interval != 0) ∧
     (cycQualifies (third true) true ∧ cycQualifies (third false) false) ∧
     (arcQualifies (third true) true ∧ arcQualifies (third false) false)) := by
  refine ⟨meets ?_, meets ?_, ⟨⟨⟨rfl, rfl⟩, ?_⟩, ⟨⟨rfl, rfl⟩, ?_⟩⟩, ⟨⟨rfl, rfl⟩, ?_⟩, ⟨rfl, rfl⟩, ?_⟩ <;> decide +kernel

/-- `locked1000` with its filter two samples into a rise stamped `stamp`, at `grain`. -/
def rising (grain start stamp : Stamp) (f : Timer → Timer) : State :=
  locked1000.modTimer fun x => f { x with grain := grain, start := start, cyc := ⟨false, 16, 2, stamp, true, false⟩ }

/-- The hypotheses of a strobe with this t in this state. -/
structure Strobes (s : State) (t : Int) (cond : Timer → Bool) : Prop where
  qualifies : cycQualifies s true
  phase : t = (s.timer.cyc.stamp - s.timer.start).toInt
  holds : cond s.timer = true

theorem strobes {s : State} {t : Int} {cond : Timer → Bool}
    (h : (!s.resetLow && s.fault.inbox.isEmpty && !s.timer.cyc.sampled &&
      decide (s.timer.grain.toNat % s.timer.cyc.interval = 0) && !s.timer.cyc.accepted && decide (2 ≤ s.timer.cyc.count) &&
      decide (t = (s.timer.cyc.stamp - s.timer.start).toInt) && cond s.timer) = true) : Strobes s t cond := by
  simp only [Bool.and_eq_true, Bool.not_eq_true', List.isEmpty_iff, decide_eq_true_eq] at h
  obtain ⟨⟨⟨⟨⟨⟨⟨a, b⟩, c⟩, d⟩, e⟩, f⟩, g⟩, i⟩ := h
  exact ⟨⟨⟨a, b⟩, c, d, e, f⟩, g, i⟩

/-- In LOCKED and in HOLDOVER: case C at ε = λ, before the commit guard and on its first grain, case A at t = −1, case B
at ε = −10; a strobe in DISABLED; one in a realigned cycle, and one on each marked start. -/
theorem witness_StrobeCorrectsOrIsExtra :
    (let corrects (x : SyncState) : Prop :=
       Strobes (rising 10000288 10000000 10000250 fun y => { y with sync := x }) 250 (fun y => y.sync == x && !y.realigned &&
         !y.currentMark && decide ((250 : Int).natAbs = y.lambda)) ∧
       Strobes (rising 10000288 10000000 10000250 fun y => { y with sync := x, n := 32, endE := 16672 }) 250 (fun y => y.sync == x &&
         !y.currentMark && decide (250 < (y.endE : Int) - (y.n * 500 : Nat) ∧ y.endE = 288 + 16384)) ∧
       Strobes (rising 20000016 20000001 20000000 fun y => { y with sync := x }) (-1) (fun y => y.sync == x && !y.realigned &&
         !y.currentMark) ∧
       Strobes (rising 10500032 10375040 10500030 fun y => { y with sync := x }) 124990 (fun y => y.sync == x && !y.realigned &&
         !y.nextMark && decide (((124990 : Int) - y.endE).natAbs = 10))
     corrects .locked ∧ corrects .holdover) ∧
    locked1000.mgmt.sources[(0 : Fin 12)].number ≠ 0 ∧
    Strobes (rising 10000288 10000000 10000250 fun x => { x with sync := .disabled }) 250 (fun x => x.sync == .disabled) ∧
    Strobes (rising 10000288 10000000 10000250 fun x => { x with realigned := true }) 250 (fun x => x.realigned) ∧
    Strobes (rising 10000288 10000000 10000250 fun x => { x with currentMark := true }) 250 (fun x => x.currentMark) ∧
    Strobes (rising 10500032 10375040 10437540 fun x => { x with nextMark := true }) 62500 (fun x => x.nextMark) := by
  refine ⟨⟨⟨?_, ?_, ?_, ?_⟩, ?_, ?_, ?_, ?_⟩, by decide +kernel, ?_, ?_, ?_, ?_⟩ <;> (apply strobes; decide +kernel)

/-- Case C with ε = λ + 1, and case B at its first phase E − M/2, with one and with two out-of-window strobes before, and in
HOLDOVER; the first strobe in ACQUIRING and in LOST. -/
theorem witness_RealignPlacesTheGrid :
    (let at' (x : SyncState) (k : Nat) : Prop :=
       Strobes (rising 10000288 10000000 10000251 fun y => { y with sync := x, outRun := k }) 251 (fun y => y.sync == x &&
         !y.realigned && !y.currentMark && decide (0 < y.n ∧ y.outRun = k ∧ y.lambda + 1 = 251)) ∧
       Strobes (rising 10500032 10375040 10437540 fun y => { y with sync := x, outRun := k }) 62500 (fun y => y.sync == x &&
         !y.realigned && !y.nextMark && decide ((y.endE : Int) - (y.n * 500 : Nat) = 62500 ∧ y.outRun = k ∧
           y.lambda < ((62500 : Int) - y.endE).natAbs))
     at' .locked 1 ∧ at' .locked 2 ∧ at' .holdover 0) ∧
    Strobes (rising 10000288 10000000 10000250 fun x => { x with sync := .acquiring }) 250
      (fun x => x.sync == .acquiring && !x.realigned && !x.currentMark && !x.nextMark) ∧
    Strobes (rising 10000288 10000000 10000250 fun x => { x with sync := .lost }) 250
      (fun x => x.sync == .lost && !x.realigned && !x.currentMark && !x.nextMark) := by
  and_intros <;> (apply strobes; decide +kernel)

/-- ARC half-qualified on a rise and on a fall, port 4 arc-exposed, CLEAN and DISTURBED; SET_ARC at the ends of a range. -/
theorem witness_SetArcAndTheArcEdges :
    (let s (level : Bool) (x : NoiseState) : State :=
      ((((routed 15 R).modPort 4 fun u => { u with arcExposed := true }).modNoise 4 fun m => { m with state := x }).modArc fun a =>
        { a with filter := ⟨!level, 16, 2, 0, level, false⟩ }).modTimer fun t => { t with grain := 32 }
     (arcQualifies (s true .clean) true ∧ (s true .clean).ports[(4 : Port)].arcExposed = true ∧
       (s true .clean).noise[(4 : Port)].state ≠ .disturbed ∧ (s true .clean).mgmt.sources[(5 : Fin 12)].number ≠ 0) ∧
     (arcQualifies (s true .disturbed) true ∧ (s true .disturbed).noise[(4 : Port)].state = .disturbed) ∧
     arcQualifies (s false .clean) false) ∧
    Met R 0x17 [12] (fun q => q.payload == [12]) ∧ Met R 0x17 [11] (fun q => q.payload == [11]) := by
  refine ⟨⟨⟨⟨⟨rfl, rfl⟩, ?_⟩, ?_⟩, ⟨⟨⟨rfl, rfl⟩, ?_⟩, ?_⟩, ⟨rfl, rfl⟩, ?_⟩, met ?_, met ?_⟩ <;> decide +kernel

/-- The end of a cycle: unmatched in LOCKED without and with the next start marked, matched, and in HOLDOVER below and at
H − 1 misses, its notice routed; in a state that expects no strobe. -/
theorem witness_CycleStartBeginsTheNextCycle :
    (let s (f : Timer → Timer) : State := atPhase 125000 (locked1000.modTimer f)
     Meets (s id) (fun t => decide (t.timer.endE ≤ t.phase) && !t.timer.currentMark && !t.timer.nextMark) ∧
     Meets (s fun x => { x with nextMark := true }) (fun t => decide (t.timer.endE ≤ t.phase) && t.timer.nextMark) ∧
     Meets (s fun x => { x with currentMark := true }) (fun t => decide (t.timer.endE ≤ t.phase) && t.timer.currentMark) ∧
     Meets (s fun x => { x with sync := .holdover, missRun := 14 }) (fun t => decide (t.timer.endE ≤ t.phase) &&
       decide (min 255 (t.timer.missRun + 1) < t.timer.holdLimit)) ∧
     Meets (s fun x => { x with sync := .holdover, missRun := 15 }) (fun t => decide (t.timer.endE ≤ t.phase) &&
       decide (t.timer.holdLimit ≤ min 255 (t.timer.missRun + 1) ∧ t.mgmt.sources[(0 : Fin 12)].number ≠ 0)) ∧
     Meets (s fun x => { x with sync := .acquiring }) (fun t => decide (t.timer.endE ≤ t.phase) && t.timer.sync == .acquiring)) := by
  and_intros <;> (apply meets; decide +kernel)

theorem witness_SyncLostAtTheHoldLimit :
    Meets (atPhase 125000 (locked1000.modTimer fun x => { x with sync := .holdover, missRun := 15 })) (fun s =>
      decide (s.timer.endE ≤ s.phase ∧ s.timer.sync = .holdover ∧ s.timer.currentMark = false ∧
        s.timer.holdLimit ≤ min 255 (s.timer.missRun + 1) ∧ s.mgmt.sources[(0 : Fin 12)].number ≠ 0)) :=
  meets (by decide +kernel)

/-! ### Witnesses: ports and links -/

/-- A PORT_CONFIG payload: port, speed, ingress enable, HOLD and arc-exposed, the other settings as after reset. -/
def config (p : Byte) (speed : Nat) (ingress hold exposed : Byte) : List Byte :=
  [p, BitVec.ofNat 8 (speed / 256), BitVec.ofNat 8 speed, ingress, hold, exposed, 0, 1, 128, 0, 16, 2, 0, 75, 4, 16, 8, 63]

/-- Port 2 with HOLD on and a best-effort frame ready on an empty timeline. -/
def heldBE : State := (atPhase 120 (waitingBE (upAt 2 .s1000 R))).modPort 2 fun u => { u with hold := true }

/-- Port 2 with HOLD on and the frame of stream 21 ready in its open window. -/
def held21 : State := (atPhase 7464 (opened ⟨7300, 7612, 21, 0, .primary⟩ 0 [] (waiting21 .live))).modPort 2 fun u => { u with hold := true }

theorem heldBE_starts : BestEffortStart heldBE 2 3 frameBE [] .s1000 where
  up := by decide +kernel
  idle := by decide +kernel
  free := by decide +kernel
  queue := by decide +kernel
  stored := by decide +kernel
  ready := by decide +kernel
  fits := by intro w h; cases h
  first := fun c h => absurd (Fin.le_last c) (not_le.2 h)

theorem held21_starts : MotionStart held21 2 ⟨⟨7300, 7612, 21, 0, .primary⟩, false, false, 0, []⟩
    { stream21 .live with legs := [{ leg21 .live with slot := [0] }] } { leg21 .live with slot := [0] } (frame21 0) [] .s1000 := by
  constructor <;> decide +kernel

/-- The ARC line on, and port 2 in this noise state. -/
def arcAt (x : NoiseState) (s : State) : State :=
  (s.modNoise 2 fun m => { m with state := x }).modArc fun a => { a with filter := { a.filter with accepted := true } }

/-- Each refusal at the first value past its range; port 7 with a new speed under the lock; the speed that stays; a new
speed for the port of stream 21 as egress, as ingress and as neither, on a free and on a busy engine, its link UP; arc-exposed
turned on in each state but one; HOLD turned off. -/
theorem witness_PortConfig :
    Met R 0x06 (config 8 1000 1 0 0) (fun q => q.payload.length == 18 && q.b 0 == 8) ∧
    Met R 0x06 (config 7 999 1 0 0) (fun q => q.b 0 == 7 && q.field 1 2 == 999) ∧
    Met R 0x06 (config 7 1000 2 0 0) (fun q => q.b 0 == 7 && q.field 1 2 == 1000 && q.b 3 == 2) ∧
    Met R 0x06 (config 7 100 1 2 0) (fun q => q.b 0 == 7 && q.field 1 2 == 100 && q.b 3 == 1 && q.b 4 == 2) ∧
    Met R 0x06 (config 7 1000 1 1 2) (fun q => q.b 0 == 7 && q.field 1 2 == 1000 && q.b 3 == 1 && q.b 4 == 1 && q.b 5 == 2) ∧
    Met (lockSet R) 0x06 (config 7 100 1 1 1) (fun q => q.b 0 == 7 && q.field 1 2 == 100 && q.b 3 == 1 && q.b 4 == 1 &&
      q.b 5 == 1 && (lockSet R).engine.locked && (lockSet R).ports[(7 : Port)].planned != .s100) ∧
    (let takes (s : State) (p : Byte) (speed : Nat) (exposed : Byte) (cond : Bool) : Prop :=
       Met s 0x06 (config p speed 1 0 exposed) fun q => q.payload.length == 18 && q.b 0 == p.toNat && q.field 1 2 == speed &&
         q.b 3 == 1 && q.b 4 == 0 && q.b 5 == exposed.toNat && !s.engine.locked && cond
     let free (s : State) : Bool := s.engine.current == none && nothingWaits s
     let taken (k : RepairKind) (p : Port) (x : Speed) : RepairRun :=
       ⟨k, p, 125000, Table.upd (.replicate 8 .s1000) p fun _ => x, 0, none, [], [], false⟩
     let c : State := cell .live
     takes c 2 1000 0 (!c.ports[(2 : Port)].hold && free c) ∧
     takes c 2 100 0 (free c && c.ports[(2 : Port)].link == .up .s1000 && (c.repairNext (taken .egress 2 .s100)).isSome) ∧
     takes c 6 100 0 (free c && (c.repairNext (taken .egress 6 .s100)).isNone && (c.repairNext (taken .ingress 6 .s100)).isSome) ∧
     takes c 7 100 0 (free c && (c.repairNext (taken .egress 7 .s100)).isNone && (c.repairNext (taken .ingress 7 .s100)).isNone) ∧
     takes searching 2 100 0 (searching.engine.current != none) ∧
     takes (arcAt .disturbed c) 2 1000 1 (!c.ports[(2 : Port)].arcExposed && (arcAt .disturbed c).arc.filter.accepted) ∧
     takes (arcAt .watch c) 2 1000 1 ((arcAt .watch c).noise[(2 : Port)].state == .watch && (arcAt .watch c).arc.filter.accepted) ∧
     takes heldBE 2 1000 0 heldBE.ports[(2 : Port)].hold ∧ takes held21 2 1000 0 held21.ports[(2 : Port)].hold) := by
  and_intros <;> (apply met; decide +kernel)

/-- Egress 2 UP: it receives and sends, stream 21 has a frame in its slot, its leg LIVE, and class queue 3 holds one. -/
def fullEgress : State :=
  routed 1 (receiving 2 (sending (.motion 21 false) ((waiting21 .live).modBuffer fun b => { b with
      frames := b.frames ++ [{ frameBE with id := 1 }], beFree := 1535, beLow := 1535, nextId := 2 })))
    |>.modEgress 2 fun y => { y with queues := Table.upd y.queues 3 fun _ => [1], beCount := 1 }

/-- Such an egress, as a test: what TAKING DOWN its link does to each of its places says something. -/
def egressIsFull (s : State) : Bool :=
  s.ports[(2 : Port)].link != .down && s.ports[(2 : Port)].receiving != none && s.egress[(2 : Port)].wire != none &&
    decide (0 < classFrames s 2 ∧ 0 < slotFrames s 2 ∧ s.mgmt.sources[(3 : Fin 12)].number ≠ 0) &&
    (s.leg 21 2).any (fun l => l.state == some .live) && decide ((s.buffer.frames.map (·.id)).Nodup) &&
    decide ((s.egress[(2 : Port)].wire.toList.map (·.frame) ++ s.egress[(2 : Port)].queues.toList.flatten).Nodup) &&
    (s.streams[(21 : StreamNo)] : Option Stream).isSome && lostFrames s 2 != [] && lostBestEffort s 2 != []

/-- Port 8; the last port, UP and DOWN; the full egress with its monitor in WATCH. -/
theorem witness_PortRestartTakesTheLinkDown :
    Met R 0x07 [8] (fun q => q.payload.length == 1 && q.b 0 == 8) ∧
    Met (upAt 7 .s100 R) 0x07 [7] (fun q => q.b 0 == 7 && (upAt 7 .s100 R).ports[(7 : Port)].link != .down) ∧
    Met R 0x07 [7] (fun q => q.b 0 == 7 && R.ports[(7 : Port)].link == .down) ∧
    (let s : State := fullEgress.modNoise 2 fun m => { m with state := .watch, count := 7 }
     Met s 0x07 [2] (fun q => q.b 0 == 2 && egressIsFull s && s.noise[(2 : Port)].state == .watch)) := by
  and_intros <;> (apply met; decide +kernel)

/-- A SET_FILTER payload: seven windows that enable VLAN 0 to 15, and a last one with this enable. -/
def filterOf (p untagged enable : Byte) : List Byte :=
  [p, untagged] ++ (List.replicate 7 [0, 0, 0, 16, 1]).flatten ++ [15, 255, 16, 1, enable]

theorem witness_SetFilterAndClearFlags :
    Met R 0x09 (filterOf 8 1 1) (fun q => q.payload.length == 42 && q.b 0 == 8) ∧
    Met R 0x09 (filterOf 7 2 1) (fun q => q.b 0 == 7 && q.b 1 == 2) ∧
    Met R 0x09 (filterOf 7 1 2) (fun q => q.b 0 == 7 && q.b 1 == 1 && q.b 41 == 2 &&
      decide (∀ j : Fin 7, q.b (6 + 5 * j.val) ≤ 1)) ∧
    Met R 0x09 (filterOf 7 1 1) (fun q => q.b 0 == 7 && q.b 1 == 1 && decide (∀ j : Fin 8, q.b (6 + 5 * j.val) ≤ 1)) ∧
    Met R 0x0A [8, 63] (fun q => q.payload.length == 2 && q.b 0 == 8) ∧ Met R 0x0A [7, 63] (fun q => q.b 0 == 7) := by
  and_intros <;> (apply met; decide +kernel)

/-- A DOWN link; an UP one that receives a frame, with a LIVE leg and with a SUSPENDED one; the full egress. -/
theorem witness_LinkDownEmptiesTheEgress :
    Meets R (fun s => s.ports[(7 : Port)].link == .down) ∧
    Meets (receiving 2 (waiting21 .live)) (fun s => s.ports[(2 : Port)].link != .down && s.ports[(2 : Port)].receiving != none) ∧
    Meets (cell .suspended) (fun s => s.ports[(2 : Port)].link != .down) ∧ Meets fullEgress egressIsFull := by
  and_intros <;> (apply meets; decide +kernel)

/-- Port 2 DOWN with HOLD off. -/
def down2 (s : State) : State := s.modPort 2 fun u => { u with link := .down, hold := false }

/-- A DOWN link with a DORMANT leg, for both reports, its notices routed; UP at the reported speed; UP at the other, its egress
full; a used twin window without copies. -/
theorem witness_LinkUpWakesDormantLegs :
    Meets (routed 1 (down2 (cell .dormant))) (fun s => s.ports[(2 : Port)].link == .down &&
      s.mgmt.sources[(3 : Fin 12)].number != 0 && (s.leg 21 2).any fun l => l.state == some .dormant) ∧
    Meets fullEgress (fun s => s.ports[(2 : Port)].link == .up (reported s 2 true)) ∧
    Meets (upAt 2 .s100 fullEgress) (fun s => egressIsFull s && s.ports[(2 : Port)].link == .up (reported s 2 false)) ∧
    Meets (upAt 2 .s100 fullEgress) (fun s => egressIsFull s && s.ports[(2 : Port)].link != .up (reported s 2 true)) ∧
    Meets (upAt 2 .s100 (routed 0 fullEgress)) (fun s => s.mgmt.sources[(3 : Fin 12)].number == 0 &&
      s.ports[(2 : Port)].link != .up (reported s 2 true)) ∧
    Meets (down2 (opened ⟨8124, 8436, 21, 0, .twin⟩ 0 [] (cell .dormant))) (fun s => !s.ports[(2 : Port)].hold &&
      s.egress[(2 : Port)].wire == none && s.egress[(2 : Port)].openWindow.any fun o =>
        o.window.kind == .twin && !o.released && o.copies == []) := by
  and_intros <;> (apply meets; decide +kernel)

/-- As the link comes up: nothing waits; a best-effort frame is ready; a motion frame is, in its open window. -/
theorem witness_LinkUpWakesDormantLegs_choice :
    (let up (s : State) : State := withLink (down2 s) 2 (reported (down2 s) 2 true)
     Settled (up (cell .dormant)) 2 ∧ BestEffortStart (up heldBE) 2 3 frameBE [] .s1000 ∧
     MotionStart (up held21) 2 ⟨⟨7300, 7612, 21, 0, .primary⟩, false, false, 0, []⟩
       { stream21 .live with legs := [{ leg21 .live with slot := [0] }] } { leg21 .live with slot := [0] } (frame21 0) [] .s1000) := by
  refine ⟨.inr (.inr (.inr (.inr ⟨.s1000, ⟨by decide +kernel, by decide +kernel, fun o h => by cases h⟩, ?_⟩))), ?_, ?_⟩
  · rintro c ⟨r, h, -⟩
    fin_cases c <;> cases h
  · exact ⟨⟨by decide +kernel, by decide +kernel, by decide +kernel⟩, by decide +kernel, by decide +kernel, by decide +kernel,
      fun w h => (by cases h), fun c h => absurd (Fin.le_last c) (not_le.2 h)⟩
  · constructor <;> decide +kernel

theorem witness_ReceptionStartAndTheVlanFilter :
    Meets (upAt 7 .s100 R) (fun s => s.ports[(7 : Port)].link != .down && s.ports[(7 : Port)].receiving == none) ∧
    Meets R (fun s => s.ports[(7 : Port)].link == .down) := by
  and_intros <;> (apply meets; decide +kernel)

/-- The first cause of R32 that applies to a frame, as the statement has it. -/
def firstDrop (u : PortUnit) (f : RxFrame) : Option Cause :=
  if f.symbolError then some Cause.symbol else if f.fcsOk = false then some .fcs
  else if f.bytes.length < 64 then some .runt else if 1522 < f.bytes.length then some .oversize
  else if u.ingressEnable = false then some .ingressOff
  else if filterPasses u f = false then some .filtered else none

/-- 64 bytes with the symbol error or a wrong FCS, 63 and 1,523 bytes; 64 bytes with the ingress off; 1,522 untagged bytes at
a port whose filter has a window and allows no untagged frame. The upward test from each state, the count that this fault makes
at and below each threshold. -/
theorem witness_FrameEndDropsWithTheFirstCause :
    (let drops (s : State) (f : RxFrame) (c : Cause) (cond : Monitor → PortUnit → Bool) : Prop := Meets (rx1 s) fun t =>
      t.ports[(1 : Port)].receiving == some 0 && firstDrop t.ports[(1 : Port)] f == some c &&
        cond t.noise[(1 : Port)] t.ports[(1 : Port)]
     let any (_ : Monitor) (_ : PortUnit) : Bool := true
     drops R ⟨List.replicate 64 0, true, false⟩ .symbol any ∧ drops R ⟨List.replicate 64 0, false, false⟩ .fcs any ∧
     drops R ⟨List.replicate 63 0, false, true⟩ .runt any ∧ drops R ⟨List.replicate 1523 0, false, true⟩ .oversize any ∧
     drops (R.modPort 1 fun u => { u with ingressEnable := false }) ⟨List.replicate 64 0, false, true⟩ .ingressOff any ∧
     drops (R.modPort 1 fun u => { u with untaggedAllowed := false, windows := .replicate 8 ⟨0, 16, true⟩ })
       ⟨List.replicate 1522 0, false, true⟩ .filtered any ∧
     (let runt (m : Monitor) (cond : Nat → PortUnit → Bool) : Prop :=
        drops (R.modNoise 1 fun _ => m) ⟨List.replicate 63 0, false, true⟩ .runt fun m u => cond (min 65535 (m.count + 1)) u
      runt ⟨.clean, 15, 0, 0, false⟩ (fun c u => c == u.thetaD) ∧ runt ⟨.clean, 3, 0, 0, false⟩ (fun c u => c == u.thetaW) ∧
      runt ⟨.clean, 2, 0, 0, false⟩ (fun c u => c + 1 == u.thetaW) ∧ runt ⟨.watch, 15, 0, 7, false⟩ (fun c u => c == u.thetaD) ∧
      runt ⟨.watch, 14, 0, 7, false⟩ (fun c u => c + 1 == u.thetaD) ∧ runt ⟨.watch, 2, 0, 7, false⟩ (fun c u => c + 1 == u.thetaW) ∧
      runt ⟨.disturbed, 65535, 7, 0, false⟩ (fun c _ => c == 65535))) := by
  and_intros <;> (apply meets; decide +kernel)

/-! ### Witnesses: best effort and the address table -/

/-- A table filled from position 0, without the keys of the frames below. -/
def filled (k : Nat) : List AddrEntry := (List.range k).map fun i => ⟨i, BitVec.ofNat 48 i, none, 3, .static, 0⟩

theorem filled_ok {k : Nat} (h : k ≤ 1024) : AddrOk (filled k) where
  ascending := List.pairwise_map.2 List.pairwise_lt_range
  bounded := by simp [filled]; omega
  keys := by
    refine List.pairwise_map.2 (List.Pairwise.imp_of_mem ?_ List.pairwise_lt_range)
    intro a b ha hb hab ⟨hm, _⟩
    simp only [List.mem_range] at ha hb
    have := congrArg BitVec.toNat hm
    simp only [BitVec.toNat_ofNat] at this
    omega
  ages := by simp [filled]

/-- The table of a state. -/
def withTable (xs : List AddrEntry) (s : State) : State := { s with addr := { s.addr with entries := xs } }

theorem withTable_entries (xs : List AddrEntry) (s : State) : (withTable xs s).addr.entries = xs := rfl

/-- The hypotheses that the two statements on a good best-effort frame share, for a frame on port 1. -/
structure GoodFrame (s : State) (f : RxFrame) (cond : State → Bool) : Prop where
  meets : Meets s fun s => s.ports[(1 : Port)].receiving == some 0 && !f.symbolError && f.fcsOk &&
    decide (64 ≤ f.bytes.length ∧ f.bytes.length ≤ 1522) && s.ports[(1 : Port)].ingressEnable &&
    filterPasses s.ports[(1 : Port)] f && every s fun _ x => x.stage != .active || x.desc.key != ⟨1, frameDest f, frameVlan f⟩
  addr : AddrOk s.addr.entries
  holds : cond s = true

/-- A frame of 64 bytes with a group source address. -/
def frameG (dest : List Byte) : RxFrame := ⟨dest ++ [3, 0, 0, 0, 0, 1] ++ List.replicate 52 0, false, true⟩

theorem one_entry_ok (x : AddrEntry) (h : x.pos < 1024) (a : x.age ≤ 3) : AddrOk [x] :=
  ⟨by simp, by simpa using h, by simp, by simpa using a⟩

/-- An empty table, one with a single free position and a full one; frames of 64 and of 1,522 bytes; a group source; the entry
of the source LEARNED and STATIC, with the frame's port and with another; a stream of the key that is not ACTIVE. -/
theorem witness_GoodFrameIsLearned :
    (let learns (s : State) (k : Nat) (f : RxFrame) : Prop := GoodFrame (withTable (filled k) (rx1 s)) f fun s =>
      !(frameSource f).getLsbD 40 && decide (s.addr.entries.length = k) &&
        s.addr.entries.all fun x => !(x.mac == frameSource f && x.vlan == frameVlan f)
     learns R 0 (frame64 [2, 0, 0, 0, 0, 9]) ∧
     learns R 1023 ⟨[2, 0, 0, 0, 0, 9] ++ [2, 0, 0, 0, 0, 1] ++ List.replicate 1510 0, false, true⟩ ∧
     learns R 1024 (frame64 [2, 0, 0, 0, 0, 9]) ∧
     learns ((staged .placed (cell .live)).modStream 21 fun x => { x with desc := { x.desc with key := ⟨1, 0x020000000009, none⟩ } }) 0
       (frame64 [2, 0, 0, 0, 0, 9])) ∧
    GoodFrame (rx1 R) (frameG [2, 0, 0, 0, 0, 9]) (fun _ => (frameSource (frameG [2, 0, 0, 0, 0, 9])).getLsbD 40) ∧
    (let knows (p : Port) (k : EntryKind) : Prop :=
       GoodFrame (withTable [⟨1023, 0x020000000001, none, p, k, 3⟩] (rx1 R)) (frame64 [2, 0, 0, 0, 0, 9]) fun s =>
         !(frameSource (frame64 [2, 0, 0, 0, 0, 9])).getLsbD 40 && s.addr.entries.any fun x =>
           x.mac == frameSource (frame64 [2, 0, 0, 0, 0, 9]) && x.vlan == none && x.kind == k && x.port == p
     knows 1 .learned ∧ knows 2 .learned ∧ knows 1 .static ∧ knows 2 .static) := by
  refine ⟨⟨?_, ?_, ?_, ?_⟩, ⟨meets (by decide +kernel), filled_ok (k := 0) (by omega), by decide +kernel⟩, ?_, ?_, ?_, ?_⟩
  iterate 4
    · refine ⟨meets (by decide +kernel), ?_, by decide +kernel⟩
      rw [withTable_entries]; exact filled_ok (by omega)
  iterate 4
    · exact ⟨meets (by decide +kernel), one_entry_ok _ (by decide) (by decide), by decide +kernel⟩

/-- The frame of `frame64` to an address that the table has on egress 2, received in this state, HOLD there being off. -/
def onto2 (s : State) : State :=
  withTable [⟨1023, 0x020000000009, none, 2, .learned, 3⟩] (rx1 (s.modPort 2 fun u => { u with hold := false }))

theorem onto2_settled : Settled (onto2 (upAt 2 .s1000 R)) 2 := by
  refine .inr (.inr (.inr (.inr ⟨.s1000, ⟨by decide +kernel, by decide +kernel, fun o h => by cases h⟩, ?_⟩)))
  rintro c ⟨r, h, -⟩
  fin_cases c <;> cases h

theorem onto2_starts_best_effort : BestEffortStart (onto2 heldBE) 2 3 frameBE [] .s1000 where
  up := by decide +kernel
  idle := by decide +kernel
  free := by decide +kernel
  queue := by decide +kernel
  stored := by decide +kernel
  ready := by decide +kernel
  fits := by intro w h; cases h
  first := fun c h => absurd (Fin.le_last c) (not_le.2 h)

theorem onto2_starts_motion : MotionStart (onto2 held21) 2 ⟨⟨7300, 7612, 21, 0, .primary⟩, false, false, 0, []⟩
    { stream21 .live with legs := [{ leg21 .live with slot := [0] }] } { leg21 .live with slot := [0] } (frame21 0) [] .s1000 := by
  constructor <;> decide +kernel

/-- The buffers of these states. -/
theorem onto2_cells : CellsOk (onto2 heldBE).buffer ∧ CellsOk (onto2 held21).buffer := by
  refine ⟨?_, ?_⟩ <;> constructor <;> decide +kernel

/-- An individual source: the destination on an idle egress where nothing waits, where a best-effort frame may start and where a
motion frame may; the source itself as destination, in an empty table and with its LEARNED entry on another port. -/
theorem witness_BestEffortFramesGoToTheirTargets_individual_source :
    (let f : RxFrame := frame64 [2, 0, 0, 0, 0, 9]
     let stores (s : State) : Prop := GoodFrame (onto2 s) f fun t => !(frameSource f).getLsbD 40 &&
       decide (t.egress[(2 : Port)].beCount + 1 ≤ t.ports[(2 : Port)].beLimit ∧ 1 ≤ t.buffer.beFree) &&
         t.ports[(2 : Port)].link != .down && !t.ports[(2 : Port)].hold && t.egress[(2 : Port)].wire == none
     stores (upAt 2 .s1000 R) ∧ stores heldBE ∧ stores held21) ∧
    (let f : RxFrame := frame64 [2, 0, 0, 0, 0, 1]
     GoodFrame (withTable (filled 0) (rx1 R)) f (fun t => frameDest f == frameSource f && decide (t.addr.entries.length < 1024)) ∧
     GoodFrame (withTable [⟨1023, 0x020000000001, none, 3, .learned, 3⟩] (rx1 R)) f (fun t => t.addr.entries.any fun x =>
       x.mac == frameDest f && x.vlan == frameVlan f && x.kind == .learned)) := by
  refine ⟨⟨?_, ?_, ?_⟩, ⟨meets (by decide +kernel), filled_ok (k := 0) (by omega), by decide +kernel⟩, ?_⟩
  all_goals exact ⟨meets (by decide +kernel), one_entry_ok _ (by decide) (by decide), by decide +kernel⟩

/-- A group source. The destination known on port 1 itself; on port 2 while it is DOWN; UP with 384 cells counted of 384; with 383
and the wire busy. A group destination and an unknown one, to seven targets that take the frame; one target full and one DOWN; no cell
free; every target DOWN. -/
theorem witness_BestEffortFramesGoToTheirTargets :
    (let entry (p : Port) : AddrEntry := ⟨1023, 0x020000000009, none, p, .learned, 3⟩
     let known (s : State) (p : Port) (cond : State → Bool) : Prop :=
       GoodFrame (withTable [entry p] (rx1 s)) (frameG [2, 0, 0, 0, 0, 9]) fun s =>
         (frameSource (frameG [2, 0, 0, 0, 0, 9])).getLsbD 40 && !(frameDest (frameG [2, 0, 0, 0, 0, 9])).getLsbD 40 &&
         frameDest (frameG [2, 0, 0, 0, 0, 9]) == 0x020000000009 && cond s
     known R 1 (fun _ => true) ∧ known R 2 (fun s => s.ports[(2 : Port)].link == .down) ∧
     known (counting 2 384 (upAt 2 .s1000 R)) 2 (fun s => s.ports[(2 : Port)].link != .down &&
       decide (s.ports[(2 : Port)].beLimit < s.egress[(2 : Port)].beCount + 1)) ∧
     known (busy 2 (counting 2 383 (upAt 2 .s1000 R))) 2 (fun s => s.ports[(2 : Port)].link != .down &&
       decide (s.egress[(2 : Port)].beCount + 1 ≤ s.ports[(2 : Port)].beLimit ∧ 1 ≤ s.buffer.beFree) &&
       s.egress[(2 : Port)].wire != none)) ∧
    (let takes (s : State) (e : Port) : Bool := s.ports[e].link != .down &&
       decide (s.egress[e].beCount + 1 ≤ s.ports[e].beLimit ∧ 1 ≤ s.buffer.beFree)
     let others : List Port := [0, 2, 3, 4, 5, 6, 7]
     let floods (s : State) (dest : List Byte) (cond : State → Bool) : Prop := GoodFrame s (frameG dest) fun s =>
       ((frameDest (frameG dest)).getLsbD 40 || s.addr.entries == []) && cond s
     floods flooding [255, 255, 255, 255, 255, 255] (fun s => others.all fun e => takes s e && s.egress[e].wire != none) ∧
     floods flooding [2, 0, 0, 0, 0, 9] (fun s => others.all fun e => takes s e && s.egress[e].wire != none) ∧
     floods partly [2, 0, 0, 0, 0, 9] (fun s => others.countP (takes s) == 5 && s.ports[(0 : Port)].link == .down &&
       s.ports[(2 : Port)].link != .down && others.all fun e => s.egress[e].wire != none) ∧
     floods (flooding.modBuffer fun b => { b with beFree := 0 }) [2, 0, 0, 0, 0, 9] (fun s => others.all fun e => !takes s e) ∧
     floods (rx1 R) [2, 0, 0, 0, 0, 9] (fun s => others.all fun e => s.ports[e].link == .down)) ∧
    CellsOk R.buffer := by
  refine ⟨⟨?_, ?_, ?_, ?_⟩, ⟨?_, ?_, ?_, ?_, ?_⟩, ?_⟩
  iterate 4
    · exact ⟨meets (by decide +kernel), one_entry_ok _ (by decide) (by decide), by decide +kernel⟩
  iterate 5
    · exact ⟨meets (by decide +kernel), filled_ok (k := 0) (by omega), by decide +kernel⟩
  · exact ⟨rfl, rfl, by decide, by decide, by decide, by simp [State.reset, State.resetAs, FrameBuffer.reset]⟩

/-- An address request: MAC, VLAN and more. -/
def addrOf (mac : List Byte) (vlan : Nat) (more : List Byte) : List Byte :=
  mac ++ [BitVec.ofNat 8 (vlan / 256), BitVec.ofNat 8 vlan] ++ more

/-- Port 8, VLAN 4096, a group address; a full table, one with a free position, and one that holds the key last. -/
theorem witness_AddrAddStaticInsertsOrReplaces :
    Met R 0x12 (addrOf [0, 0, 0, 0, 4, 0] 0 [8]) (fun q => q.payload.length == 9 && q.b 8 == 8) ∧
    Met R 0x12 (addrOf [0, 0, 0, 0, 4, 0] 4096 [7]) (fun q => q.b 8 == 7 && q.field 6 2 == 4096) ∧
    Met R 0x12 (addrOf [1, 0, 0, 0, 4, 0] 4095 [7]) (fun q => q.b 8 == 7 && q.field 6 2 == 4095 &&
      (BitVec.ofNat 48 (q.field 0 6)).getLsbD 40) ∧
    (let free (k : Nat) : Prop := Met (withTable (filled k) R) 0x12 (addrOf [0, 0, 0, 0, 4, 0] 0 [7]) fun q =>
      q.b 8 == 7 && q.field 6 2 == 0 && !(BitVec.ofNat 48 (q.field 0 6)).getLsbD 40 &&
        (filled k).all fun x => x.mac != BitVec.ofNat 48 (q.field 0 6)
     free 1024 ∧ free 1023) ∧
    Met (withTable (filled 1024) R) 0x12 (addrOf [0, 0, 0, 0, 3, 255] 0 [7]) (fun q => q.b 8 == 7 &&
      (filled 1024).any fun x => x.mac == BitVec.ofNat 48 (q.field 0 6) && x.vlan == none && x.pos == 1023) ∧
    AddrOk (filled 1024) ∧ AddrOk (filled 1023) := by
  refine ⟨met ?_, met ?_, met ?_, ⟨met ?_, met ?_⟩, met ?_, filled_ok ?_, filled_ok ?_⟩ <;> decide +kernel

theorem witness_AddrRemoveAndFlush :
    Met R 0x13 (addrOf [0, 0, 0, 0, 4, 0] 4096 []) (fun q => q.payload.length == 8 && q.field 6 2 == 4096) ∧
    Met (withTable (filled 1024) R) 0x13 (addrOf [0, 0, 0, 0, 3, 255] 4095 []) (fun q => q.field 6 2 == 4095 &&
      (filled 1024).all fun x => x.vlan != some 4095) ∧
    Met (withTable (filled 1024) R) 0x13 (addrOf [0, 0, 0, 0, 3, 255] 0 []) (fun q => q.field 6 2 == 0 &&
      (filled 1024).any fun x => x.mac == BitVec.ofNat 48 (q.field 0 6) && x.vlan == none && x.pos == 1023) ∧
    AddrOk (filled 1024) ∧ AddrOk R.addr.entries ∧
    Met R 0x15 [2] (fun q => q.payload.length == 1 && q.b 0 == 2) ∧ Met R 0x15 [1] (fun q => q.b 0 == 1) ∧
    Met R 0x15 [0] (fun q => q.b 0 == 0) := by
  refine ⟨met ?_, met ?_, met ?_, filled_ok (by omega), filled_ok (k := 0) (by omega), met ?_, met ?_, met ?_⟩ <;>
    decide +kernel

/-- The count one short of the interval, at the longest interval and at the shortest; an entry of age 3; two short of it; no
interval; the sweep made already. -/
theorem witness_AgingOfTheAddressTable :
    Met R 0x16 [255, 255, 255, 255] (fun q => q.payload.length == 4) ∧
    (let at' (a k : Nat) (swept : Bool) (cond : AddrTable → Bool) : Prop :=
       Meets (atPhase 125000 { R with addr := ⟨[⟨1023, 2, none, 3, .learned, 3⟩], a, k, swept⟩ }) fun t =>
         decide (t.timer.endE ≤ t.phase) && t.addr.swept == swept && cond t.addr
     at' 65535 65534 false (fun x => decide (0 < x.interval ∧ x.interval ≤ x.count + 1)) ∧
     at' 1 0 false (fun x => decide (0 < x.interval ∧ x.interval ≤ x.count + 1)) ∧
     at' 65535 65533 false (fun x => decide (x.count + 1 < x.interval)) ∧ at' 0 7 false (fun x => x.interval == 0) ∧
     at' 1 0 true (fun _ => true)) ∧
    AddrOk [⟨1023, 2, none, 3, .learned, 3⟩] := by
  refine ⟨met ?_, ⟨meets ?_, meets ?_, meets ?_, meets ?_, meets ?_⟩, one_entry_ok _ ?_ ?_⟩ <;> decide +kernel

/-! ### Witnesses: reservation arithmetic -/

/-- A start that the search of a leg may take, as the statement has it, with the figures of R62 to R64. -/
def fits (i : LegInputs) (view : List Window) (from' s : Nat) : Prop :=
  from' ≤ s ∧ s + (i.k * (i.lmax + 20) * i.ge + i.mu) ≤ min (i.rho + i.bound) (i.m / i.repeats - 64) ∧
    freeAt view (i.m / i.repeats) i.repeats (i.k * (i.lmax + 20) * i.ge + i.mu) s

/-- The leg of section 4.8 with one window, W = 312 and e = 6,812, whose latest end is `d`. -/
def inputs1 (d : Nat) (twinned : Bool) : LegInputs := { inputs21 with repeats := 1, bound := d - 4000, twinned := twinned }

/-- 256 windows already; one grain more than the ceiling leaves; d = e + W − 1; one window in the way of every start; d = e +
W, untwinned and, without and with room behind it, twinned. -/
theorem witness_LegStepFindsTheLeastStart :
    (256 < (List.replicate 256 (⟨0, 1, 7, 0, .primary⟩ : Window)).length + 1) ∧
    (let view : List Window := [⟨0, 93439, 7, 0, .primary⟩]
     view.length + 1 ≤ 256 ∧
       (inputs1 24000 false).m * (inputs1 24000 false).kappa / 100 < (view.map fun x => x.stop - x.start).sum + 1 * 312) ∧
    (min ((inputs1 7123 false).rho + (inputs1 7123 false).bound) (125000 - 64) < 6812 + 312) ∧
    (let view : List Window := [⟨7123, 24000, 7, 0, .primary⟩]
     min ((inputs1 24000 false).rho + (inputs1 24000 false).bound) (125000 - 64) = 24000 ∧
       ∀ s, ¬fits (inputs1 24000 false) view 6812 s) ∧
    (fits (inputs1 7124 false) [] 6812 6812 ∧ ∀ s, fits (inputs1 7124 false) [] 6812 s → 6812 ≤ s) ∧
    (fits (inputs1 7124 true) [] 6812 6812 ∧ (∀ s, fits (inputs1 7124 true) [] 6812 s → 6812 ≤ s) ∧
      ∀ s, ¬fits (inputs1 7124 true) [] (6812 + 312 + 512) s) ∧
    (fits (inputs1 7948 true) [] 6812 6812 ∧ fits (inputs1 7948 true) [] (6812 + 312 + 512) 7636 ∧
      ∀ s, fits (inputs1 7948 true) [] (6812 + 312 + 512) s → 7636 ≤ s) := by
  refine ⟨by decide +kernel, by decide, by decide, ⟨by decide, ?_⟩, ⟨?_, ?_⟩, ⟨?_, ?_, ?_⟩, ?_, ?_, ?_⟩
  · rintro s ⟨h1, h2, h3⟩
    have := h3 0 (by decide) ⟨7123, 24000, 7, 0, .primary⟩ (by simp)
    simp [inputs1, inputs21] at h1 h2 this
    omega
  all_goals first
    | exact ⟨by decide, by decide, by simp [freeAt]⟩
    | exact fun s h => h.1
    | (rintro s ⟨h1, h2, _⟩; simp [inputs1, inputs21] at h1 h2; omega)

/-! ### Witnesses: motion streams and the engine -/

/-- The PLACE of stream 21 with one byte changed. -/
def placeWith (i : Nat) (b : Byte) : List Byte := place21.set i b

/-- A state whose host queue is full. -/
def full (s : State) : State := s.modEngine fun g => { g with waiting := List.replicate 8 ⟨0, .release 0⟩ }

theorem witness_PlaceRefusesInOrder :
    (let met (s : State) (payload : List Byte) (cond : Request → Bool) : Prop :=
       Met s 0x0D payload fun q => q.payload.length == 26 && cond q
     let free (payload : List Byte) (cond : Request → Bool) : Prop :=
       met R payload fun q => q.b 0 == 21 && every R (fun _ _ => false) && cond q
     met R (placeWith 0 128) (fun q => q.b 0 == 128) ∧
     met (cell .live) place21 (fun q => q.b 0 == 21 && (cell .live).streams[(21 : StreamNo)].isSome) ∧
     met (cell .live) (placeWith 0 127) (fun q => q.b 0 == 127 && (cell .live).streams[(127 : StreamNo)].isNone &&
       (cell .live).streams[(21 : StreamNo)].any fun x => x.desc.key == ⟨6, BitVec.ofNat 48 (q.field 2 6), some (q.field 8 2)⟩) ∧
     free (placeWith 1 8) (fun q => q.b 1 == 8) ∧ free (placeWith 10 0) (fun q => q.b 1 == 6 && q.b 10 == 0) ∧
     free (placeWith 10 64) (fun q => q.b 1 == 6 && (BitVec.ofNat 8 (q.b 10)).getLsbD 6) ∧
     free (placeWith 8 16) (fun q => !(BitVec.ofNat 8 (q.b 10)).getLsbD 6 && decide (4095 < q.field 8 2)) ∧
     free (placeWith 11 3) (fun q => q.field 8 2 == 20 && q.b 11 == 3) ∧
     free ((placeWith 14 0xF4).set 15 0x24) (fun q => q.b 11 == 2 && decide (R.timer.n * 1000 / 2 = q.field 12 4)) ∧
     free (placeWith 22 0) (fun q => decide (q.field 12 4 < 62500) && q.b 22 == 0) ∧
     free (placeWith 22 5) (fun q => decide (q.field 12 4 < 62500) && q.b 22 == 5) ∧
     free (placeWith 23 2) (fun q => decide (1 ≤ q.b 22 ∧ q.b 22 ≤ 4) && q.b 23 == 2) ∧
     free (placeWith 24 3) (fun q => q.b 23 == 1 && q.b 24 == 3) ∧
     met (lockSet R) (placeWith 24 2) (fun q => q.b 24 == 2 && (lockSet R).engine.locked) ∧
     met (full R) place21 (fun q => q.b 24 == 0 && !(full R).engine.locked && decide (8 ≤ (full R).engine.used))) := by
  and_intros <;> (apply met; decide +kernel)

/-- Behind the search of stream 21, with seven entries in use, a PLACE of stream 127 with the largest ρ, k = 4 and ALWAYS; on a
free engine, the PLACE of section 4.8. -/
def seven (s : State) : State := s.modEngine fun g => { g with waiting := List.replicate 6 ⟨0, .release 0⟩ }

theorem witness_PlaceQueuesTheStream :
    (let met (s : State) (payload : List Byte) (cond : Request → Bool) : Prop :=
       Met s 0x0D payload fun q => q.payload.length == 26 && decide (q.b 1 = 6 ∧ q.field 8 2 ≤ 4095 ∧
         q.b 11 ∈ [1, 2, 4, 8] ∧ q.field 12 4 < s.timer.n * 1000 / q.b 11 ∧ 1 ≤ q.b 22 ∧ q.b 22 ≤ 4) &&
         BitVec.ofNat 8 (q.b 10) != 0 && !(BitVec.ofNat 8 (q.b 10)).getLsbD 6 && !s.engine.locked &&
         decide (s.engine.used < 8) && cond q
     met (seven searching) (((((placeWith 0 127).set 7 5).set 14 0xF4).set 15 0x23).set 22 4 |>.set 24 2) (fun q =>
       q.b 0 == 127 && q.field 12 4 == 62499 && q.b 22 == 4 && q.b 23 == 1 && q.b 24 == 2 && (seven searching).engine.used == 7 &&
       (seven searching).engine.current != none && (seven searching).streams[(127 : StreamNo)].isNone &&
       every (seven searching) fun _ x => x.desc.key != ⟨6, BitVec.ofNat 48 (q.field 2 6), some (q.field 8 2)⟩) ∧
     met R place21 (fun q => q.b 0 == 21 && q.b 23 == 1 && q.b 24 == 0 && R.engine.current == none &&
       nothingWaits R && every R fun _ _ => false)) := by
  and_intros <;> (apply met; decide +kernel)

/-- Host queue entries for the PLACE of stream 21 among others. -/
def entries21 : List Entry := [⟨1, .release 5⟩, ⟨2, .place 21⟩, ⟨3, .place 4⟩]

/-- Stream 30 of another key, ACTIVE beside stream 21. -/
def with30 (s : State) : State :=
  s.setStream 30 (some { stream21 .live with desc := { desc21 with key := ⟨6, 0x020000000105, some 20⟩ } })

/-- A repair that holds a result and a set-aside leg of stream 21 and is in the middle of it. -/
def repairHolding21 : RepairRun :=
  ⟨.ingress, 6, 125000, .replicate 8 .s1000, 22, some (21, [2]), [(21, 2)], [(21, 2, .placed ⟨4256, none, 312⟩)], true⟩

/-- Each state, locked or not, its entry among others; what waits behind a search: nothing, an egress and an ingress repair that
find stream 30, a PLACE with another entry behind it, a RELEASE alone and one with another behind it, a repair that finds none; a PLACED stream while a repair holds it. -/
theorem witness_ReleaseActsByTheStreamState :
    (let met (s : State) (cond : Stream → Bool) : Prop :=
       Met s 0x0E [21] fun q => q.payload.length == 1 && q.b 0 == 21 && s.streams[(21 : StreamNo)].any cond
     let c : State := cell .live
     Met R 0x0E [128] (fun q => q.b 0 == 128) ∧ Met R 0x0E [127] (fun q => q.b 0 == 127 && R.streams[(127 : StreamNo)].isNone) ∧
     met (staged .releasing c) (fun x => x.stage == .releasing) ∧
     met (lockSet c) (fun x => x.stage == .active && (lockSet c).engine.locked) ∧
     (let s : State := (staged .queued c).modEngine fun g => { g with waiting := entries21 }
      met s fun x => x.stage == .queued && !s.engine.locked && s.engine.waiting == [⟨1, .release 5⟩] ++ ⟨2, .place 21⟩ :: [⟨3, .place 4⟩]) ∧
     met searching (fun x => x.stage == .searching && nothingWaits searching && searching.engine.current != none) ∧
     (let s : State := (staged .placed c).modEngine fun g => { g with deferred := entries21 }
      met s fun x => x.stage == .placed && s.engine.deferred == [⟨1, .release 5⟩] ++ ⟨2, .place 21⟩ :: [⟨3, .place 4⟩]) ∧
     (let behind (f : Engine → Engine) (cond : State → Bool) : Prop :=
        met ((with30 searching).modEngine f) fun x => x.stage == .searching && cond ((with30 searching).modEngine f)
      let left : State := { (with30 searching) with streams := Table.upd (with30 searching).streams 21 fun _ => none }
      let finds (k : RepairKind) (p : Port) : Bool := (left.repairNext ⟨k, p, 125000, .replicate 8 .s1000, 0, none, [], [], false⟩).isSome
      behind (fun g => { g with egressRepairs := Table.upd g.egressRepairs 2 fun _ => true }) (fun _ => finds .egress 2) ∧
      behind (fun g => { g with ingressRepairs := Table.upd g.ingressRepairs 6 fun _ => true }) (fun t =>
        !t.engine.egressRepairs[(6 : Port)] && finds .ingress 6) ∧
      behind (fun g => { g with waiting := [⟨8, .place 30⟩, ⟨9, .release 5⟩] }) (fun t =>
        t.engine.waiting == ⟨8, .place 30⟩ :: [⟨9, .release 5⟩] && t.streams[(30 : StreamNo)].isSome) ∧
      behind (fun g => { g with waiting := [⟨8, .release 30⟩] }) (fun t =>
        t.engine.waiting == [⟨8, .release 30⟩] && t.streams[(30 : StreamNo)].isSome) ∧
      behind (fun g => { g with waiting := [⟨8, .release 30⟩, ⟨9, .release 5⟩] }) (fun t =>
        t.engine.waiting == ⟨8, .release 30⟩ :: [⟨9, .release 5⟩]) ∧
      behind (fun g => { g with ingressRepairs := Table.upd g.ingressRepairs 7 fun _ => true }) (fun t =>
        t.engine.waiting == [] && !finds .ingress 7)) ∧
     (let s : State := (staged .placed c).modEngine fun g => { g with
        deferred := [⟨2, .place 21⟩], current := some (.repair repairHolding21) }
      met s fun x => x.stage == .placed && s.engine.deferred == [] ++ ⟨2, .place 21⟩ :: [] &&
        s.engine.current == some (.repair repairHolding21)) ∧
     met (c.modStream 21 fun x => { x with releaseQueued := true }) (fun x => x.stage == .active && x.releaseQueued) ∧
     met (full c) (fun x => x.stage == .active && !x.releaseQueued && (full c).engine.used == 8) ∧
     (let s : State := c.modEngine fun g => { g with current := searching.engine.current, waiting := List.replicate 6 ⟨0, .release 0⟩ }
      met s fun x => x.stage == .active && !x.releaseQueued && s.engine.used == 7 && s.engine.current != none) ∧
     met c (fun x => x.stage == .active && !x.releaseQueued && c.engine.current == none && nothingWaits c)) := by
  and_intros <;> (apply met; decide +kernel)

theorem witness_OnlyResetNClearsTheLock :
    (∃ t, step { lockSet R with pending := [.lock] } = .next t) ∧ (∃ t, step { lockSet R with pending := [.resetN false] } = .next t) ∧
      (lockSet R).engine.locked = true := ⟨⟨_, rfl⟩, ⟨_, rfl⟩, rfl⟩

/-- A leg step that places its leg, and one whose egress has the ceiling 0. -/
def uncapped (s : State) : State := s.modPort 2 fun u => { u with kappa := 0 }

theorem witness_LegStepOfAPlaceOp :
    (let steps (s : State) : Prop := ∃ r, s.engine.current = some (.place r) ∧ Meets s fun t => r.verdict == none &&
       r.todo == [2] && t.streams[r.stream].isSome
     steps searching ∧ steps (uncapped searching)) ∧
    legSearch { inputs21 with gi := 1 } searching.engine.timelines[(2 : Port)] = .placed ⟨4256, none, 312⟩ ∧
    legSearch { inputs21 with gi := 1, kappa := 0 } (uncapped searching).engine.timelines[(2 : Port)] = .refused .ceiling := by
  refine ⟨⟨⟨_, rfl, meets ?_⟩, ⟨_, rfl, meets ?_⟩⟩, ?_, ?_⟩ <;> decide +kernel

/-- The commit guard of a state, as a test. -/
def guardedNow (s : State) : Bool := s.timer.guarded || decide (s.timer.endE ≤ s.phase + 16384)

theorem of_guardedNow {s : State} : guardedNow s = true ↔ Guarded s := by simp [guardedNow, Guarded]

/-- A refused op; a placed one on the last grain before the commit guard, on the first one in it, and on that last grain after
the guard was reached and E moved (R86). -/
theorem witness_PlaceOpEndSettlesTheOp :
    (let ends (s : State) (cond : PlaceRun → Bool) : Prop := ∃ r, s.engine.current = some (.place r) ∧ Meets s fun t =>
       t.streams[r.stream].isSome && nothingWaits t && cond r
     let done : State := after .legStep searching
     let reached : State := done.modTimer fun x => { x with guarded := true }
     ends (after .legStep (uncapped searching)) (fun r => r.verdict.isSome) ∧
     ends (atPhase 108616 done) (fun r => r.verdict == none && r.todo == [] && guardedNow (atPhase 108616 done)) ∧
     ends (atPhase 108615 reached) (fun r => r.verdict == none && r.todo == [] && guardedNow (atPhase 108615 reached)) ∧
     ends (atPhase 108615 done) (fun r => r.verdict == none && r.todo == [] && decide ((r.held.map (·.1)).Nodup) &&
       !guardedNow (atPhase 108615 done))) := by
  refine ⟨⟨_, rfl, meets ?_⟩, ⟨_, rfl, meets ?_⟩, ⟨_, rfl, meets ?_⟩, ⟨_, rfl, meets ?_⟩⟩ <;> decide +kernel

/-- A repair of this kind and port before its first stream, stream 21 being ACTIVE. -/
def repairing (kind : RepairKind) (p : Port) : State :=
  (cell .live).modEngine fun g =>
    { g with current := some (.repair ⟨kind, p, 125000, .replicate 8 .s1000, 0, none, [], [], false⟩) }

theorem witness_RepairEndWritesItsResults :
    (let ends (s : State) (cond : RepairRun → Bool) : Prop := ∃ r, s.engine.current = some (.repair r) ∧ Meets s fun t =>
       (t.repairNext r).isNone && cond r
     let done : State := after .legStep (repairing .egress 2)
     let refused : State := after .legStep (uncapped (repairing .egress 2))
     ends (atPhase 108616 done) (fun r => r.examined && guardedNow (atPhase 108616 done)) ∧
     ends (atPhase 108615 done) (fun r => r.examined && nothingWaits done && !guardedNow (atPhase 108615 done) &&
       decide ((r.results.map fun x => (x.1, x.2.1)).Nodup) && r.results == [(21, 2, .placed ⟨4256, none, 312⟩)]) ∧
     ends (atPhase 108615 refused) (fun r => nothingWaits refused && !guardedNow (atPhase 108615 refused) &&
       r.results == [(21, 2, .refused .ceiling)])) := by
  refine ⟨⟨_, rfl, meets ?_⟩, ⟨_, rfl, meets ?_⟩, ⟨_, rfl, meets ?_⟩⟩ <;> decide +kernel

/-- A commit due with stream 21 in this state of its record. -/
def committing (f : Stream → Stream) (s : State) : State :=
  atPhase 125000 ((s.modStream 21 f).modEngine fun g => { g with commitDue := true })

/-- The legs of a stream with a pending placement. -/
def pend (x : PendingPlacement) (t : Stream) : Stream := { t with legs := t.legs.map fun l => { l with pendingPl := some x } }

/-- The current operation is a PLACE op with a leg to search; one that has placed every leg, its stream SEARCHING; a repair with a leg to
search; one that has searched every leg. -/
def searchRuns (t : State) : Bool := t.engine.current.any fun | .place r => r.todo != [] | .repair _ => false

def searchIsHeld (t : State) : Bool := t.engine.current.any fun
  | .place r => r.verdict == none && r.todo == [] && r.held != [] && decide ((r.held.map (·.1)).Nodup) &&
      t.streams[r.stream].any fun x => x.stage == .searching
  | .repair _ => false

def repairRuns (t : State) : Bool := t.engine.current.any fun | .place _ => false | .repair r => (t.repairNext r).isSome

def repairIsHeld (t : State) : Bool := t.engine.current.any fun
  | .place _ => false
  | .repair r => (t.repairNext r).isNone && r.results != [] && decide ((r.results.map fun x => (x.1, x.2.1)).Nodup) &&
      r.results.all fun x => t.streams[x.1].any fun y => y.stage == .placed || y.stage == .active

/-- A commit due with stream 21 PLACED, RELEASING, QUEUED and SEARCHING; RELEASING with a frame in its slot; placed by its op, which is DEFERRED; ACTIVE with a LIVE
leg that stays LIVE, becomes MISMATCH or DORMANT, is suspended, or has nothing pending; a RELEASE that is DEFERRED; a search and a repair that run on; and, with a commit due
and without, a search and a repair that the commit guard held; such a search with an entry behind it. -/
theorem witness_CommitSettlesStreamsAndTimelines :
    (let due (x : Stage) : Prop :=
       Meets (committing (fun t => { t with stage := x }) (cell .live)) fun t =>
         decide (t.timer.endE ≤ t.phase) && t.engine.commitDue && t.engine.current == none &&
           t.streams[(21 : StreamNo)].any fun y => y.stage == x
     due .placed ∧ due .releasing ∧ due .queued ∧ due .searching) ∧
    Meets (committing (fun t => { t with stage := .releasing }) (waiting21 .live)) (fun t => every t (fun _ x =>
      x.stage == .releasing && decide ((x.legs.map (·.egress)).Nodup) && x.legs.all fun l => l.slot != []) &&
      decide ((t.buffer.frames.map (·.id)).Nodup)) ∧
    Meets (atPhase 125000 (after .placeOpEnd (after .legStep searching))) (fun t => t.engine.commitDue &&
      t.engine.deferred == [] ++ ⟨7, .place 21⟩ :: [] &&
      t.streams[(21 : StreamNo)].any fun y => y.stage == .placed && y.legs.all fun l => l.pendingPl.isSome) ∧
    Meets ((committing id (cell .live)).modEngine fun g => { g with deferred := [⟨7, .release 5⟩] }) (fun t =>
      t.engine.deferred == [] ++ ⟨7, .release 5⟩ :: []) ∧
    (let active (s : State) (link : LinkState) (x : PendingPlacement) : Prop :=
       Meets (committing (pend x) s) fun t => t.streams[(21 : StreamNo)].any (fun y => y.stage == .active &&
         decide ((y.legs.map (·.egress)).Nodup) && y.legs.all fun l => l.state == some .live && l.pendingPl == some x && l.slot == [0]) &&
         t.ports[(2 : Port)].link == link && t.mgmt.sources[(9 : Fin 12)].number != 0
     let p : PendingPlacement := .place ⟨4256, none, 312⟩
     active (waiting21 .live) (.up .s1000) p ∧ active (upAt 2 .s100 (waiting21 .live)) (.up .s100) p ∧
     active ((waiting21 .live).modPort 2 fun u => { u with link := .down }) .down p ∧
     active (waiting21 .live) (.up .s1000) (.suspend .noRoom .egress 2)) ∧
    Meets (committing id (waiting21 .live)) (fun t => t.streams[(21 : StreamNo)].any fun y => y.legs.all fun l => l.pendingPl.isNone) ∧
    (Meets (committing id searching) (fun t => t.engine.commitDue && searchRuns t) ∧
     Meets (committing id (repairing .egress 2)) (fun t => t.engine.commitDue && repairRuns t)) ∧
    (let held (due : Bool) (s : State) (cond : State → Bool) : Prop :=
       Meets (atPhase 125000 (s.modEngine fun g => { g with commitDue := due })) fun t =>
         decide (t.timer.endE ≤ t.phase) && nothingWaits t && cond t
     held true (after .legStep searching) searchIsHeld ∧ held false (after .legStep searching) searchIsHeld ∧
     held true (after .legStep (repairing .egress 2)) repairIsHeld ∧ held false (after .legStep (repairing .egress 2)) repairIsHeld ∧
     held true (after .legStep (uncapped (repairing .ingress 6))) repairIsHeld) ∧
    (let behind : State := (after .legStep searching).modEngine fun g => { g with waiting := [⟨8, .place 5⟩] }
     Meets (committing id behind) fun t => searchIsHeld t && t.engine.waiting.all fun y => y.op != .place 21 && y.op != .release 21) := by
  and_intros <;> (apply meets; decide +kernel)

/-- An egress and an ingress repair at the one stream there is, with room for its leg, and with the ceiling 0; an ingress repair
in the middle of that stream. -/
theorem witness_LegStepOfARepair :
    (let steps (s : State) (kind : RepairKind) (p : Port) (cond : RepairRun → State → Bool) : Prop :=
       ∃ r, s.engine.current = some (.repair r) ∧ Meets s fun t => r.kind == kind && r.port == p &&
         t.streams[(21 : StreamNo)] == some (stream21 .live) && cond r t
     let first (r : RepairRun) (t : State) : Bool := r.within == none && r.nextStream == 0 && every t fun i _ => decide (21 ≤ i.val)
     let within (s : State) : State := s.modEngine fun g => { g with
       current := some (.repair ⟨.ingress, 6, 125000, .replicate 8 .s1000, 22, some (21, [2]), [(21, 2)], [], true⟩) }
     steps (repairing .egress 2) .egress 2 first ∧ steps (uncapped (repairing .egress 2)) .egress 2 first ∧
     steps (repairing .ingress 6) .ingress 6 first ∧ steps (uncapped (repairing .ingress 6)) .ingress 6 first ∧
     steps (within (cell .live)) .ingress 6 (fun r _ => r.within == some (21, [2])) ∧
     steps (within (uncapped (cell .live))) .ingress 6 (fun r _ => r.within == some (21, [2]))) ∧
    legSearch { inputs21 with gi := 1 } [] = .placed ⟨4256, none, 312⟩ ∧ legSearch { inputs21 with gi := 1, kappa := 0 } [] = .refused .ceiling := by
  refine ⟨⟨⟨_, rfl, meets ?_⟩, ⟨_, rfl, meets ?_⟩, ⟨_, rfl, meets ?_⟩, ⟨_, rfl, meets ?_⟩, ⟨_, rfl, meets ?_⟩, ⟨_, rfl, meets ?_⟩⟩,
    ?_, ?_⟩ <;> decide +kernel

/-! ### Witnesses: windows, transmission and the motion path -/

/-- Frames 0 and 1 of stream 21 waiting, frame 0 with this ingress start and both of these lengths, and its bound. -/
def two21 (start : Stamp) (len0 len1 bound : Nat) : State :=
  ((cell .live).modStream 21 fun t => { t with
      desc := { t.desc with bound := bound }, legs := t.legs.map fun l => { l with slot := [0, 1] } }).modBuffer fun b =>
    { b with frames := [{ frame21 0 with ingressStart := start, len := len0 }, { frame21 1 with ingressStart := 7000, len := len1 }]
             motionFree := 510, motionLow := 510, nextId := 2 }

/-- The hypotheses of a window of stream 21 that opens idle, as a test. -/
def opensIdle (s : State) : Bool :=
  s.egress[(2 : Port)].openWindow == none && head2 s == some ⟨7300, 7612, 21, 0, .primary⟩ && decide (7300 ≤ s.phase ∧ s.phase < 7612) &&
    s.streams[(21 : StreamNo)].any (fun x => decide (1 ≤ x.desc.k)) && (s.leg 21 2).any (fun l => l.state == some .live) &&
    s.ports[(2 : Port)].link == .up .s1000 && !s.ports[(2 : Port)].hold && s.egress[(2 : Port)].wire == none

/-- At the window's start, at its stop with the leg not LIVE, with HOLD, and one grain early; a frame that just fits, of the
twinned and of the plain stream, its probe armed; a head stale by one grain, alone and before a frame that starts; one late by
one grain, likewise. -/
theorem witness_WindowOpensAndItsFrameStarts :
    (let opens (s : State) (cond : State → Bool) : Prop := Meets s fun t => t.egress[(2 : Port)].openWindow == none &&
       head2 t == some ⟨7300, 7612, 21, 0, .primary⟩ && cond t
     opens (atPhase 7612 (cell .dormant)) (fun t => decide (7300 ≤ t.phase) && (t.leg 21 2).any fun l => l.state != some .live) ∧
     opens (atPhase 7300 ((waiting21 .live).modPort 2 fun u => { u with hold := true })) (fun t => decide (7300 ≤ t.phase) &&
       t.ports[(2 : Port)].hold && (t.leg 21 2).any fun l => l.state == some .live) ∧
     opens (atPhase 7300 (cell .live)) (fun t => decide (7300 ≤ t.phase) && (t.slotOf 21 2).isEmpty &&
       (t.leg 21 2).any fun l => l.state == some .live) ∧
     opens (atPhase 7299 (cell .live)) (fun t => decide (t.phase < 7300)) ∧
     (let starts (s : State) (cond : Stream → Bool) : Prop := opens (atPhase 7464 s) fun t => opensIdle t &&
        t.streams[(21 : StreamNo)].any (fun x => cond x && decide (t.since 0 ≤ x.desc.bound)) && (t.slotOf 21 2) == [0] &&
        t.frame 0 == some (frame21 0) && decide (120 ≤ t.since 0 ∧ (128 + 20) * 1 = 7612 - t.phase) &&
        t.probes[(3 : Fin 4)] == .armed ⟨21, 2, 0, 1⟩
      let s : State := (waiting21 .live).setProbe 3 (.armed ⟨21, 2, 0, 1⟩)
      starts s (fun x => x.desc.twin == .off) ∧
      starts (s.modStream 21 fun x => { x with desc := { x.desc with twin := .armed } }) fun x => x.desc.twin == .armed) ∧
     (let fails (s : State) (slot : List FrameId) (cond : State → Stream → FrameRecord → Bool) : Prop := opens s fun t => opensIdle t &&
        t.slotOf 21 2 == slot && (t.frame 0).any fun a => decide (120 ≤ t.since a.received) && t.streams[(21 : StreamNo)].any fun x => cond t x a
      let stale (t : State) (x : Stream) (a : FrameRecord) : Bool := decide (x.desc.bound + 1 = t.since a.ingressStart)
      let late (t : State) (x : Stream) (a : FrameRecord) : Bool :=
        decide (t.since a.ingressStart ≤ x.desc.bound ∧ 7612 - t.phase + 1 = (a.len + 20) * 1)
      fails (atPhase 7300 ((waiting21 .live).modStream 21 fun x => { x with desc := { x.desc with bound := 7299 } })) [0] stale ∧
      fails (atPhase 7300 (two21 0 128 128 7299)) [0, 1] (fun t x a => stale t x a && (t.frame 1).any fun r =>
        decide (t.since r.ingressStart ≤ x.desc.bound ∧ 148 ≤ 7612 - t.phase ∧ r.len = 128)) ∧
      fails (atPhase 7465 (waiting21 .live)) [0] late ∧
      fails (atPhase 7465 (two21 0 128 127 20000)) [0, 1] (fun t x a => late t x a && (t.frame 1).any fun r =>
        decide (t.since r.ingressStart ≤ x.desc.bound ∧ 147 = 7612 - t.phase ∧ r.len = 127)))) ∧
    Meets (atPhase 7300 ((cell .live).modEgress 2 fun y => { y with timeline := [⟨7300, 7612, 21, 0, .twin⟩] })) (fun t =>
      t.egress[(2 : Port)].openWindow == none && head2 t == some ⟨7300, 7612, 21, 0, .twin⟩) := by
  and_intros <;> (apply meets; decide +kernel)

/-- At the window's stop: HOLD with a waiting frame; nothing sent, at the first miss, which is the limit, and at the 255th; a
frame sent; a leg that is not LIVE. -/
theorem witness_WindowCloseHeldEmptyOrNothing :
    (let closes (s : State) (cond : Leg → Bool) : Prop := Meets (atPhase 7612 s) fun t =>
       t.egress[(2 : Port)].openWindow.any (fun o => o.window.kind == .primary && decide (o.window.stop ≤ t.phase) && !o.openedFree) &&
       t.streams[(21 : StreamNo)].isSome && (t.leg 21 2).any cond
     let w : Window := ⟨7300, 7612, 21, 0, .primary⟩
     closes (opened w 0 [] ((waiting21 .live).modPort 2 fun u => { u with hold := true })) (fun l => l.state == some .live && l.slot == [0]) ∧
     closes (opened w 0 [] (cell .live)) (fun l => l.state == some .live && l.missStreak == 0 && !l.missNotified) ∧
     closes (opened w 0 [] ((cell .live).modLeg 21 2 fun l => { l with missStreak := 255 })) (fun l => l.missStreak == 255) ∧
     closes (opened w 1 [] (cell .live)) (fun l => l.state == some .live) ∧
     closes (opened w 0 [] (cell .suspended)) (fun l => l.state != some .live)) := by
  and_intros <;> (apply meets; decide +kernel)

/-- The end of a copy of frame 7, sent for 20 grains, in a twin window of stream 21 that still holds these copies. -/
def copying (k : Nat) (copies : List FrameId) : State :=
  (atPhase k (opened ⟨8124, 8436, 21, 0, .twin⟩ 0 copies (twinAt .disturbed (two21 0 128 64 20000)))).modEgress 2 fun y =>
    { y with wire := some ⟨7, BitVec.ofNat 32 (k - 20), .copy 21⟩ }

/-- Not called for; used, with HOLD; used, the first copy ending with the window; the close at the stop. At the end of a copy: a
next one that just fits; one late by a grain before one that fits; one late by a grain that is the last. -/
theorem witness_TwinWindowsSendCopies :
    (let opens (k : Nat) (s : State) (cond : State → Bool) : Prop := Meets (atPhase k s) fun t => t.egress[(2 : Port)].openWindow == none &&
       head2 t == some ⟨8124, 8436, 21, 0, .twin⟩ && decide (8124 ≤ t.phase) && t.streams[(21 : StreamNo)].isSome &&
       (t.leg 21 2).any (fun l => l.state == some .live && l.retained == [0]) && cond t
     opens 8124 (twinAt .watch (waiting21 .live)) (fun t => t.noise[(2 : Port)].state != .disturbed) ∧
     opens 8124 ((twinAt .disturbed (waiting21 .live)).modPort 2 fun u => { u with hold := true }) (fun t =>
       t.noise[(2 : Port)].state == .disturbed && t.ports[(2 : Port)].hold) ∧
     opens 8288 (twinAt .disturbed (waiting21 .live)) (fun t => t.noise[(2 : Port)].state == .disturbed &&
       !t.ports[(2 : Port)].hold && t.ports[(2 : Port)].link == .up .s1000 && t.egress[(2 : Port)].wire == none &&
       decide (t.phase + (t.frameLength 0 + 20) * 1 = 8436))) ∧
    Meets (atPhase 8436 (opened ⟨8124, 8436, 21, 0, .twin⟩ 0 [0] (twinAt .disturbed (waiting21 .live)))) (fun t =>
      t.egress[(2 : Port)].openWindow.any fun o => o.window.kind == .twin && decide (o.window.stop ≤ t.phase)) ∧
    (let ends (k : Nat) (copies : List FrameId) (cond : State → Bool) : Prop := Meets (copying k copies) fun t =>
       t.egress[(2 : Port)].openWindow.any (fun o => o.window.kind == .twin && !o.released && o.copies == copies) &&
       t.egress[(2 : Port)].wire == some ⟨7, BitVec.ofNat 32 (k - 20), .copy 21⟩ && t.ports[(2 : Port)].link == .up .s1000 &&
       !t.ports[(2 : Port)].hold && decide ((t.frameLength 7 + 20) * 1 ≤ t.since (BitVec.ofNat 32 (k - 20))) && cond t
     ends 8288 [0, 1] (fun t => decide (t.phase + (t.frameLength 0 + 20) * 1 = 8436)) ∧
     ends 8289 [0, 1] (fun t => decide (t.phase + (t.frameLength 0 + 20) * 1 = 8437 ∧ t.phase + (t.frameLength 1 + 20) * 1 ≤ 8436)) ∧
     ends 8289 [0] (fun t => decide (t.phase + (t.frameLength 0 + 20) * 1 = 8437))) := by
  and_intros <;> (apply meets; decide +kernel)

/-- One grain before the end, and at it, with HOLD on, for a frame that returns its reference and one that is kept; with HOLD
off, for a frame that waits there no more. -/
theorem witness_TransmissionEndFreesTheWire :
    (let s (g : Nat) (k : WireKind) : State :=
       atPhase g (sending k ((waiting21 .live).modPort 2 fun u => { u with hold := true }))
     let sent (k : WireKind) : State := atPhase 148 (sending k ((waiting21 .live).modLeg 21 2 fun l => { l with slot := [] }))
     Meets (s 147 (.motion 21 false)) (fun t => t.egress[(2 : Port)].wire == some ⟨0, 0, .motion 21 false⟩ &&
       decide (t.since 0 < (t.frameLength 0 + 20) * 1) && t.ports[(2 : Port)].link == .up .s1000) ∧
     Meets (s 148 (.motion 21 false)) (fun t => decide ((t.frameLength 0 + 20) * 1 ≤ t.since 0) && t.ports[(2 : Port)].hold &&
       (t.frame 0).any fun r => r.refs == 1) ∧
     Meets (s 148 (.copy 21)) (fun t => decide ((t.frameLength 0 + 20) * 1 ≤ t.since 0) && t.ports[(2 : Port)].hold) ∧
     (let off (k : WireKind) : Prop := Meets (sent k) fun t => !t.ports[(2 : Port)].hold && !(t.waitingFrames 2).contains 0 &&
        decide ((t.frameLength 0 + 20) * 1 = t.since 0) && (t.frame 0).isSome
      off (.motion 21 false) ∧ off (.motion 21 true))) := by
  and_intros <;> (apply meets; decide +kernel)

/-- The frame of class 3 ends as the next window starts; on an empty timeline; in a released window. -/
def readyBE (tl : List Window) (o : Option OpenWindow) : State :=
  (atPhase 120 (waitingBE (upAt 2 .s1000 R))).modEgress 2 fun y => { y with timeline := tl, openWindow := o }

theorem readyBE_starts {tl : List Window} {o : Option OpenWindow} (h : Fits (readyBE tl o) 2 64 1) (free : ∀ x ∈ o, x.released = true) :
    BestEffortStart (readyBE tl o) 2 3 frameBE [] .s1000 where
  up := rfl
  idle := rfl
  free := free
  queue := rfl
  stored := rfl
  ready := by show 120 ≤ (atPhase 120 R).since 0; decide +kernel
  fits := h
  first := fun c h => absurd (Fin.le_last c) (not_le.2 h)

/-- The frame of stream 21 ready in its open window at its ready time. -/
def ready21 : State :=
  { held21 with timer := { held21.timer with grain := 7464 }, buffer := { held21.buffer with
      frames := [{ frame21 0 with received := 7344 }] } }.modPort 2 fun u => { u with hold := false }

/-- A best-effort frame that ends as the next window starts, on an empty timeline, and in a released window; one late by a grain,
so that nothing may start; a motion frame in its open window; a busy wire, HOLD, a DOWN link; one grain after its ready time
nothing becomes ready. -/
theorem witness_BestEffortFrameStartsAtItsReadyTime :
    (let w (k : Nat) : Window := ⟨k, k + 312, 21, 0, .primary⟩
     let at' (tl : List Window) (o : Option OpenWindow) (start : Prop) : Prop :=
       Meets (readyBE tl o) (fun t => t.readyNow 2 && !t.ports[(2 : Port)].hold) ∧ start
     at' [w 204] none (BestEffortStart (readyBE [w 204] none) 2 3 frameBE [] .s1000) ∧
     at' [] none (BestEffortStart (readyBE [] none) 2 3 frameBE [] .s1000) ∧
     at' [] (some ⟨w 0, true, true, 0, []⟩) (BestEffortStart (readyBE [] (some ⟨w 0, true, true, 0, []⟩)) 2 3 frameBE [] .s1000) ∧
     at' [w 203] none (BestEffortTurn (readyBE [w 203] none) 2 .s1000 ∧ ∀ c : ClassNo, ¬HeadStarts (readyBE [w 203] none) 2 c 1)) ∧
    (Meets ready21 (fun t => t.readyNow 2 && !t.ports[(2 : Port)].hold) ∧
      MotionStart ready21 2 ⟨⟨7300, 7612, 21, 0, .primary⟩, false, false, 0, []⟩
        { stream21 .live with legs := [{ leg21 .live with slot := [0] }] } { leg21 .live with slot := [0] }
        { frame21 0 with received := 7344 } [] .s1000) ∧
    Meets (busy 2 (readyBE [] none)) (fun t => t.readyNow 2 && t.egress[(2 : Port)].wire != none) ∧
    Meets (heldBE) (fun t => t.readyNow 2 && t.ports[(2 : Port)].hold) ∧
    Meets ((readyBE [] none).modPort 2 fun u => { u with link := .down }) (fun t => t.readyNow 2 && t.ports[(2 : Port)].link == .down) ∧
    Meets (atPhase 121 (waitingBE (upAt 2 .s1000 R))) (fun t => !t.readyNow 2) := by
  refine ⟨⟨⟨meets ?_, readyBE_starts ?_ ?_⟩, ⟨meets ?_, readyBE_starts ?_ ?_⟩, ⟨meets ?_, readyBE_starts ?_ ?_⟩, meets ?_, ⟨?_, ?_, ?_⟩, ?_⟩,
    ⟨meets ?_, ?_⟩, meets ?_, meets ?_, meets ?_, meets ?_⟩
  case refine_14 =>
    rintro c ⟨r, h, -, f⟩
    fin_cases c
    · cases h
    · cases h
    · cases h
    · cases h
      have late : (readyBE [⟨203, 515, 21, 0, .primary⟩] none).phase + (64 + 20) * 1 ≤ 203 := f
      revert late; decide +kernel
  all_goals first
    | decide +kernel
    | (constructor <;> decide +kernel)
    | (intro w h; cases h)

theorem cells_ok (s : State) (h : s.buffer = R.buffer) : CellsOk s.buffer := by
  rw [h]; exact ⟨rfl, rfl, by decide, by decide, by decide, by simp [State.reset, State.resetAs, FrameBuffer.reset]⟩

/-- 129 bytes; 128 with the leg SUSPENDED; four frames alive of 2k; three, the wire of egress 2 busy, and a slot with room, and
full under SEQUENCED and under LATEST; a stream that is not ACTIVE. -/
theorem witness_StreamFrameFollowsTheLegStates :
    (let takes (s : State) (k : Nat) (cond : Stream → State → Bool) : Prop := Meets (rx6 s) fun t =>
       t.ports[(6 : Port)].receiving == some 0 && t.ports[(6 : Port)].ingressEnable && filterPasses t.ports[(6 : Port)] (streamFrame k) &&
       decide (64 ≤ (streamFrame k).bytes.length ∧ (streamFrame k).bytes.length ≤ 1522) && t.streams[(21 : StreamNo)].any (fun x =>
         x.desc.key == ⟨6, frameDest (streamFrame k), frameVlan (streamFrame k)⟩ &&
         decide ((x.legs.map (·.egress)).Nodup) && cond x t) && every t fun i _ => i == 21
     takes (cell .live) 113 (fun x _ => x.stage == .active && decide (x.desc.lmax + 1 = (streamFrame 113).bytes.length)) ∧
     takes (cell .suspended) 112 (fun x _ => x.stage == .active && decide ((streamFrame 112).bytes.length = x.desc.lmax) &&
       x.legs.all fun l => l.state != some .live) ∧
     takes ((cell .live).modStream 21 fun x => { x with alive := 4 }) 112 (fun x _ => x.legs.any (fun l => l.state == some .live) &&
       decide (2 * x.desc.k = x.alive)) ∧
     (let stores (f : Stream → Stream) (cond : Stream → Leg → Bool) : Prop :=
        takes (busy 2 ((waiting21 .live).modStream 21 fun x => f { x with alive := 3 })) 112 fun x t =>
          decide (x.alive < 2 * x.desc.k ∧ 1 ≤ t.buffer.motionFree) && x.legs.all fun l =>
            l.state == some .live && t.egress[l.egress].wire != none && l.slot == [0] && cond x l
      stores id (fun x l => decide (l.slot.length + 1 = x.desc.k)) ∧
      stores (fun x => { x with alive := 1, desc := { x.desc with k := 1 } }) (fun x l => x.desc.handling == .sequenced &&
        decide (l.slot.length = x.desc.k)) ∧
      stores (fun x => { x with alive := 1, desc := { x.desc with k := 1, handling := .latest } }) (fun x l =>
        x.desc.handling == .latest && decide (l.slot.length = x.desc.k))) ∧
     takes (staged .releasing (cell .live)) 112 (fun x _ => x.stage != .active)) ∧
    CellsOk (rx6 (cell .live)).buffer ∧ CellsOk (rx6 (busy 2 (waiting21 .live))).buffer := by
  refine ⟨?_, cells_ok _ rfl, ?_⟩
  · and_intros <;> (apply meets; decide +kernel)
  · constructor <;> decide +kernel

/-- Port 6 receives, the leg of stream 21 LIVE, egress 2 idle and a frame of class 3 ready there. -/
def beside21 : State :=
  rx6 (atPhase 120 ((cell .live).modBuffer fun b => { b with frames := [frameBE], beFree := 1535, beLow := 1535, nextId := 1 })
    |>.modEgress 2 fun y => { y with queues := Table.upd y.queues 3 fun _ => [0], beCount := 1 })

theorem beside21_starts : BestEffortStart beside21 2 3 frameBE [] .s1000 where
  up := by decide +kernel
  idle := by decide +kernel
  free := by decide +kernel
  queue := by decide +kernel
  stored := by decide +kernel
  ready := by decide +kernel
  fits := by show _ ≤ _; decide +kernel
  first := fun c h => absurd (Fin.le_last c) (not_le.2 h)

theorem idle21_settled : Settled (rx6 (cell .live)) 2 := by
  refine .inr (.inr (.inr (.inr ⟨.s1000, ⟨by decide +kernel, by decide +kernel, fun o h => by cases h⟩, ?_⟩)))
  rintro c ⟨r, h, -⟩
  fin_cases c <;> cases h

theorem ready21_starts : MotionStart (rx6 ready21) 2 ⟨⟨7300, 7612, 21, 0, .primary⟩, false, false, 0, []⟩
    { stream21 .live with legs := [{ leg21 .live with slot := [0] }] } { leg21 .live with slot := [0] }
    { frame21 0 with received := 7344 } [] .s1000 := by
  constructor <;> decide +kernel

/-- On an idle wire: the leg's egress where nothing waits, where a best-effort frame is ready, and where the older frame of the slot
is; the older frame late by one grain, and stale by one. -/
theorem witness_StreamFrameFollowsTheLegStates_idle_wire :
    (let takes (s : State) (cond : Stream → Leg → Bool) : Prop := Meets s fun t =>
       t.ports[(6 : Port)].receiving == some 0 && t.ports[(6 : Port)].ingressEnable && filterPasses t.ports[(6 : Port)] (streamFrame 112) &&
       every t (fun i _ => i == 21) && t.egress[(2 : Port)].wire == none && !t.ports[(2 : Port)].hold &&
       t.streams[(21 : StreamNo)].any fun x => x.stage == .active && decide (x.alive < 2 * x.desc.k) && (t.leg 21 2).any fun l =>
         l.state == some .live && decide (l.slot.length < x.desc.k) && cond x l
     takes (rx6 (cell .live)) (fun _ l => l.slot == []) ∧ takes beside21 (fun _ l => l.slot == []) ∧
     takes (rx6 ready21) (fun _ l => l.slot == [0])) ∧
    (let w : Window := ⟨7300, 7612, 21, 0, .primary⟩
     let late : State := rx6 (atPhase 7465 (opened w 0 [] (waiting21 .live)))
     let stale : State := rx6 (atPhase 7310 (opened w 0 [] ((waiting21 .live).modStream 21 fun x => { x with
       desc := { x.desc with bound := 7309 } })))
     late.egress[(2 : Port)].openWindow = some ⟨w, false, false, 0, []⟩ ∧ Fails late w (stream21 .live) (frame21 0) .s1000 2 8 ∧
     stale.egress[(2 : Port)].openWindow = some ⟨w, false, false, 0, []⟩ ∧
     Fails stale w { stream21 .live with desc := { desc21 with bound := 7309 } } (frame21 0) .s1000 3 9) ∧
    CellsOk beside21.buffer ∧ CellsOk (rx6 ready21).buffer := by
  refine ⟨⟨meets ?_, meets ?_, meets ?_⟩, ⟨?_, ⟨?_, ?_, .inr ?_⟩, ?_, ⟨?_, ?_, .inl ?_⟩⟩, ⟨?_, ?_, ?_, ?_, ?_, ?_⟩, ⟨?_, ?_, ?_, ?_, ?_, ?_⟩⟩ <;>
    decide +kernel

/-! ### Witnesses: noise, counters, faults and probes -/

/-- DISTURBED and WATCH, each with its streak one short of Q = 8 and two short, with the largest count that keeps it; DISTURBED in
the arc of its exposed port; CLEAN; the check made already. -/
theorem witness_CoolDownStepsOneStateDown :
    (let at' (m : Monitor) (cond : Monitor → PortUnit → Bool) : Prop := Meets (atPhase 125000 (R.modNoise 7 fun _ => m)) fun t =>
       decide (t.timer.endE ≤ t.phase) && t.noise[(7 : Port)] == m && cond t.noise[(7 : Port)] t.ports[(7 : Port)]
     at' ⟨.disturbed, 0, 7, 0, false⟩ (fun m u => decide (u.coolDown ≤ min 255 (m.quiet + 1))) ∧
     at' ⟨.disturbed, 0, 6, 0, false⟩ (fun m u => decide (min 255 (m.quiet + 1) < u.coolDown)) ∧
     at' ⟨.disturbed, 1, 7, 0, false⟩ (fun m u => decide (m.count ≠ 0 ∧ 0 < u.coolDown)) ∧
     at' ⟨.watch, 3, 0, 7, false⟩ (fun m u => decide (m.count < u.thetaW ∧ u.coolDown ≤ min 255 (m.calm + 1))) ∧
     at' ⟨.watch, 4, 0, 7, false⟩ (fun m u => decide (u.thetaW ≤ m.count ∧ 0 < u.coolDown)) ∧
     at' ⟨.clean, 3, 0, 0, false⟩ (fun m _ => m.state == .clean) ∧ at' ⟨.watch, 0, 0, 0, true⟩ (fun m _ => m.checked)) ∧
    Meets (atPhase 125000 ((arcAt .disturbed R).modPort 2 fun u => { u with arcExposed := true })) (fun t =>
      t.arc.filter.accepted && t.ports[(2 : Port)].arcExposed && t.noise[(2 : Port)].state == .disturbed) := by
  and_intros <;> (apply meets; decide +kernel)

/-- Each check at the first value past its range; each group at its last selector, at its size, with the clear mark 2, and at its
last start index without and with the clear mark; the device group so that both lowest figures are shown. -/
theorem witness_CountersReadAndClear :
    (let reads (payload : List Byte) (cond : Request → Bool) : Prop := Met R 0x18 payload fun q => q.payload.length == 5 && cond q
     reads [4, 0, 0, 0, 0] (fun q => q.b 0 == 4) ∧ reads [0, 0, 8, 0, 0] (fun q => q.b 2 == 8) ∧
     reads [1, 128, 0, 0, 0] (fun q => q.b 1 == 128) ∧ reads [2, 127, 8, 0, 0] (fun q => q.b 1 == 127 && q.b 2 == 8) ∧
     (let group (g n p : Byte) (size : Nat) : Prop :=
        let last : Byte := BitVec.ofNat 8 (size - 1)
        let selects (q : Request) : Bool := q.b 0 == g.toNat && q.b 1 == n.toNat && q.b 2 == p.toNat
        reads [g, n, p, last + 1, 0] (fun q => selects q && q.b 3 == size) ∧
        reads [g, n, p, last, 2] (fun q => selects q && q.b 3 + 1 == size && q.b 4 == 2) ∧
        reads [g, n, p, last, 0] (fun q => selects q && q.b 3 + 1 == size && q.b 4 == 0) ∧
        reads [g, n, p, last, 1] (fun q => selects q && q.b 3 + 1 == size && q.b 4 == 1)
      group 0 0 7 21 ∧ group 1 127 0 3 ∧ group 2 127 7 13 ∧ group 3 0 0 32) ∧
     reads [3, 0, 0, 19, 1] (fun q => q.b 0 == 3 && q.b 3 == 19 && q.b 4 == 1)) ∧
    (let clears (payload : List Byte) (cond : Request → Bool) : Prop := Met R 0x19 payload fun q => q.payload.length == 3 && cond q
     clears [4, 0, 0] (fun q => q.b 0 == 4) ∧ clears [0, 0, 7] (fun q => q.b 2 == 7) ∧ clears [1, 127, 0] (fun q => q.b 1 == 127) ∧
     clears [2, 127, 7] (fun q => q.b 1 == 127 && q.b 2 == 7) ∧ clears [3, 0, 0] (fun q => q.b 0 == 3) ∧
     clears [0, 0, 8] (fun q => q.b 2 == 8) ∧ clears [1, 128, 0] (fun q => q.b 1 == 128) ∧
     clears [2, 128, 8] (fun q => q.b 1 == 128) ∧ clears [2, 127, 8] (fun q => q.b 1 == 127 && q.b 2 == 8)) := by
  and_intros <;> (apply met; decide +kernel)

/-- A first-fault record. -/
def late4 : FaultRecord := ⟨.late, .egress, some 4, some 3, 1200, 10020, 0⟩

/-- A state whose record holds it. -/
def captured (s : State) : State := { s with fault := { s.fault with record := some late4 } }

theorem witness_FaultRequestsAndCapture :
    Met (captured R) 0x1A [] (fun q => q.payload == []) ∧ Met (captured R) 0x1B [] (fun q => q.payload == []) ∧
    Met R 0x1C [255, 255, 255, 255] (fun q => q.payload.length == 4) ∧
    (R.fault.record = none ∧ R.fault.mask.getLsbD Cause.learnFull.code.val = true ∧
      R.fault.mask.getLsbD Cause.filtered.code.val = false ∧ (captured R).fault.record ≠ none) := by
  refine ⟨met ?_, met ?_, met ?_, ?_⟩ <;> decide +kernel

theorem witness_LockedRecordKeepsItsContents :
    (captured R).fault.record = some late4 ∧ Instr.lock ≠ .faultUnlock ∧ Instr.lock ≠ .restart ∧
      (∀ high, Instr.lock ≠ .resetN high) ∧ ∃ t, exec .lock (captured R) = .next t :=
  ⟨rfl, by decide, by decide, (by intro _ h; cases h), _, rfl⟩

/-- A probe with one cycle left, and one with two, as the cycle ends; one on a stream that the commit frees; one that is not
ARMED. -/
theorem witness_ProbeRequestsAndExpiry :
    (let arms (s : State) (payload : List Byte) (cond : Request → Bool) : Prop := Met s 0x1E payload fun q => q.payload.length == 7 && cond q
     arms R [4, 21, 2, 0, 0, 0, 0] (fun q => q.b 0 == 4) ∧ arms R [3, 128, 2, 0, 0, 0, 0] (fun q => q.b 0 == 3 && q.b 1 == 128) ∧
     arms R [3, 127, 8, 0, 0, 0, 0] (fun q => q.b 1 == 127 && q.b 2 == 8) ∧
     arms R [3, 127, 7, 0, 0, 0, 0] (fun q => q.b 0 == 3 && q.b 1 == 127 && q.b 2 == 7 && R.streams[(127 : StreamNo)].isNone) ∧
     arms (cell .live) [3, 21, 2, 255, 255, 255, 255] (fun q => q.b 1 == 21 && q.b 2 == 2 && (cell .live).streams[(21 : StreamNo)].any
       fun x => x.stage == .active && x.legs.any fun l => l.egress == 2)) ∧
    Met R 0x1F [4] (fun q => q.b 0 == 4) ∧ Met R 0x20 [4] (fun q => q.b 0 == 4) ∧ Met R 0x1F [3] (fun q => q.b 0 == 3) ∧
    Met R 0x20 [3] (fun q => q.b 0 == 3) ∧
    (let ends (k : Nat) (s : State) (cond : State → Bool) : Prop := Meets (atPhase 125000 (s.setProbe 3 (.armed ⟨21, 2, 0, k⟩))) fun t =>
       decide (t.timer.endE ≤ t.phase) && t.probes[(3 : Fin 4)] == .armed ⟨21, 2, 0, k⟩ && t.probes[(0 : Fin 4)] == .idle && cond t
     ends 1 R (fun t => !t.engine.commitDue) ∧ ends 2 R (fun t => !t.engine.commitDue) ∧
     ends 1 (committing (fun t => { t with stage := .releasing }) (cell .live)) (fun t => t.engine.commitDue &&
       t.streams[(21 : StreamNo)].any fun x => x.stage == .releasing)) := by
  refine ⟨⟨met ?_, met ?_, met ?_, met ?_, met ?_⟩, met ?_, met ?_, met ?_, met ?_, meets ?_, meets ?_, meets ?_⟩ <;> decide +kernel

/-! ### Witnesses: queries and what every step keeps -/

theorem witness_SyncAndPortStatus :
    Met locked1000 0x05 [] (fun q => q.payload == []) ∧ Met (cell .live) 0x08 [8] (fun q => q.b 0 == 8) ∧
    Met (cell .live) 0x08 [7] (fun q => q.b 0 == 7) := by
  and_intros <;> (apply met; decide +kernel)

theorem witness_StreamLegTimelineAndAddressQueries :
    (Met R 0x0B [128] (fun q => q.b 0 == 128) ∧ Met R 0x0B [127] (fun q => q.b 0 == 127 && R.streams[(127 : StreamNo)].isNone) ∧
     Met (cell .live) 0x0B [21] (fun q => q.b 0 == 21 && (cell .live).streams[(21 : StreamNo)].isSome)) ∧
    (Met R 0x0C [128, 7] (fun q => q.b 0 == 128) ∧ Met R 0x0C [127, 8] (fun q => q.b 0 == 127 && q.b 1 == 8) ∧
     Met R 0x0C [127, 7] (fun q => q.b 0 == 127 && q.b 1 == 7 && (R.leg 127 7).isNone) ∧
     Met (cell .live) 0x0C [21, 2] (fun q => q.b 0 == 21 && q.b 1 == 2 && ((cell .live).leg 21 2).isSome)) ∧
    (Met R 0x11 [8, 0, 0] (fun q => q.b 0 == 8) ∧ Met R 0x11 [7, 1, 0] (fun q => q.b 0 == 7 && q.field 1 2 == 256) ∧
     Met (cell .live) 0x11 [2, 0, 255] (fun q => q.b 0 == 2 && q.field 1 2 == 255)) ∧
    (Met R 0x14 [4, 0] (fun q => q.field 0 2 == 1024) ∧ Met (withTable (filled 1024) R) 0x14 [3, 255] (fun q => q.field 0 2 == 1023) ∧
     AddrOk R.addr.entries ∧ AddrOk (filled 1024)) := by
  refine ⟨⟨met ?_, met ?_, met ?_⟩, ⟨met ?_, met ?_, met ?_, met ?_⟩, ⟨met ?_, met ?_, met ?_⟩, met ?_, met ?_,
    filled_ok (k := 0) (by omega), filled_ok ?_⟩ <;> decide +kernel

/-- A state with a stored frame, `k` entries in its address table, and records in its queues. -/
def laden (k : Nat) : State :=
  { withTable (filled k) (holding 16 (asking 0x10 [] (waiting21 .live))) with pending := [.linkDown 2] }

theorem laden_entries (k : Nat) : (laden k).addr.entries = filled k := rfl

/-- A state with windows in both timelines of an egress, an ACTIVE stream and a stored frame; the table full, the queues full. -/
theorem witness_EveryStepKeepsTheInvariant : Inv (laden 1024) ∧ ∃ t, step (laden 1024) = .next t := by
  have one : every (laden 1024) (fun i x => i == 21 && x.stage == .active && decide (1 ≤ x.desc.k ∧ x.alive ≤ 2 * x.desc.k ∧
      (x.legs.map (·.egress)).Nodup)) = true := by decide +kernel
  have at' : ∀ (n : StreamNo) (x : Stream), (laden 1024).streams[n] = some x →
      n = 21 ∧ x.stage = .active ∧ 1 ≤ x.desc.k ∧ x.alive ≤ 2 * x.desc.k ∧ (x.legs.map (·.egress)).Nodup := by
    intro n x h
    simpa [and_assoc] using of_every one n x h
  have notIn : ∀ (n : StreamNo) (y : Stage), y ≠ .active → ¬InStage (laden 1024) n [y] := by
    rintro n y hy ⟨x, h, m⟩
    exact hy ((List.mem_singleton.1 m).symm.trans (at' n x h).2.1)
  have waiting : (laden 1024).engine.waiting = [] := rfl
  have deferred : (laden 1024).engine.deferred = [] := rfl
  have current : (laden 1024).engine.current = none := rfl
  refine ⟨⟨⟨rfl, ?_, ?_, ?_, ?_⟩, ⟨?_, ?_, ?_, ?_, ?_, ?_⟩, ?_, ⟨?_, ?_⟩, ⟨?_, ?_, ?_, ?_, ?_, ?_, ?_, ?_, ?_, ?_, ?_⟩⟩, _, rfl⟩
  case refine_11 => rw [laden_entries]; exact filled_ok (by omega)
  case refine_12 => exact fun n x h => ⟨(at' n x h).2.2.1, (at' n x h).2.2.2.1, (at' n x h).2.2.2.2⟩
  case refine_13 => exact fun n m x y h h' _ => (at' n x h).1.trans (at' m y h').1.symm
  case refine_16 => exact fun e => ⟨by revert e; decide +kernel, by revert e; decide +kernel, by revert e; decide +kernel⟩
  case refine_17 => exact fun e => ⟨by revert e; decide +kernel, by revert e; decide +kernel, by revert e; decide +kernel⟩
  case refine_19 => exact fun n => ⟨fun h => absurd h (notIn n _ (by decide)), fun h => by simp [waiting] at h⟩
  case refine_20 => exact fun n => ⟨fun h => absurd h (notIn n _ (by decide)), fun h => by simp [current] at h⟩
  case refine_21 => exact fun n => ⟨fun h => absurd h (notIn n _ (by decide)), fun h => by simp [deferred] at h⟩
  case refine_22 => intro n y h; simp [waiting] at h
  case refine_23 => intro r x h; simp [current] at h
  case refine_24 => intro r h; simp [current] at h
  all_goals decide +kernel

/-- A RELEASE on the first grain of the commit guard. -/
theorem witness_ActiveTimelinesChangeAtCycleStartsOnly :
    Instr.release ≠ .cycleStart ∧ Instr.release ≠ .restart ∧ (∀ high, Instr.release ≠ .resetN high) ∧
      Guarded (atPhase 108616 (asking 0x0E [21] (cell .live))) ∧
      ∃ t, exec .release (atPhase 108616 (asking 0x0E [21] (cell .live))) = .next t :=
  ⟨by decide, by decide, (by intro _ h; cases h), of_guardedNow.1 (by decide +kernel), _, rfl⟩

theorem witness_EventsLeaveTheHostSideAlone :
    Instr.legStep ∈ [Instr.cycleStart, .syncLost, .strobe, .cycFall, .arcOn, .arcOff, .legStep, .placeOpEnd, .repairEnd, .agingSweep] ∧
      (∃ t, exec .legStep searching = .next t) ∧ ∃ t, exec (.linkDown 2) (waiting21 .live) = .next t :=
  ⟨by simp, ⟨_, rfl⟩, _, rfl⟩

end Sys2Proof.Tests
end

section
/-! SUPPORT. The reports of one event (R152, R153): taking them changes the fault unit, its own notice source and the device
totals, each by the number of reports of its cause. -/

namespace Sys2Proof.CellTime

open Sys2Proof.Machine Sys2Proof.Safety Sys2Proof.Laws

/-! ### Notices (R176) -/

/-- A raise at one source leaves every other source. -/
theorem raise_otherSource {src j : Fin 12} (h : j ≠ src) (cycle : CycleNo) (d : NoticeData) (s : State) :
    (raise src cycle d s).mgmt.sources[j] = s.mgmt.sources[j] := by
  by_cases k : s.mgmt.sources[src].number = 0
  · rw [raise_unrouted k]; rfl
  · rw [raise_routed k]; exact upd_other _ _ _ _ h

/-- A raise at a routed source leaves the notice pending there (R176). -/
theorem raise_pending {src : Fin 12} {s : State} (h : s.mgmt.sources[src].number ≠ 0) (cycle : CycleNo) (d : NoticeData) :
    ∃ n ∈ (raise src cycle d s).mgmt.sources[src].pending, n.cycle = cycle ∧ n.data = d := by
  rw [raise_routed h]
  simpa using joinPending_mem cycle d s.mgmt.sources[src].pending

/-! ### Saturating counts -/

@[simp] theorem satAdd_zero (c : Counter) : satAdd c 0 = c := rfl

theorem satAdd_one (c : Counter) : satAdd c 1 = satInc c := rfl

/-- One count made before the others. -/
theorem satAdd_satInc (c : Counter) (k : Nat) : satAdd (satInc c) k = satAdd c (k + 1) := by
  induction k with
  | zero => rfl
  | succ k ih => exact congrArg satInc ih

/-! ### The order in which the reports are taken -/

theorem insertReport_perm (r : Report) (rs : List Report) : (insertReport r rs).Perm (r :: rs) := by
  induction rs with
  | nil => exact .refl _
  | cons x xs ih =>
    unfold insertReport
    split
    · exact (ih.cons x).trans (.swap r x xs)
    · exact .refl _

/-- Every report is taken, each once. -/
theorem orderReports_perm (rs : List Report) : (orderReports rs).Perm rs := by
  have loop : ∀ (rs out : List Report), (rs.foldl (fun out r => insertReport r out) out).Perm (rs ++ out) := by
    intro rs
    induction rs with
    | nil => exact fun out => .refl _
    | cons r rs ih =>
      exact fun out => (ih _).trans (((insertReport_perm r out).append_left rs).trans List.perm_middle)
  simpa [orderReports] using loop rs []

/-! ### What taking the reports changes -/

/-- How many of these reports the device counter of index `i` counts (R153). -/
def reportsOf (i : Fin 28) (rs : List Report) : Nat :=
  rs.countP fun r => decide ((DeviceCounter.total r.fields.cause).index = i)

@[simp] theorem reportsOf_nil (i : Fin 28) : reportsOf i [] = 0 := rfl

theorem reportsOf_append (i : Fin 28) (xs ys : List Report) : reportsOf i (xs ++ ys) = reportsOf i xs + reportsOf i ys :=
  List.countP_append

theorem reportsOf_cons (i : Fin 28) (r : Report) (rs : List Report) :
    reportsOf i (r :: rs) = reportsOf i rs + if (DeviceCounter.total r.fields.cause).index = i then 1 else 0 := by
  simp [reportsOf, List.countP_cons]

/-- Between two states only the fault unit, the device counters and the link changed, and of the link's sources only the
fault unit's. -/
structure FaultUnitOnly (s t : State) : Prop where
  rest : { t with deviceCounters := s.deviceCounters, fault := s.fault, mgmt := s.mgmt } = s
  sources : ∀ j : Fin 12, j ≠ srcFault → t.mgmt.sources[j] = s.mgmt.sources[j]

theorem FaultUnitOnly.trans {s t u : State} (h : FaultUnitOnly s t) (k : FaultUnitOnly t u) : FaultUnitOnly s u where
  rest := (congrArg (fun x : State => { x with deviceCounters := s.deviceCounters, fault := s.fault, mgmt := s.mgmt })
    k.rest).trans h.rest
  sources j hj := (k.sources j hj).trans (h.sources j hj)

theorem FaultUnitOnly.timer {s t : State} (h : FaultUnitOnly s t) : t.timer = s.timer := (congrArg State.timer h.rest :)
theorem FaultUnitOnly.noise {s t : State} (h : FaultUnitOnly s t) : t.noise = s.noise := (congrArg State.noise h.rest :)
theorem FaultUnitOnly.egress {s t : State} (h : FaultUnitOnly s t) : t.egress = s.egress := (congrArg State.egress h.rest :)

theorem takeReport_only (s : State) (r : Report) : FaultUnitOnly s (takeReport s r) := by
  unfold takeReport
  dsimp only
  split
  · exact ⟨rfl, fun j hj => raise_otherSource hj _ _ _⟩
  · exact ⟨rfl, fun _ _ => rfl⟩

/-- The device total of a report's cause rises with it (R153). -/
theorem takeReport_deviceCounters (s : State) (r : Report) : (takeReport s r).deviceCounters =
    Table.upd s.deviceCounters (DeviceCounter.total r.fields.cause).index satInc := by
  unfold takeReport
  dsimp only
  split <;> rfl

theorem foldl_takeReport_only (rs : List Report) (s : State) : FaultUnitOnly s (rs.foldl takeReport s) := by
  induction rs generalizing s with
  | nil => exact ⟨rfl, fun _ _ => rfl⟩
  | cons r rs ih => exact (takeReport_only s r).trans (ih _)

theorem foldl_takeReport_deviceCounters (rs : List Report) (s : State) (i : Fin 28) :
    (rs.foldl takeReport s).deviceCounters[i] = satAdd s.deviceCounters[i] (reportsOf i rs) := by
  induction rs generalizing s with
  | nil => rfl
  | cons r rs ih =>
    rw [List.foldl_cons, ih, takeReport_deviceCounters, upd_get, reportsOf_cons]
    by_cases h : i = (DeviceCounter.total r.fields.cause).index
    · rw [if_pos h, if_pos h.symm, satAdd_satInc, h]
    · rw [if_neg h, if_neg (Ne.symm h), Nat.add_zero]

/-- The reports of an event change the fault unit, its notice source and the device counters only. -/
theorem takeReports_only (s : State) : FaultUnitOnly s (takeReports s) := by
  have base : FaultUnitOnly s (s.modFault fun u => { u with inbox := [] }) := ⟨rfl, fun _ _ => rfl⟩
  exact base.trans (foldl_takeReport_only _ _)

/-- Each device total rises by the reports of its cause (R153). -/
theorem takeReports_deviceCounters (s : State) (i : Fin 28) :
    (takeReports s).deviceCounters[i] = satAdd s.deviceCounters[i] (reportsOf i s.fault.inbox) := by
  unfold takeReports
  rw [foldl_takeReport_deviceCounters]
  exact congrArg _ ((orderReports_perm _).countP_eq _)

/-- One report raises one device total. -/
theorem takeReports_deviceCounters_one {s : State} {r : Report} (h : s.fault.inbox = [r]) :
    (takeReports s).deviceCounters = Table.upd s.deviceCounters (DeviceCounter.total r.fields.cause).index satInc := by
  rw [takeReports_one h, takeReport_deviceCounters]
  rfl

end Sys2Proof.CellTime
end

section
/-! SUPPORT. What the operations of the cycle timer do, one equation per case of the rules: the change of sync state (R6) and the line
filters (R4), with STROBE and CYC_FALL as the samples that qualify a level. -/

namespace Sys2Proof.CellTime

open Sys2Proof.Machine Sys2Proof.Safety Sys2Proof.Laws

/-! ### The change of sync state (R6) -/

/-- The state changes, whether or not it is another one. -/
@[simp] theorem changeSync_timer (new : SyncState) (s : State) :
    (changeSync new s).timer = { s.timer with sync := new } := by
  unfold changeSync
  split
  · next h => rw [← h]
  · rfl

@[simp] theorem changeSync_fault (new : SyncState) (s : State) : (changeSync new s).fault = s.fault := by
  unfold changeSync; split <;> rfl

@[simp] theorem changeSync_deviceCounters (new : SyncState) (s : State) :
    (changeSync new s).deviceCounters = s.deviceCounters := by
  unfold changeSync; split <;> rfl

/-- No change raises no notice. -/
theorem changeSync_same {new : SyncState} {s : State} (h : s.timer.sync = new) : changeSync new s = s := by
  rw [changeSync, if_pos h]

/-- A change raises SYNC_STATE. -/
theorem changeSync_other {new : SyncState} {s : State} (h : s.timer.sync ≠ new) : changeSync new s =
    raise srcSync s.timer.cycle (.syncState new s.timer.sync s.phase) (s.modTimer fun t => { t with sync := new }) := by
  rw [changeSync, if_neg h]

/-- Where the cycle timer's source is routed, the notice of a change is pending there. -/
theorem changeSync_pending {new : SyncState} {s : State} (h : s.timer.sync ≠ new)
    (routed : s.mgmt.sources[srcSync].number ≠ 0) : ∃ n ∈ (changeSync new s).mgmt.sources[srcSync].pending,
      n.cycle = s.timer.cycle ∧ n.data = .syncState new s.timer.sync s.phase := by
  rw [changeSync_other h]
  exact raise_pending (s := s.modTimer _) routed _ _

/-! ### What the cycle timer's operations leave of the other blocks -/

/-- Between two states only the cycle timer, the device counters, the fault unit and the link changed. -/
def SyncOnly (s t : State) : Prop :=
  { t with timer := s.timer, deviceCounters := s.deviceCounters, fault := s.fault, mgmt := s.mgmt } = s

theorem SyncOnly.trans {s t u : State} (h : SyncOnly s t) (k : SyncOnly t u) : SyncOnly s u :=
  Eq.trans (congrArg (fun x : State =>
    { x with timer := s.timer, deviceCounters := s.deviceCounters, fault := s.fault, mgmt := s.mgmt }) k :) h

theorem modTimer_syncOnly (f : Timer → Timer) (s : State) : SyncOnly s (s.modTimer f) := rfl

theorem deviceReport_syncOnly (cause : Cause) (strobe : Option Stamp) (s : State) :
    SyncOnly s (deviceReport cause strobe s) := rfl

theorem changeSync_syncOnly (new : SyncState) (s : State) : SyncOnly s (changeSync new s) := by
  unfold changeSync; split <;> rfl

theorem takeReports_syncOnly (s : State) : SyncOnly s (takeReports s) :=
  (congrArg (fun x : State => { x with timer := s.timer }) (takeReports_only s).rest :)

@[simp] theorem deviceReport_timer (cause : Cause) (strobe : Option Stamp) (s : State) :
    (deviceReport cause strobe s).timer = s.timer := rfl

@[simp] theorem deviceReport_deviceCounters (cause : Cause) (strobe : Option Stamp) (s : State) :
    (deviceReport cause strobe s).deviceCounters = s.deviceCounters := rfl

/-- A device event is one report more (R16). -/
@[simp] theorem deviceReport_inbox (cause : Cause) (strobe : Option Stamp) (s : State) :
    (deviceReport cause strobe s).fault.inbox = s.fault.inbox ++ [⟨s.stamped cause .device none, none, strobe, false⟩] := rfl

/-- The first report of an event. -/
theorem deviceReport_first {s : State} (h : s.fault.inbox = []) (cause : Cause) (strobe : Option Stamp) :
    (deviceReport cause strobe s).fault.inbox = [⟨s.stamped cause .device none, none, strobe, false⟩] := by
  rw [deviceReport_inbox, h, List.nil_append]

@[simp] theorem recordStrobe_timer (r : StrobeRecord) (s : State) :
    (recordStrobe r s).timer = { s.timer with lastStrobe := some r } := rfl

@[simp] theorem recordStrobe_fault (r : StrobeRecord) (s : State) : (recordStrobe r s).fault = s.fault := rfl

@[simp] theorem recordStrobe_mgmt (r : StrobeRecord) (s : State) : (recordStrobe r s).mgmt = s.mgmt := rfl

@[simp] theorem recordStrobe_deviceCounters (r : StrobeRecord) (s : State) :
    (recordStrobe r s).deviceCounters = s.deviceCounters := rfl

/-! ### The line filters (R4) -/

/-- A filter after the sample that qualified this level (R4). -/
def settledOn (level : Bool) (f : LineFilter) : LineFilter :=
  { f with accepted := level, count := 0, pin := level, sampled := true }

/-- The third sample that differs qualifies its level. -/
theorem sample_third {f : LineFilter} {level : Bool} (differs : f.accepted = !level) (count : 2 ≤ f.count) (now : Stamp) :
    f.sample level now = settledOn level f := by
  have h : ¬level = f.accepted := by simp [differs]
  have h0 : f.count ≠ 0 := by omega
  have h1 : f.count ≠ 1 := by omega
  simp [LineFilter.sample, settledOn, h, h0, h1]

theorem qualifies_third {f : LineFilter} {level : Bool} (differs : f.accepted = !level) (count : 2 ≤ f.count) :
    f.qualifies level = true := by
  simp [LineFilter.qualifies, differs, count]

/-- A filter after a sample that qualifies nothing, taken at the instant `now` (R4). -/
def counted (level : Bool) (now : Stamp) (f : LineFilter) : LineFilter :=
  if level = f.accepted then { f with count := 0, pin := level, sampled := true }
  else if f.count = 0 then { f with count := 1, stamp := now, pin := level, sampled := true }
  else { f with count := 2, pin := level, sampled := true }

/-- A sample equal to the accepted level, and the first and second that differ, are counted. -/
theorem sample_before {f : LineFilter} {level : Bool} (h : level = f.accepted ∨ f.count ≤ 1) (now : Stamp) :
    f.sample level now = counted level now f := by
  unfold LineFilter.sample counted
  by_cases e : level = f.accepted
  · simp [e]
  · have c : f.count = 0 ∨ f.count = 1 := by have := h.resolve_left e; omega
    rcases c with c | c <;> simp [e, c]

theorem qualifies_before {f : LineFilter} {level : Bool} (h : level = f.accepted ∨ f.count ≤ 1) :
    f.qualifies level = false := by
  rcases h with h | h
  · simp [LineFilter.qualifies, h]
  · have : ¬2 ≤ f.count := by omega
    simp [LineFilter.qualifies, this]

/-- A sample is due on a multiple of the interval, once at an instant (R4). -/
theorem sampleDue_iff (s : State) (f : LineFilter) :
    s.sampleDue f = true ↔ f.sampled = false ∧ s.timer.grain.toNat % f.interval = 0 := by
  simp [State.sampleDue]

/-- The sample of CYC at this instant has qualified this level. -/
def cycSettled (level : Bool) (s : State) : State := s.modTimer fun x => { x with cyc := settledOn level x.cyc }

theorem sampleCyc_third {s : State} {level : Bool} (h : cycQualifies s level) : sampleCyc level s =
    if level then takeStrobe s.timer.cyc.stamp (cycSettled level s) else cycSettled level s := by
  obtain ⟨-, -, -, differs, count⟩ := h
  simp [sampleCyc, qualifies_third differs count, sample_third differs count, State.modTimer, cycSettled]

/-- Where a level is qualified, its own command takes the sample. -/
theorem qualifyCyc_third {s : State} {level : Bool} (h : cycQualifies s level) : qualifyCyc level s = sampleCyc level s := by
  obtain ⟨-, fresh, multiple, differs, count⟩ := h
  simp [qualifyCyc, qualifies_third differs count, (sampleDue_iff s _).2 ⟨fresh, multiple⟩]

theorem qualifyArc_third {s : State} {level : Bool} (h : arcQualifies s level) : qualifyArc level s = sampleArc level s := by
  obtain ⟨-, fresh, multiple, differs, count⟩ := h
  simp [qualifyArc, qualifies_third differs count, (sampleDue_iff s _).2 ⟨fresh, multiple⟩]

theorem sampleCyc_before {s : State} {level : Bool} (h : level = s.timer.cyc.accepted ∨ s.timer.cyc.count ≤ 1) :
    sampleCyc level s = s.modTimer fun x => { x with cyc := counted level x.grain x.cyc } := by
  simp [sampleCyc, qualifies_before h, State.modTimer, sample_before h]

theorem sampleArc_before {s : State} {level : Bool} (h : level = s.arc.filter.accepted ∨ s.arc.filter.count ≤ 1) :
    sampleArc level s = s.modArc fun a => { a with filter := counted level s.timer.grain a.filter } := by
  simp [sampleArc, qualifies_before h, State.modArc, sample_before h]

/-- An event is what its effect is in this state. -/
theorem event_congr {f g : State → State} {s : State} (h : f s = g s) : event f s = event g s := by
  simp [event, running, h]

theorem exec_filterSample_cyc {s : State} (due : s.timer.cyc.sampled = false ∧ s.timer.grain.toNat % s.timer.cyc.interval = 0)
    (level : Bool) : exec (.filterSample .cyc level) s = event (sampleCyc level) s :=
  event_congr (if_pos ((sampleDue_iff s _).2 due))

theorem exec_filterSample_arc {s : State} (due : s.arc.filter.sampled = false ∧ s.timer.grain.toNat % s.arc.filter.interval = 0)
    (level : Bool) : exec (.filterSample .arc level) s = event (sampleArc level) s :=
  event_congr (if_pos ((sampleDue_iff s _).2 due))

/-- STROBE: the strobe is taken with the timestamp of its first sample (R4, R7). -/
theorem exec_strobe {s : State} (h : cycQualifies s true) :
    exec .strobe s = .next (takeReports (takeStrobe s.timer.cyc.stamp (cycSettled true s))) := by
  have e : qualifyCyc true s = takeStrobe s.timer.cyc.stamp (cycSettled true s) := by
    rw [qualifyCyc_third h, sampleCyc_third h, if_pos rfl]
  rw [← e]
  exact event_high h.1.high _

/-- CYC_FALL: the accepted level changes (R4). -/
theorem exec_cycFall {s : State} (h : cycQualifies s false) : exec .cycFall s = .next (cycSettled false s) := by
  have e : qualifyCyc false s = cycSettled false s := by
    rw [qualifyCyc_third h, sampleCyc_third h, if_neg Bool.false_ne_true]
  rw [← e]
  exact event_silent h.1.high (by rw [e]; exact h.1.noReports)

end Sys2Proof.CellTime
end

section
/-! SUPPORT. A strobe by the cases of R7 to R12. -/

namespace Sys2Proof.CellTime

open Sys2Proof.Machine Sys2Proof.Safety Sys2Proof.Laws

/-! ### Matching (R7) -/

/-- Case B: the strobe is matched to the next start. -/
theorem matchStart_next {x : Timer} {t : Int} (h : 0 ≤ t ∧ (x.endE : Int) - (x.n * 500 : Nat) ≤ t) :
    x.matchStart t = (.next, t - x.endE) := by
  have m : x.m / 2 = x.n * 500 := by unfold Timer.m; omega
  rw [Timer.matchStart, m, if_neg (by omega), if_pos h.2]

/-- Cases A and C: the strobe is matched to the current start. -/
theorem matchStart_current {x : Timer} {t : Int} (h : ¬(0 ≤ t ∧ (x.endE : Int) - (x.n * 500 : Nat) ≤ t)) :
    x.matchStart t = (.current, t) := by
  have m : x.m / 2 = x.n * 500 := by unfold Timer.m; omega
  rw [Timer.matchStart, m]
  by_cases a : t < 0
  · rw [if_pos a]
  · rw [if_neg a, if_neg fun b => h ⟨by omega, b⟩]

/-- A strobe with this timestamp has phase `t` and is matched to `ref` at distance `eps` (R7). -/
structure Matches (s : State) (stamp : Stamp) (t : Int) (ref : StartRef) (eps : Int) : Prop where
  phase : s.timer.strobePhase stamp = t
  start : s.timer.matchStart t = (ref, eps)

/-! ### The cases of a strobe (R7 to R12) -/

section
variable {s : State} {stamp : Stamp} {t eps : Int} {ref : StartRef}

theorem takeStrobe_disabled (h : s.timer.sync = .disabled) (phase : s.timer.strobePhase stamp = t) :
    takeStrobe stamp s = recordStrobe ⟨stamp, t, none, none, none, .ignored⟩ s := by
  simp [takeStrobe, h, phase]

/-- In a realigned cycle, or on a marked start, the strobe is extra (R8). -/
theorem takeStrobe_extra (m : Matches s stamp t ref eps) (h : s.timer.sync ≠ .disabled)
    (k : (s.timer.realigned || s.timer.marked ref) = true) : takeStrobe stamp s =
      recordStrobe ⟨stamp, t, some ref, some eps, none, .extra⟩ (deviceReport .extraStrobe (some stamp) s) := by
  simp only [takeStrobe, m.phase, m.start, if_neg h, if_pos k]

/-- In LOCKED and HOLDOVER a strobe that is not extra lies in the window or out of it (R10, R11). -/
theorem takeStrobe_expected (m : Matches s stamp t ref eps) (h : s.timer.sync = .locked ∨ s.timer.sync = .holdover)
    (k : (s.timer.realigned || s.timer.marked ref) = false) : takeStrobe stamp s =
      if eps.natAbs ≤ s.timer.lambda then inWindow stamp t ref eps s else outOfWindow stamp t ref eps s := by
  have e : s.timer.sync ≠ .disabled := by rcases h with h | h <;> simp [h]
  simp only [takeStrobe, m.phase, m.start, if_neg e, k, Bool.false_eq_true, if_false, if_pos h]

/-- In ACQUIRING and LOST a strobe that is not extra realigns (R12). -/
theorem takeStrobe_first (m : Matches s stamp t ref eps) (h : s.timer.sync = .acquiring ∨ s.timer.sync = .lost)
    (k : (s.timer.realigned || s.timer.marked ref) = false) : takeStrobe stamp s =
      recordStrobe ⟨stamp, t, some ref, some eps, none, .realigned⟩ (realign stamp t (s.modTimer (Timer.setMark ref))) := by
  have e : s.timer.sync ≠ .disabled := by rcases h with h | h <;> simp [h]
  have e' : ¬(s.timer.sync = .locked ∨ s.timer.sync = .holdover) := by rcases h with h | h <;> simp [h]
  simp only [takeStrobe, m.phase, m.start, if_neg e, k, Bool.false_eq_true, if_false, if_neg e']

/-! ### In the window (R10) -/

/-- The cycle timer after an in-window strobe, with its record (R10, R15). -/
def correctedTimer (stamp : Stamp) (t : Int) (ref : StartRef) (eps : Int) (x : Timer) : Timer :=
  { correctTimer ref (clampSigma x.sigma eps) x with
    lastStrobe := some ⟨stamp, t, some ref, some eps, some (clampSigma x.sigma eps), .corrected⟩ }

/-- Cases A and C: the current end moves by the clamped ε, and a commit guard that was reached stays (R10, R86). -/
theorem correctedTimer_current (stamp : Stamp) (t eps : Int) (x : Timer) : correctedTimer stamp t .current eps x =
    { x with
      endE := (x.endE + clampSigma x.sigma eps).toNat, currentMark := true, outRun := 0, guarded := x.inGuard
      lastStrobe := some ⟨stamp, t, some .current, some eps, some (clampSigma x.sigma eps), .corrected⟩ } := rfl

/-- Case B: the next-cycle adjustment is the clamped ε (R10). -/
theorem correctedTimer_next (stamp : Stamp) (t eps : Int) (x : Timer) : correctedTimer stamp t .next eps x =
    { x with
      adjust := clampSigma x.sigma eps, nextMark := true, outRun := 0
      lastStrobe := some ⟨stamp, t, some .next, some eps, some (clampSigma x.sigma eps), .corrected⟩ } := rfl

theorem inWindow_locked (h : s.timer.sync = .locked) :
    inWindow stamp t ref eps s = s.modTimer (correctedTimer stamp t ref eps) := by
  simp only [inWindow, h, reduceCtorEq, if_false]
  rfl

theorem inWindow_holdover (h : s.timer.sync = .holdover) : inWindow stamp t ref eps s =
    recordStrobe ⟨stamp, t, some ref, some eps, some (clampSigma s.timer.sigma eps), .corrected⟩
      (changeSync .locked (s.modTimer fun x => { correctTimer ref (clampSigma s.timer.sigma eps) x with missRun := 0 })) := by
  simp only [inWindow, h, if_true]
  rfl

theorem recordStrobe_syncOnly (r : StrobeRecord) (s : State) : SyncOnly s (recordStrobe r s) := rfl

theorem realign_syncOnly (stamp : Stamp) (t : Int) (s : State) : SyncOnly s (realign stamp t s) :=
  ((modTimer_syncOnly _ s).trans (changeSync_syncOnly _ _)).trans (deviceReport_syncOnly _ _ _)

theorem inWindow_syncOnly (stamp : Stamp) (t : Int) (ref : StartRef) (eps : Int) (s : State) :
    SyncOnly s (inWindow stamp t ref eps s) := by
  have base : SyncOnly s (s.modTimer (correctTimer ref (clampSigma s.timer.sigma eps))) := modTimer_syncOnly _ s
  unfold inWindow
  dsimp only
  split
  · exact (base.trans ((modTimer_syncOnly _ _).trans (changeSync_syncOnly _ _))).trans (recordStrobe_syncOnly _ _)
  · exact base.trans (recordStrobe_syncOnly _ _)

theorem outOfWindow_syncOnly (stamp : Stamp) (t : Int) (ref : StartRef) (eps : Int) (s : State) :
    SyncOnly s (outOfWindow stamp t ref eps s) := by
  have base := (modTimer_syncOnly (Timer.setMark ref) s).trans (deviceReport_syncOnly .outOfWindow (some stamp) _)
  unfold outOfWindow
  dsimp only
  split
  · exact base.trans ((realign_syncOnly _ _ _).trans (recordStrobe_syncOnly _ _))
  · exact base.trans ((modTimer_syncOnly _ _).trans (recordStrobe_syncOnly _ _))

/-- A strobe touches the cycle timer, the fault unit and the link only. -/
theorem takeStrobe_syncOnly (stamp : Stamp) (s : State) : SyncOnly s (takeStrobe stamp s) := by
  unfold takeStrobe
  dsimp only
  split
  · exact recordStrobe_syncOnly _ s
  · split
    · exact (deviceReport_syncOnly _ _ s).trans (recordStrobe_syncOnly _ _)
    · split
      · split
        · exact inWindow_syncOnly _ _ _ _ s
        · exact outOfWindow_syncOnly _ _ _ _ s
      · exact (modTimer_syncOnly _ s).trans ((realign_syncOnly _ _ _).trans (recordStrobe_syncOnly _ _))

/-- A correction leaves what a notice says of the instant: the state, the cycle and the phase. -/
theorem correctTimer_instant (ref : StartRef) (c : Int) (x : Timer) :
    (correctTimer ref c x).sync = x.sync ∧ (correctTimer ref c x).cycle = x.cycle ∧
      (correctTimer ref c x).grain = x.grain ∧ (correctTimer ref c x).start = x.start := by
  cases ref <;> exact ⟨rfl, rfl, rfl, rfl⟩

end

end Sys2Proof.CellTime
end

section
/-! SUPPORT. STROBE as a command: what it makes of the whole state in the window, in DISABLED, and where it is extra, and the statement
on them. -/

namespace Sys2Proof.CellTime

open Sys2Proof.Machine Sys2Proof.Safety Sys2Proof.Laws

/-- STROBE touches the cycle timer, the device counters, the fault unit and the link only. -/
theorem strobe_syncOnly (s : State) : SyncOnly s (takeReports (takeStrobe s.timer.cyc.stamp (cycSettled true s))) :=
  (modTimer_syncOnly _ s).trans ((takeStrobe_syncOnly _ _).trans (takeReports_syncOnly _))

/-- STROBE makes of the cycle timer `y`, nothing else changing; from HOLDOVER the state becomes LOCKED besides, the miss run
is cleared and the change is notified (R10, R6). -/
def Corrects (s : State) (y : Timer) : Prop :=
  (s.timer.sync = .locked → exec .strobe s = .next { s with timer := y }) ∧
  (s.timer.sync = .holdover → ∃ u, exec .strobe s = .next u ∧ u.timer = { y with sync := .locked, missRun := 0 } ∧
    (s.mgmt.sources[0].number ≠ 0 → ∃ n ∈ u.mgmt.sources[0].pending,
      n.cycle = s.timer.cycle ∧ n.data = .syncState .locked .holdover s.phase) ∧
    { u with timer := s.timer, mgmt := s.mgmt } = s)

section
variable {s : State} {t eps : Int} {ref : StartRef}

/-- An in-window strobe from HOLDOVER: the timer, the notice and the blocks that stand. -/
theorem inWindow_fromHoldover (h : s.timer.sync = .holdover) (stamp : Stamp) :
    let u := inWindow stamp t ref eps s
    u.timer = { correctedTimer stamp t ref eps s.timer with sync := .locked, missRun := 0 } ∧
    (s.mgmt.sources[srcSync].number ≠ 0 → ∃ n ∈ u.mgmt.sources[srcSync].pending,
      n.cycle = s.timer.cycle ∧ n.data = .syncState .locked .holdover s.phase) ∧
    u.fault = s.fault ∧ { u with timer := s.timer, mgmt := s.mgmt } = s := by
  obtain ⟨sync, cycle, grain, start⟩ := correctTimer_instant ref (clampSigma s.timer.sigma eps) s.timer
  intro u
  have e : u = _ := inWindow_holdover h
  have other : (s.modTimer fun x => { correctTimer ref (clampSigma s.timer.sigma eps) x with missRun := 0 }).timer.sync ≠
      .locked := by simp [sync, h]
  rw [e]
  refine ⟨by simp [correctedTimer], fun routed => ?_, by simp, ?_⟩
  · simpa [State.phase, sync, cycle, grain, start, h] using changeSync_pending other routed
  · rw [changeSync_other other]; rfl

/-- An in-window strobe corrects (R10). -/
theorem strobe_corrects (h : cycQualifies s true) (m : Matches s s.timer.cyc.stamp t ref eps)
    (unmarked : (s.timer.realigned || s.timer.marked ref) = false) (near : eps.natAbs ≤ s.timer.lambda) :
    Corrects s (correctedTimer s.timer.cyc.stamp t ref eps (cycSettled true s).timer) := by
  have run (expected : s.timer.sync = .locked ∨ s.timer.sync = .holdover) :
      takeStrobe s.timer.cyc.stamp (cycSettled true s) = inWindow s.timer.cyc.stamp t ref eps (cycSettled true s) :=
    (takeStrobe_expected (s := cycSettled true s) ⟨m.phase, m.start⟩ expected unmarked).trans (if_pos near)
  refine ⟨fun locked => ?_, fun holdover => ?_⟩
  · rw [exec_strobe h, run (.inl locked), inWindow_locked (s := cycSettled true s) locked]
    exact congrArg _ (takeReports_none h.1.noReports)
  · obtain ⟨timer, notice, fault, stands⟩ := inWindow_fromHoldover (s := cycSettled true s) holdover s.timer.cyc.stamp
      (t := t) (ref := ref) (eps := eps)
    refine ⟨_, exec_strobe h, ?_⟩
    rw [run (.inr holdover), takeReports_none (by rw [fault]; exact h.1.noReports)]
    exact ⟨timer, notice, (congrArg (fun x : State => { x with timer := s.timer }) stands :)⟩

/-- An extra strobe is recorded and counted, and changes nothing else (R8). -/
theorem strobe_isExtra (h : cycQualifies s true) (m : Matches s s.timer.cyc.stamp t ref eps)
    (enabled : s.timer.sync ≠ .disabled) (marked : (s.timer.realigned || s.timer.marked ref) = true) :
    ∃ u, exec .strobe s = .next u ∧
      (∃ m e, u.timer = { (cycSettled true s).timer with
        lastStrobe := some ⟨s.timer.cyc.stamp, t, some m, some e, none, .extra⟩ }) ∧
      u.deviceCounters = Table.upd s.deviceCounters 17 satInc ∧ SyncOnly s u := by
  have run := takeStrobe_extra (s := cycSettled true s) ⟨m.phase, m.start⟩ enabled marked
  have only := takeReports_only (takeStrobe s.timer.cyc.stamp (cycSettled true s))
  have reports := (congrArg (fun x : State => x.fault.inbox) run).trans
    (deviceReport_first (s := cycSettled true s) h.1.noReports .extraStrobe (some s.timer.cyc.stamp))
  refine ⟨_, exec_strobe h, ⟨ref, eps, only.timer.trans (by rw [run]; rfl)⟩, ?_, strobe_syncOnly s⟩
  exact (takeReports_deviceCounters_one reports).trans (by rw [run]; rfl)

end

/-- Settles O17, by the state and the start that R7 matches: STROBE corrects, is ignored, or is extra. -/
theorem strobeCorrectsOrIsExtra : Obligations.StrobeCorrectsOrIsExtra := by
  unfold Obligations.StrobeCorrectsOrIsExtra
  refine ⟨fun s t h realigned ht => ⟨fun b unmarked near => ?_, fun b unmarked near => ?_⟩, fun s t h ht => ⟨fun off => ?_,
    fun enabled marked => ?_⟩⟩
  · have corrects := strobe_corrects h ⟨ht.symm, matchStart_current b⟩ (by simp [realigned, Timer.marked, unmarked]) near
    rw [correctedTimer_current] at corrects
    exact corrects
  · have corrects := strobe_corrects h ⟨ht.symm, matchStart_next b⟩ (by simp [realigned, Timer.marked, unmarked]) near
    rw [correctedTimer_next] at corrects
    exact corrects
  · rw [exec_strobe h, takeStrobe_disabled (s := cycSettled true s) off ht.symm]
    exact congrArg _ (takeReports_none h.1.noReports)
  · by_cases b : 0 ≤ t ∧ (s.timer.endE : Int) - (s.timer.n * 500 : Nat) ≤ t
    · refine strobe_isExtra h ⟨ht.symm, matchStart_next b⟩ enabled ?_
      simpa only [Timer.marked, Bool.or_eq_true, b, not_true_eq_false, false_and, or_false, true_and] using marked
    · refine strobe_isExtra h ⟨ht.symm, matchStart_current b⟩ enabled ?_
      simpa only [Timer.marked, Bool.or_eq_true, b, false_and, false_or,
        not_false_eq_true, true_and] using marked

end Sys2Proof.CellTime
end

section
/-! SUPPORT. A strobe out of the window (R11), the realign (R12), and the statement on them. -/

namespace Sys2Proof.CellTime

open Sys2Proof.Machine Sys2Proof.Safety Sys2Proof.Laws

/-- The scheduled end that a realign sets puts the grid on the strobe (R12). -/
theorem realignedEnd_onGrid {old m : Nat} {t : Int} (pos : 0 < m) : OnGrid t m old (realignedEnd old m t) := by
  have pos' : (0 : Int) < m := by exact_mod_cast pos
  have quotient : (m : Int) * ((t - old) / m) ≤ t - old := Int.mul_ediv_self_le pos'.ne'
  have remainder : t - old < m * ((t - old) / m) + m := Int.lt_mul_ediv_self_add pos'
  have reaches : ∀ j : Int, (old : Int) ≤ t + j * m ↔ -((t - old) / m) ≤ j := by
    intro j
    constructor
    · intro h
      by_contra k
      have : (j + (t - old) / m + 1) * (m : Int) ≤ 0 := mul_nonpos_of_nonpos_of_nonneg (by omega) pos'.le
      linarith [add_mul (j + (t - old) / m) 1 (m : Int), add_mul j ((t - old) / m) (m : Int), mul_comm ((t - old) / m) (m : Int)]
    · intro h
      have : 0 ≤ (j + (t - old) / m) * (m : Int) := mul_nonneg (by omega) pos'.le
      linarith [add_mul j ((t - old) / m) (m : Int), mul_comm ((t - old) / m) (m : Int)]
  have notBefore := (reaches _).2 (le_max_right 1 (-((t - old) / (m : Int))))
  have cast : ((realignedEnd old m t : Nat) : Int) = t + max 1 (-((t - old) / (m : Int))) * m :=
    Int.toNat_of_nonneg (le_trans (Int.natCast_nonneg old) notBefore)
  refine ⟨⟨_, le_max_left _ _, cast⟩, by exact_mod_cast cast ▸ notBefore, fun j one after => ?_⟩
  rw [cast]
  have := mul_le_mul_of_nonneg_right (max_le one ((reaches j).1 after)) pos'.le
  linarith

/-! ### What a realign makes of the state -/

/-- The states differ in nothing a realign looks at: of the timer in the filter and the two marks only, and no REALIGN has been
reported. -/
structure MarkedOnly (s w : State) : Prop where
  timer : { w.timer with
    cyc := s.timer.cyc, currentMark := s.timer.currentMark, nextMark := s.timer.nextMark } = s.timer
  mgmt : w.mgmt = s.mgmt
  device : w.deviceCounters = s.deviceCounters
  reports : reportsOf 20 w.fault.inbox = 0

/-- State `u` is a realign on a strobe of phase `t` taken in state `s`: the grid, marks and runs, the record, the count, and
the notice of a change of state (R12, R6); a commit guard that was reached stays (R86). -/
def Realigned (s : State) (t : Int) (u : State) : Prop :=
  u.timer.sync = .locked ∧ u.timer.currentMark = true ∧ u.timer.nextMark = false ∧ u.timer.realigned = true ∧
  u.timer.outRun = 0 ∧ u.timer.missRun = 0 ∧ u.timer.adjust = 0 ∧
  OnGrid t (s.timer.n * 1000) s.timer.endE u.timer.endE ∧
  u.timer.guarded = (s.timer.guarded || decide (s.timer.endE ≤ s.phase + 16384)) ∧
  u.timer.lastStrobe.map (·.outcome) = some .realigned ∧ u.deviceCounters[20] = satInc s.deviceCounters[20] ∧
  (s.timer.sync ≠ .locked → s.mgmt.sources[0].number ≠ 0 → ∃ n ∈ u.mgmt.sources[0].pending,
    n.cycle = s.timer.cycle ∧ n.data = .syncState .locked s.timer.sync s.phase)

/-- The cycle timer at a realign (R12). -/
def realignedTimer (t : Int) (x : Timer) : Timer :=
  { x.moveEnd (realignedEnd x.endE x.m t) with
    currentMark := true, nextMark := false, realigned := true, adjust := 0, outRun := 0, missRun := 0 }

theorem realign_eq (stamp : Stamp) (t : Int) (s : State) : realign stamp t s =
    deviceReport .realign (some stamp) (changeSync .locked (s.modTimer (realignedTimer t))) := rfl

theorem realign_timer (stamp : Stamp) (t : Int) (s : State) :
    (realign stamp t s).timer = { realignedTimer t s.timer with sync := .locked } := by
  rw [realign_eq, deviceReport_timer, changeSync_timer]; rfl

/-- The device totals after a realign, its reports taken: REALIGN is one more (R16). -/
theorem realign_counter {s w : State} (m : MarkedOnly s w) (stamp : Stamp) (t : Int) (r : StrobeRecord) (i : Fin 28) :
    (takeReports (recordStrobe r (realign stamp t w))).deviceCounters[i] =
      satAdd s.deviceCounters[i] (reportsOf i w.fault.inbox + if 20 = i then 1 else 0) := by
  rw [takeReports_deviceCounters, recordStrobe_fault, recordStrobe_deviceCounters, realign_eq, deviceReport_inbox,
    reportsOf_append, changeSync_fault, deviceReport_deviceCounters, changeSync_deviceCounters,
    State.modTimer_deviceCounters, State.modTimer_fault, m.device, reportsOf_cons, reportsOf_nil, Nat.zero_add]
  rfl

/-- A realign, recorded and its reports taken, realigns (R12). -/
theorem realign_realigned {s w : State} {t : Int} (m : MarkedOnly s w) (pos : 0 < s.timer.n) (stamp : Stamp)
    {r : StrobeRecord} (hr : r.outcome = .realigned) :
    Realigned s t (takeReports (recordStrobe r (realign stamp t w))) := by
  have only := takeReports_only (recordStrobe r (realign stamp t w))
  have endE : w.timer.endE = s.timer.endE := (congrArg Timer.endE m.timer :)
  have n : w.timer.n = s.timer.n := (congrArg Timer.n m.timer :)
  have guarded : w.timer.guarded = s.timer.guarded := (congrArg Timer.guarded m.timer :)
  have grain : w.timer.grain = s.timer.grain := (congrArg Timer.grain m.timer :)
  have start : w.timer.start = s.timer.start := (congrArg Timer.start m.timer :)
  have cycle : w.timer.cycle = s.timer.cycle := (congrArg Timer.cycle m.timer :)
  have sync : w.timer.sync = s.timer.sync := (congrArg Timer.sync m.timer :)
  have grid : OnGrid t (s.timer.n * 1000) s.timer.endE (realignedEnd w.timer.endE w.timer.m t) := by
    rw [Timer.m, endE, n]; exact realignedEnd_onGrid (by omega)
  have guard : w.timer.inGuard = (s.timer.guarded || decide (s.timer.endE ≤ s.phase + 16384)) := by
    rw [Timer.inGuard, guarded, endE, grain, start]; rfl
  have count := realign_counter m stamp t r 20
  rw [m.reports] at count
  unfold Realigned
  rw [only.timer, recordStrobe_timer, realign_timer]
  refine ⟨rfl, rfl, rfl, rfl, rfl, rfl, rfl, grid, guard, congrArg some hr, count, fun change routed => ?_⟩
  have other : (w.modTimer (realignedTimer t)).timer.sync ≠ .locked := fun e => change (sync.symm.trans e)
  have source := only.sources srcSync (by decide)
  have phase : w.phase = s.phase := by simp only [State.phase, grain, start]
  rw [← phase, ← sync, ← cycle]
  exact source ▸ changeSync_pending other (by rw [State.modTimer_mgmt, m.mgmt]; exact routed)

/-! ### Out of the window (R11) -/

section
variable {s : State} {stamp : Stamp} {t eps : Int} {ref : StartRef}

/-- An out-of-window strobe marks its start and is reported (R9, R16). -/
def offWindow (stamp : Stamp) (ref : StartRef) (s : State) : State :=
  deviceReport .outOfWindow (some stamp) (s.modTimer (Timer.setMark ref))

/-- In HOLDOVER the first, and in LOCKED the third in a row, realigns; the ones before are counted (R11). -/
theorem outOfWindow_eq : outOfWindow stamp t ref eps s =
    if s.timer.sync = .holdover ∨ 3 ≤ s.timer.outRun + 1 then
      recordStrobe ⟨stamp, t, some ref, some eps, none, .realigned⟩ (realign stamp t (offWindow stamp ref s))
    else recordStrobe ⟨stamp, t, some ref, some eps, none, .outOfWindow⟩
      ((offWindow stamp ref s).modTimer fun x => { x with outRun := x.outRun + 1 }) := by
  cases ref <;> rfl

theorem offWindow_inbox (h : s.fault.inbox = []) : ∃ r : Report, r.fields.cause = .outOfWindow ∧
    (offWindow stamp ref s).fault.inbox = [r] :=
  ⟨_, rfl, deviceReport_first (s := s.modTimer (Timer.setMark ref)) h _ _⟩

theorem offWindow_markedOnly (h : s.fault.inbox = []) : MarkedOnly s (offWindow stamp ref (cycSettled true s)) := by
  obtain ⟨r, cause, inbox⟩ := offWindow_inbox (s := cycSettled true s) (stamp := stamp) (ref := ref) h
  have reports : reportsOf 20 (offWindow stamp ref (cycSettled true s)).fault.inbox = 0 := by
    rw [inbox, reportsOf_cons, cause]; rfl
  cases ref <;> exact ⟨rfl, rfl, rfl, reports⟩

end

/-- The grid a strobe never moves: the current cycle's number and start, the grain clock and the cycle lengths. -/
abbrev gridOf (x : Timer) : CycleNo × Stamp × Stamp × Nat × Option Nat := (x.cycle, x.start, x.grain, x.n, x.nextN)

theorem realign_grid {s w : State} (m : MarkedOnly s w) (stamp : Stamp) (t : Int) (r : StrobeRecord) :
    gridOf (takeReports (recordStrobe r (realign stamp t w))).timer = gridOf s.timer := by
  rw [(takeReports_only _).timer, recordStrobe_timer, realign_timer]
  exact (congrArg gridOf m.timer :)

/-- A strobe out of the window that realigns (R11, R12). -/
theorem offWindow_realigns {s : State} {t eps : Int} {ref : StartRef} (awake : Awake s) (pos : 0 < s.timer.n)
    (h : s.timer.sync = .holdover ∨ 2 ≤ s.timer.outRun) :
    let u := takeReports (outOfWindow s.timer.cyc.stamp t ref eps (cycSettled true s))
    gridOf u.timer = gridOf s.timer ∧ u.deviceCounters[(18 : Fin 28)] = satInc s.deviceCounters[(18 : Fin 28)] ∧
      Realigned s t u := by
  obtain ⟨r, cause, inbox⟩ := offWindow_inbox (s := cycSettled true s) (stamp := s.timer.cyc.stamp) (ref := ref)
    awake.noReports
  have m := offWindow_markedOnly (stamp := s.timer.cyc.stamp) (ref := ref) awake.noReports
  intro u
  have e : u = takeReports (recordStrobe ⟨_, t, some ref, some eps, none, .realigned⟩
      (realign s.timer.cyc.stamp t (offWindow s.timer.cyc.stamp ref (cycSettled true s)))) :=
    congrArg takeReports (outOfWindow_eq.trans (if_pos (h.imp_right Nat.succ_le_succ)))
  rw [e]
  refine ⟨realign_grid m _ _ _, ?_, realign_realigned m pos _ rfl⟩
  rw [realign_counter m, inbox, reportsOf_cons, cause]
  rfl

/-- A strobe out of the window that is counted (R11). -/
theorem offWindow_counts {s : State} {t eps : Int} {ref : StartRef} (awake : Awake s)
    (locked : s.timer.sync = .locked) (k : s.timer.outRun < 2) :
    let u := takeReports (outOfWindow s.timer.cyc.stamp t ref eps (cycSettled true s))
    u.timer = { (cycSettled true s).timer.setMark ref with
      outRun := s.timer.outRun + 1, lastStrobe := some ⟨s.timer.cyc.stamp, t, some ref, some eps, none, .outOfWindow⟩ } ∧
    u.deviceCounters[(18 : Fin 28)] = satInc s.deviceCounters[(18 : Fin 28)] ∧
    u.deviceCounters[(20 : Fin 28)] = s.deviceCounters[(20 : Fin 28)] := by
  obtain ⟨r, cause, inbox⟩ := offWindow_inbox (s := cycSettled true s) (stamp := s.timer.cyc.stamp) (ref := ref)
    awake.noReports
  have m := offWindow_markedOnly (stamp := s.timer.cyc.stamp) (ref := ref) awake.noReports
  have counted : ¬((cycSettled true s).timer.sync = .holdover ∨ 3 ≤ (cycSettled true s).timer.outRun + 1) := by
    rintro (x | x)
    · exact absurd (locked.symm.trans x) (by decide)
    · exact absurd x (by simp only [cycSettled, State.modTimer_timer]; omega)
  have counters (i : Fin 28) : (takeReports (outOfWindow s.timer.cyc.stamp t ref eps (cycSettled true s))).deviceCounters[i] =
      satAdd s.deviceCounters[i] (reportsOf i [r]) := by
    rw [takeReports_deviceCounters, outOfWindow_eq, if_neg counted, recordStrobe_fault, State.modTimer_fault, inbox]
    exact congrArg (satAdd · _) (congrArg (·[i]) m.device)
  intro u
  refine ⟨?_, (counters 18).trans ?_, (counters 20).trans ?_⟩
  · rw [(takeReports_only _).timer, outOfWindow_eq, if_neg counted]
    cases ref <;> rfl
  · rw [reportsOf_cons, cause]; rfl
  · rw [reportsOf_cons, cause]; rfl

/-- The start that R7 gives case B, and the other cases. -/
def startOf (caseB : Bool) : StartRef := if caseB then .next else .current

/-- The distance that R7 gives case B, and the other cases. -/
theorem matches_startOf {s : State} {t : Int} {caseB : Bool}
    (h : caseB = true ↔ 0 ≤ t ∧ (s.timer.endE : Int) - (s.timer.n * 500 : Nat) ≤ t)
    (ht : t = (s.timer.cyc.stamp - s.timer.start).toInt) :
    Matches s s.timer.cyc.stamp t (startOf caseB) (if caseB then t - s.timer.endE else t) := by
  cases caseB with
  | true => exact ⟨ht.symm, matchStart_next (h.1 rfl)⟩
  | false => exact ⟨ht.symm, matchStart_current fun b => absurd (h.2 b) Bool.false_ne_true⟩

/-- Settles O18, by the state in which the strobe is taken and, out of the window, the strobes out of it before. -/
theorem realignPlacesTheGrid : Obligations.RealignPlacesTheGrid := by
  unfold Obligations.RealignPlacesTheGrid
  refine fun s t h unrealigned pos ht => ⟨fun caseB hb expected unmarked far => ?_, fun first current next => ?_⟩
  · have m := matches_startOf hb ht
    have unused : (s.timer.realigned || s.timer.marked (startOf caseB)) = false := by
      cases caseB <;> simpa [unrealigned, startOf, Timer.marked] using unmarked
    have run := (takeStrobe_expected (s := cycSettled true s) ⟨m.phase, m.start⟩ expected unused).trans
      (if_neg (Nat.not_le.2 far))
    have only := strobe_syncOnly s
    rw [exec_strobe h]
    rw [run] at only ⊢
    by_cases k : s.timer.sync = .holdover ∨ 2 ≤ s.timer.outRun
    · obtain ⟨grid, count, realigned⟩ := offWindow_realigns (t := t) (ref := startOf caseB)
        (eps := if caseB then t - s.timer.endE else t) h.1 pos k
      refine ⟨_, rfl, ⟨grid, only⟩, count, fun locked low => ?_, fun _ => realigned⟩
      rcases k with k | k
      · exact absurd (locked.symm.trans k) (by decide)
      · exact absurd k (by omega)
    · obtain ⟨holdover, low⟩ := not_or.1 k
      have locked := expected.resolve_right holdover
      obtain ⟨timer, count, other⟩ := offWindow_counts (t := t) (ref := startOf caseB)
        (eps := if caseB then t - s.timer.endE else t) h.1 locked (by omega)
      refine ⟨_, rfl, ⟨?_, only⟩, count, fun _ _ => ?_, fun x => absurd x k⟩
      · rw [timer]; cases caseB <;> rfl
      · rw [timer]
        refine ⟨?_, rfl, ?_, ?_, ?_, ?_, ?_, rfl, other⟩ <;>
          cases caseB <;> simp [startOf, Timer.setMark, cycSettled, locked, unrealigned]
  · have m : Matches s s.timer.cyc.stamp t _ _ := ⟨ht.symm, rfl⟩
    have unused : (s.timer.realigned || s.timer.marked (s.timer.matchStart t).1) = false := by
      cases (s.timer.matchStart t).1 <;> simp [unrealigned, Timer.marked, current, next]
    have run := takeStrobe_first (s := cycSettled true s) ⟨m.phase, m.start⟩ first unused
    have only := strobe_syncOnly s
    have marked : MarkedOnly s ((cycSettled true s).modTimer (Timer.setMark (s.timer.matchStart t).1)) := by
      have none : reportsOf 20 s.fault.inbox = 0 := by rw [h.1.noReports]; rfl
      cases (s.timer.matchStart t).1 <;> exact ⟨rfl, rfl, rfl, none⟩
    rw [exec_strobe h]
    rw [run] at only ⊢
    exact ⟨_, rfl, ⟨realign_grid marked _ _ _, only⟩, realign_realigned marked pos _ rfl⟩

end Sys2Proof.CellTime
end

section
/-! SUPPORT. What a cycle start leaves of cell time behind the cycle timer's own steps: the engine with its commit, the egress
passes, the noise monitors, the probes and the address table (R3). -/

namespace Sys2Proof.CellTime

open Sys2Proof.Machine Sys2Proof.Safety Sys2Proof.Laws

/-- What no other block changes: the cycle timer, its notice source, and the MISSED_STROBE events counted and reported. -/
structure Spares (s t : State) : Prop where
  timer : t.timer = s.timer
  source : t.mgmt.sources[srcSync] = s.mgmt.sources[srcSync]
  misses : reportsOf 19 t.fault.inbox = reportsOf 19 s.fault.inbox
  counter : t.deviceCounters[(19 : Fin 28)] = s.deviceCounters[(19 : Fin 28)]

theorem Spares.refl (s : State) : Spares s s := ⟨rfl, rfl, rfl, rfl⟩

theorem Spares.trans {s t u : State} (h : Spares s t) (k : Spares t u) : Spares s u :=
  ⟨k.timer.trans h.timer, k.source.trans h.source, k.misses.trans h.misses, k.counter.trans h.counter⟩

/-- An update of a block that `Spares` does not speak of. -/
theorem Spares.plain {s t : State} (timer : t.timer = s.timer) (mgmt : t.mgmt = s.mgmt) (fault : t.fault = s.fault)
    (device : t.deviceCounters = s.deviceCounters) : Spares s t :=
  ⟨timer, by rw [mgmt], by rw [fault], by rw [device]⟩

theorem raise_spares {src : Fin 12} (h : srcSync ≠ src) (cycle : CycleNo) (d : NoticeData) (s : State) :
    Spares s (raise src cycle d s) :=
  ⟨rfl, raise_otherSource h cycle d s, rfl, rfl⟩

/-- The device counter of index 19 counts MISSED_STROBE alone (R16). -/
theorem total_missed {cause : Cause} (h : cause ≠ .missedStrobe) : (DeviceCounter.total cause).index ≠ 19 := by
  revert h
  cases cause <;> decide

theorem report_spares {cause : Cause} (h : cause ≠ .missedStrobe) (x : Place) (n : Option StreamNo) (s : State) :
    Spares s (report cause x n s) := by
  refine ⟨rfl, rfl, ?_, rfl⟩
  show reportsOf 19 (s.fault.inbox ++ [_]) = _
  simp [reportsOf_append, reportsOf_cons, State.stamped, total_missed h]

/-- What the engine leaves besides: the noise monitors, and of each egress the wire and the class queues. -/
structure EngineSpares (s t : State) : Prop extends Spares s t where
  noise : t.noise = s.noise
  egress : ∀ e : Port, t.egress[e].wire = s.egress[e].wire ∧ t.egress[e].queues = s.egress[e].queues

theorem EngineSpares.refl (s : State) : EngineSpares s s := ⟨.refl s, rfl, fun _ => ⟨rfl, rfl⟩⟩

theorem EngineSpares.trans {s t u : State} (h : EngineSpares s t) (k : EngineSpares t u) : EngineSpares s u :=
  ⟨h.toSpares.trans k.toSpares, k.noise.trans h.noise,
    fun e => ⟨(k.egress e).1.trans (h.egress e).1, (k.egress e).2.trans (h.egress e).2⟩⟩

/-- An update of a block that `EngineSpares` does not speak of. -/
theorem EngineSpares.plain {s t : State} (timer : t.timer = s.timer) (mgmt : t.mgmt = s.mgmt) (fault : t.fault = s.fault)
    (device : t.deviceCounters = s.deviceCounters) (noise : t.noise = s.noise) (egress : t.egress = s.egress) :
    EngineSpares s t :=
  ⟨.plain timer mgmt fault device, noise, fun e => by rw [egress]; exact ⟨rfl, rfl⟩⟩

theorem forAll_engineSpares {α : Type} {f : α → State → State} (h : ∀ x t, EngineSpares t (f x t)) (xs : List α)
    (s : State) : EngineSpares s (forAll xs f s) := by
  induction xs generalizing s with
  | nil => exact .refl s
  | cons x xs ih => exact (h x s).trans (ih _)

/-! ### Updates -/

theorem modPort_engineSpares (p f) (s : State) : EngineSpares s (s.modPort p f) := .plain rfl rfl rfl rfl rfl rfl
theorem setStream_engineSpares (n x) (s : State) : EngineSpares s (s.setStream n x) := .plain rfl rfl rfl rfl rfl rfl
theorem modStream_engineSpares (n f) (s : State) : EngineSpares s (s.modStream n f) := .plain rfl rfl rfl rfl rfl rfl
theorem modLeg_engineSpares (n e f) (s : State) : EngineSpares s (s.modLeg n e f) := .plain rfl rfl rfl rfl rfl rfl
theorem modEngine_engineSpares (f) (s : State) : EngineSpares s (s.modEngine f) := .plain rfl rfl rfl rfl rfl rfl
theorem modBuffer_engineSpares (f) (s : State) : EngineSpares s (s.modBuffer f) := .plain rfl rfl rfl rfl rfl rfl
theorem setProbe_engineSpares (q x) (s : State) : EngineSpares s (s.setProbe q x) := .plain rfl rfl rfl rfl rfl rfl
theorem bumpLeg_engineSpares (n e c) (s : State) : EngineSpares s (bumpLeg n e c s) := .plain rfl rfl rfl rfl rfl rfl
theorem setFlag_engineSpares (p x) (s : State) : EngineSpares s (setFlag p x s) := .plain rfl rfl rfl rfl rfl rfl

theorem raise_engineSpares {src : Fin 12} (h : srcSync ≠ src) (cycle : CycleNo) (d : NoticeData) (s : State) :
    EngineSpares s (raise src cycle d s) :=
  ⟨raise_spares h cycle d s, rfl, fun _ => ⟨rfl, rfl⟩⟩

theorem report_engineSpares {cause : Cause} (h : cause ≠ .missedStrobe) (x : Place) (n : Option StreamNo) (s : State) :
    EngineSpares s (report cause x n s) :=
  ⟨report_spares h x n s, rfl, fun _ => ⟨rfl, rfl⟩⟩

/-- A change of an egress that leaves its wire and its queues. -/
theorem modEgress_engineSpares {e : Port} {f : Egress → Egress} (h : ∀ x, (f x).wire = x.wire ∧ (f x).queues = x.queues)
    (s : State) : EngineSpares s (s.modEgress e f) := by
  refine ⟨.plain rfl rfl rfl rfl, rfl, fun i => ?_⟩
  rw [State.modEgress_egress, upd_get]
  split
  · next k => rw [k]; exact h _
  · exact ⟨rfl, rfl⟩

/-! ### Frames, slots and the commit (R44 to R48, R91) -/

theorem returnRef_engineSpares (id : FrameId) (s : State) : EngineSpares s (returnRef id s) := by
  unfold returnRef
  split
  · exact .refl s
  · split
    · unfold freeFrame
      dsimp only
      split
      · split
        · exact modBuffer_engineSpares _ s
        · exact (modBuffer_engineSpares _ s).trans (modStream_engineSpares _ _ _)
      · exact modBuffer_engineSpares _ s
    · exact modBuffer_engineSpares _ s

theorem legDrop_engineSpares {cause : Cause} (h : cause ≠ .missedStrobe) (n : StreamNo) (e : Port) (s : State) :
    EngineSpares s (legDrop cause n e s) := by
  unfold legDrop
  cases cause.legCounter with
  | none => exact (report_engineSpares h _ _ s).trans (setFlag_engineSpares _ _ _)
  | some k => exact (bumpLeg_engineSpares _ _ _ s).trans ((report_engineSpares h _ _ _).trans (setFlag_engineSpares _ _ _))

theorem dropSlot_engineSpares {cause : Cause} (h : cause ≠ .missedStrobe) (n : StreamNo) (e : Port) (s : State) :
    EngineSpares s (dropSlot cause n e s) := by
  unfold dropSlot
  split
  · exact .refl s
  · exact (modLeg_engineSpares _ _ _ s).trans (forAll_engineSpares
      (fun id t => (legDrop_engineSpares h n e t).trans (returnRef_engineSpares id _)) _ _)

theorem letGo_engineSpares (n : StreamNo) (e : Port) (s : State) : EngineSpares s (letGo n e s) := by
  unfold letGo
  split
  · exact .refl s
  · exact (modLeg_engineSpares _ _ _ s).trans (forAll_engineSpares (fun id t => returnRef_engineSpares id t) _ _)

theorem stateCause_ne (x : LegState) : stateCause x ≠ .missedStrobe := by
  cases x <;> decide

theorem commitState_engineSpares (n e old new) (s : State) : EngineSpares s (commitState n e old new s) := by
  unfold commitState
  dsimp only
  split
  · exact (modLeg_engineSpares _ _ _ s).trans
      ((dropSlot_engineSpares (stateCause_ne new) n e _).trans (letGo_engineSpares n e _))
  · exact modLeg_engineSpares _ _ _ s

theorem commitLeg_engineSpares (n : StreamNo) (l : Leg) (s : State) : EngineSpares s (commitLeg n l s) := by
  unfold commitLeg
  split
  · exact .refl s
  · exact (modLeg_engineSpares _ _ _ s).trans (commitState_engineSpares _ _ _ _ _)
  · exact (modLeg_engineSpares _ _ _ s).trans (commitState_engineSpares _ _ _ _ _)

theorem probeFreed_engineSpares (cycle n q) (s : State) : EngineSpares s (probeFreed cycle n q s) := by
  unfold probeFreed
  split
  · split
    · exact setProbe_engineSpares _ _ s
    · exact .refl s
  · exact .refl s

theorem freeReleasing_engineSpares (n : StreamNo) (x : Stream) (s : State) : EngineSpares s (freeReleasing n x s) := by
  unfold freeReleasing
  have legs := forAll_engineSpares (f := fun (l : Leg) t => letGo n l.egress (dropSlot .released n l.egress t))
    (fun l t => (dropSlot_engineSpares (by decide) n l.egress t).trans (letGo_engineSpares n l.egress _)) x.legs s
  exact (legs.trans ((modBuffer_engineSpares _ _).trans (setStream_engineSpares n none _))).trans
    (forAll_engineSpares (fun q t => probeFreed_engineSpares _ n q t) _ _)

theorem commitStream_engineSpares (n : StreamNo) (s : State) : EngineSpares s (commitStream n s) := by
  unfold commitStream
  split
  · exact .refl s
  · split
    · exact setStream_engineSpares _ _ s
    · exact forAll_engineSpares (fun l t => commitLeg_engineSpares n l t) _ s
    · exact freeReleasing_engineSpares _ _ s
    · exact .refl s

theorem commit_engineSpares (s : State) : EngineSpares s (commit s) := by
  unfold commit
  dsimp only
  have timelines := forAll_engineSpares
    (f := fun (e : Port) (t : State) => t.modEgress e fun x => { x with timeline := t.engine.timelines[e] })
    (fun e t => modEgress_engineSpares
      (f := fun x => { x with timeline := t.engine.timelines[e] }) (fun _ => ⟨rfl, rfl⟩) t) allPorts s
  refine ((((timelines.trans (forAll_engineSpares commitStream_engineSpares allStreams _)).trans
    (modEngine_engineSpares _ _)).trans (forAll_engineSpares (fun d t => ?_) _ _)).trans (modEngine_engineSpares _ _))
  exact raise_engineSpares (by decide) _ d t

/-! ### The arbiter, and the operation that a commit guard held (R85, R86) -/

theorem carryRelease_engineSpares (tag n) (s : State) : EngineSpares s (carryRelease tag n s) :=
  ((modEngine_engineSpares _ s).trans (modEngine_engineSpares _ _)).trans (modStream_engineSpares _ _ _)

theorem arbitrate_engineSpares (fuel : Nat) (s : State) : EngineSpares s (arbitrate fuel s) := by
  induction fuel generalizing s with
  | zero => exact .refl s
  | succ fuel ih =>
    unfold arbitrate
    split
    · exact .refl s
    · split
      · dsimp only
        split
        · exact (modEngine_engineSpares _ s).trans (ih _)
        · exact (modEngine_engineSpares _ s).trans ((modEngine_engineSpares _ _).trans (modEngine_engineSpares _ _))
      · split
        · exact .refl s
        · dsimp only
          split
          · exact ((modEngine_engineSpares _ s).trans (carryRelease_engineSpares _ _ _)).trans (ih _)
          · exact ((modEngine_engineSpares _ s).trans (modStream_engineSpares _ _ _)).trans
              ((modEngine_engineSpares _ _).trans (modEngine_engineSpares _ _))

/-- A placed leg: its pending placement is written, its windows enter, and the ceiling is raised (R73, R76). -/
theorem placeLeg_engineSpares (n m e p) (s : State) : EngineSpares s (raiseKappa m e (insertLeg n m e p
    (s.modLeg n e fun l => { l with pendingPl := some (.place p) }))) :=
  ((modLeg_engineSpares _ _ _ s).trans (modEngine_engineSpares _ _)).trans (modPort_engineSpares _ _ _)

theorem placeSuccess_engineSpares (r : PlaceRun) (s : State) : EngineSpares s (placeSuccess r s) := by
  unfold placeSuccess
  have legs := forAll_engineSpares (fun (x : Port × Placement) t => placeLeg_engineSpares r.stream r.planM x.1 x.2 t) r.held s
  exact ((legs.trans (modStream_engineSpares _ _ _)).trans (modEngine_engineSpares _ _)).trans (arbitrate_engineSpares _ _)

theorem repairSuccess_engineSpares (r : RepairRun) (s : State) : EngineSpares s (repairSuccess r s) := by
  unfold repairSuccess
  have keep := forAll_engineSpares (fun (e : Port) (t : State) => modEngine_engineSpares
    (fun g => { g with timelines := Table.upd g.timelines e (r.keep e) }) t) allPorts s
  refine ((keep.trans (forAll_engineSpares (fun x t => ?_) r.results _)).trans (modEngine_engineSpares _ _)).trans
    (arbitrate_engineSpares _ _)
  obtain ⟨n, e, res⟩ := x
  cases res with
  | placed p => exact placeLeg_engineSpares n r.planM e p t
  | refused why => exact modLeg_engineSpares _ _ _ t

theorem endHeld_engineSpares (s : State) : EngineSpares s (endHeld s) := by
  unfold endHeld
  split
  · split
    · exact placeSuccess_engineSpares _ s
    · exact .refl s
  · split
    · exact repairSuccess_engineSpares _ s
    · exact .refl s
  · exact .refl s

/-- The engine at a cycle start (R86, R91). -/
theorem engineCycle_engineSpares (s : State) : EngineSpares s (engineCycle s) := by
  unfold engineCycle
  split
  · exact (commit_engineSpares s).trans (endHeld_engineSpares _)
  · exact endHeld_engineSpares s

end Sys2Proof.CellTime
end

section
/-! SUPPORT. The steps of a cycle start behind the engine's, and the cycle-end check of the sync state (R13). -/

namespace Sys2Proof.CellTime

open Sys2Proof.Machine Sys2Proof.Safety Sys2Proof.Laws

theorem mem_allPorts (p : Port) : p ∈ allPorts := by revert p; decide

/-! ### The egress passes (R99) -/

/-- A change made twice being the change made once, a change of several egresses is made on each of them. -/
theorem forAll_modEgress {f : Egress → Egress} (twice : ∀ x, f (f x) = f x) (ps : List Port) (s : State) (e : Port) :
    (forAll ps (fun p => State.modEgress p f) s).egress[e] = if e ∈ ps then f s.egress[e] else s.egress[e] := by
  induction ps generalizing s with
  | nil => simp [forAll]
  | cons p ps ih =>
    refine (ih (s.modEgress p f)).trans ?_
    rw [State.modEgress_egress, upd_get]
    by_cases h : e = p
    · simp [h, twice]
    · simp [h]

/-- An egress that begins a new pass (R99). -/
def newPass (x : Egress) : Egress := { x with openWindow := none, nextWindow := 0 }

theorem startPasses_eq (s : State) : startPasses s = forAll allPorts (fun e => State.modEgress e newPass) s := rfl

/-- Every egress begins a new pass. -/
theorem startPasses_egress (s : State) (e : Port) : (startPasses s).egress[e] = newPass s.egress[e] := by
  rw [startPasses_eq, forAll_modEgress (f := newPass) (fun _ => rfl), if_pos (mem_allPorts e)]

theorem startPasses_engineSpares (s : State) : EngineSpares s (startPasses s) := by
  rw [startPasses_eq]
  exact forAll_engineSpares (fun e => modEgress_engineSpares (e := e) (f := newPass) fun _ => ⟨rfl, rfl⟩) allPorts s

/-! ### The noise monitors (R140, R143, R144) -/

/-- The monitor of one port is worked on: nothing of cell time, no egress and no other monitor changes. -/
structure MonitorOnly (p : Port) (s t : State) : Prop extends Spares s t where
  egress : t.egress = s.egress
  others : ∀ q : Port, q ≠ p → t.noise[q] = s.noise[q]

theorem MonitorOnly.refl (p : Port) (s : State) : MonitorOnly p s s := ⟨.refl s, rfl, fun _ _ => rfl⟩

theorem MonitorOnly.trans {p : Port} {s t u : State} (h : MonitorOnly p s t) (k : MonitorOnly p t u) : MonitorOnly p s u :=
  ⟨h.toSpares.trans k.toSpares, k.egress.trans h.egress, fun q hq => (k.others q hq).trans (h.others q hq)⟩

theorem modNoise_only (p : Port) (f : Monitor → Monitor) (s : State) : MonitorOnly p s (s.modNoise p f) :=
  ⟨.plain rfl rfl rfl rfl, rfl, fun _ hq => upd_other _ _ _ _ hq⟩

theorem bumpPort_only (p : Port) (c : PortCounter) (s : State) : MonitorOnly p s (bumpPort p c s) :=
  ⟨.plain rfl rfl rfl rfl, rfl, fun _ _ => rfl⟩

theorem noiseChange_only (p new cause count cycle phase) (s : State) :
    MonitorOnly p s (noiseChange p new cause count cycle phase s) := by
  have port : srcSync ≠ srcPort p := Fin.ne_of_val_ne (Nat.succ_ne_zero p.val).symm
  have raised (d : NoticeData) (t : State) : MonitorOnly p t (raise (srcPort p) cycle d t) :=
    ⟨raise_spares port cycle d t, rfl, fun _ _ => rfl⟩
  have flagged (t : State) : MonitorOnly p t (setFlag p .noiseDisturbed t) :=
    ⟨.plain rfl rfl rfl rfl, rfl, fun _ _ => rfl⟩
  unfold noiseChange
  dsimp only
  split
  · exact (((modNoise_only p _ s).trans (flagged _)).trans (bumpPort_only p _ _)).trans (raised _ _)
  · exact (modNoise_only p _ s).trans (raised _ _)

theorem noiseCheck_only (cycle : CycleNo) (p : Port) (s : State) : MonitorOnly p s (noiseCheck cycle p s) := by
  unfold noiseCheck
  refine MonitorOnly.trans ?_ (modNoise_only p _ _)
  split
  · split
    · exact (bumpPort_only p _ s).trans (noiseChange_only _ _ _ _ _ _ _)
    · exact (bumpPort_only p _ s).trans (modNoise_only p _ _)
  · split
    · exact noiseChange_only _ _ _ _ _ _ s
    · exact modNoise_only p _ s
  · exact .refl p s

theorem noiseCycle_only (cycle : CycleNo) (p : Port) (s : State) : MonitorOnly p s (noiseCycle cycle p s) := by
  unfold noiseCycle
  refine MonitorOnly.trans ?_ (modNoise_only p _ _)
  split
  · exact .refl p s
  · exact noiseCheck_only cycle p s

/-- A monitor whose check is made counts from 0 (R140); one whose check was made before keeps its count. -/
theorem noiseCycle_count (cycle : CycleNo) (p : Port) (s : State) :
    (noiseCycle cycle p s).noise[p].count = if s.noise[p].checked then s.noise[p].count else 0 := by
  unfold noiseCycle
  split <;> simp [noiseCheck]

/-- The monitors at a cycle start. -/
theorem forAll_noiseCycle (cycle : CycleNo) (ps : List Port) (s : State) :
    Spares s (forAll ps (noiseCycle cycle) s) ∧ (forAll ps (noiseCycle cycle) s).egress = s.egress := by
  induction ps generalizing s with
  | nil => exact ⟨.refl s, rfl⟩
  | cons p ps ih =>
    have first := noiseCycle_only cycle p s
    exact ⟨first.toSpares.trans (ih _).1, (ih _).2.trans first.egress⟩

/-- A count of 0 stays through the checks that follow. -/
theorem forAll_noiseCycle_zero (cycle : CycleNo) (p : Port) (ps : List Port) (s : State) (h : s.noise[p].count = 0) :
    (forAll ps (noiseCycle cycle) s).noise[p].count = 0 := by
  induction ps generalizing s with
  | nil => exact h
  | cons q ps ih =>
    refine ih _ ?_
    by_cases e : p = q
    · subst e; rw [noiseCycle_count, h, ite_self]
    · rw [(noiseCycle_only cycle q s).others p e, h]

/-- Every monitor whose check is made at the cycle start counts from 0 (R140). -/
theorem forAll_noiseCycle_count (cycle : CycleNo) {p : Port} {ps : List Port} (mem : p ∈ ps) (s : State)
    (h : s.noise[p].checked = false) : (forAll ps (noiseCycle cycle) s).noise[p].count = 0 := by
  induction ps generalizing s with
  | nil => simp at mem
  | cons q ps ih =>
    by_cases e : p = q
    · subst e
      exact forAll_noiseCycle_zero cycle p ps _ (by rw [noiseCycle_count, h]; rfl)
    · exact ih (List.mem_of_ne_of_mem e mem) _ (by rw [(noiseCycle_only cycle q s).others p e, h])

/-! ### The probes and the address table (R168, R130) -/

/-- The probes and the address table leave cell time, the egresses and the noise monitors. -/
structure LastSpares (s t : State) : Prop extends Spares s t where
  egress : t.egress = s.egress
  noise : t.noise = s.noise

theorem LastSpares.trans {s t u : State} (h : LastSpares s t) (k : LastSpares t u) : LastSpares s u :=
  ⟨h.toSpares.trans k.toSpares, k.egress.trans h.egress, k.noise.trans h.noise⟩

theorem probeCount_lastSpares (cycle : CycleNo) (q : Fin 4) (s : State) : LastSpares s (probeCount cycle q s) := by
  have set (x : Probe) : LastSpares s (s.setProbe q x) := ⟨.plain rfl rfl rfl rfl, rfl, rfl⟩
  unfold probeCount
  split
  · split
    · exact (set _).trans ⟨raise_spares (by decide) _ _ _, rfl, rfl⟩
    · exact set _
  · exact ⟨.refl s, rfl, rfl⟩

theorem forAll_probeCount_lastSpares (cycle : CycleNo) (qs : List (Fin 4)) (s : State) :
    LastSpares s (forAll qs (probeCount cycle) s) := by
  induction qs generalizing s with
  | nil => exact ⟨.refl s, rfl, rfl⟩
  | cons q qs ih => exact (probeCount_lastSpares cycle q s).trans (ih _)

theorem ageCycle_lastSpares (s : State) : LastSpares s (ageCycle s) := by
  have table : LastSpares s (ageTable s) := by
    unfold ageTable
    split
    · exact ⟨.plain rfl rfl rfl rfl, rfl, rfl⟩
    · split
      · exact ⟨⟨rfl, rfl, rfl, upd_other _ _ _ _ (by decide)⟩, rfl, rfl⟩
      · exact ⟨.plain rfl rfl rfl rfl, rfl, rfl⟩
  unfold ageCycle
  refine LastSpares.trans (t := if s.addr.swept then s else ageTable s) ?_ ⟨.plain rfl rfl rfl rfl, rfl, rfl⟩
  split
  · exact ⟨.refl s, rfl, rfl⟩
  · exact table

end Sys2Proof.CellTime
end

section
/-! SUPPORT. The cycle-end check (R13), CYCLE_START and SYNC_LOST as commands, and the statements on them. -/

namespace Sys2Proof.CellTime

open Sys2Proof.Machine Sys2Proof.Safety Sys2Proof.Laws

/-! ### The cycle-end check of the sync state (R13) -/

/-- The start of the cycle that ends was not matched, in a state that expects a strobe. -/
abbrev Missed (x : Timer) : Prop := x.currentMark = false ∧ (x.sync = .locked ∨ x.sync = .holdover)

/-- The sync state after a miss: an unmatched cycle takes LOCKED to HOLDOVER unless the next start is matched, and the miss run
that reaches H takes HOLDOVER to LOST. -/
def syncAfterMiss (x : Timer) : SyncState :=
  if x.sync = .locked then if x.nextMark then .locked else .holdover
  else if x.holdLimit ≤ min 255 (x.missRun + 1) then .lost else .holdover

/-- The runs after a miss. -/
def runsAfterMiss (x : Timer) : Timer :=
  if x.sync = .locked then if x.nextMark then x else { x with missRun := 1, outRun := 0 }
  else { x with missRun := min 255 (x.missRun + 1) }

theorem runsAfterMiss_others (x : Timer) :
    { runsAfterMiss x with missRun := x.missRun, outRun := x.outRun } = x := by
  unfold runsAfterMiss; split_ifs <;> rfl

/-- A cycle whose start was matched, or in a state that expects no strobe, changes nothing. -/
theorem endCheck_unmissed {s : State} (h : ¬Missed s.timer) : endCheck s = s := by
  unfold endCheck
  cases mark : s.timer.currentMark with
  | true => rfl
  | false =>
    have no : ¬(s.timer.sync = .locked ∨ s.timer.sync = .holdover) := fun k => h ⟨mark, k⟩
    cases k : s.timer.sync <;> simp_all

/-- A miss in LOCKED. -/
theorem endCheck_locked {s : State} (unmatched : s.timer.currentMark = false) (locked : s.timer.sync = .locked) :
    endCheck s = if s.timer.nextMark then deviceReport .missedStrobe none s
      else changeSync .holdover
        ((deviceReport .missedStrobe none s).modTimer fun x => { x with missRun := 1, outRun := 0 }) := by
  unfold endCheck
  rw [if_neg (by simp [unmatched]), locked]
  rfl

/-- A miss in HOLDOVER. -/
theorem endCheck_holdover {s : State} (unmatched : s.timer.currentMark = false) (holdover : s.timer.sync = .holdover) :
    endCheck s =
      let u := (deviceReport .missedStrobe none s).modTimer fun x => { x with missRun := min 255 (x.missRun + 1) }
      if s.timer.holdLimit ≤ min 255 (s.timer.missRun + 1) then changeSync .lost u else u := by
  unfold endCheck
  rw [if_neg (by simp [unmatched]), holdover]
  rfl

/-- A miss is reported, the runs count it, and the state follows (R13, R16). -/
theorem endCheck_missed {s : State} (h : Missed s.timer) : endCheck s =
    changeSync (syncAfterMiss s.timer) ((deviceReport .missedStrobe none s).modTimer runsAfterMiss) := by
  obtain ⟨unmatched, locked | holdover⟩ := h
  · rw [endCheck_locked unmatched locked]
    cases next : s.timer.nextMark with
    | true =>
      have runs : runsAfterMiss s.timer = s.timer := by simp [runsAfterMiss, locked, next]
      rw [if_pos rfl, changeSync_same (by simp [syncAfterMiss, runs, locked, next])]
      simp only [State.modTimer, deviceReport_timer, runs]
      rfl
    | false =>
      have runs : runsAfterMiss s.timer = { s.timer with missRun := 1, outRun := 0 } := by simp [runsAfterMiss, locked, next]
      have sync : syncAfterMiss s.timer = .holdover := by simp [syncAfterMiss, locked, next]
      rw [if_neg Bool.false_ne_true, sync]
      simp only [State.modTimer, deviceReport_timer, runs]
  · have runs : runsAfterMiss s.timer = { s.timer with missRun := min 255 (s.timer.missRun + 1) } := by
      simp [runsAfterMiss, holdover]
    have sync : syncAfterMiss s.timer = if s.timer.holdLimit ≤ min 255 (s.timer.missRun + 1) then .lost else .holdover := by
      simp only [syncAfterMiss, holdover, reduceCtorEq, if_false]
    rw [endCheck_holdover unmatched holdover, sync]
    simp only [State.modTimer, deviceReport_timer, runs]
    split
    · rfl
    · exact (changeSync_same (by exact holdover)).symm

/-- What the check makes of the state `s`: the sync state and its runs, the reports of a miss and the notice of a change. -/
structure EndChecked (s c : State) : Prop where
  others : { c.timer with sync := s.timer.sync, missRun := s.timer.missRun, outRun := s.timer.outRun } = s.timer
  device : c.deviceCounters = s.deviceCounters
  misses : reportsOf 19 c.fault.inbox = reportsOf 19 s.fault.inbox +
    if Missed s.timer then 1 else 0
  silent : c.timer.sync = s.timer.sync → c.mgmt = s.mgmt
  notice : c.timer.sync ≠ s.timer.sync → s.mgmt.sources[srcSync].number ≠ 0 →
    ∃ n ∈ c.mgmt.sources[srcSync].pending, n.cycle = s.timer.cycle ∧ n.data = .syncState c.timer.sync s.timer.sync s.phase

theorem endCheck_endChecked (s : State) : EndChecked s (endCheck s) := by
  by_cases h : Missed s.timer
  · have others := runsAfterMiss_others s.timer
    have sync : (runsAfterMiss s.timer).sync = s.timer.sync := (congrArg Timer.sync others :)
    have cycle : (runsAfterMiss s.timer).cycle = s.timer.cycle := (congrArg Timer.cycle others :)
    have grain : (runsAfterMiss s.timer).grain = s.timer.grain := (congrArg Timer.grain others :)
    have start : (runsAfterMiss s.timer).start = s.timer.start := (congrArg Timer.start others :)
    rw [endCheck_missed h]
    refine ⟨?_, by simp, ?_, fun same => ?_, fun change routed => ?_⟩
    · rw [changeSync_timer]
      exact (congrArg (fun x : Timer => { x with sync := s.timer.sync }) others :)
    · rw [if_pos h, changeSync_fault, State.modTimer_fault, deviceReport_inbox, reportsOf_append]
      rfl
    · rw [changeSync_timer] at same
      rw [changeSync_same (sync.trans same.symm)]
      rfl
    · rw [changeSync_timer] at change ⊢
      have w := changeSync_pending (s := (deviceReport .missedStrobe none s).modTimer runsAfterMiss)
        (fun e => change (e.symm.trans sync)) routed
      simpa [State.phase, sync, cycle, grain, start] using w
  · rw [endCheck_unmissed h]
    exact ⟨rfl, rfl, by rw [if_neg h]; rfl, fun _ => rfl, fun change => absurd rfl change⟩

theorem endCheck_syncOnly (s : State) : SyncOnly s (endCheck s) := by
  by_cases h : Missed s.timer
  · rw [endCheck_missed h]
    exact ((deviceReport_syncOnly _ _ s).trans (modTimer_syncOnly _ _)).trans (changeSync_syncOnly _ _)
  · rw [endCheck_unmissed h]; rfl

/-- The check changes the sync state and its runs, and nothing else of the cycle timer. -/
theorem EndChecked.timer {s c : State} (h : EndChecked s c) : c.timer =
    { s.timer with sync := c.timer.sync, missRun := c.timer.missRun, outRun := c.timer.outRun } :=
  (congrArg (fun x : Timer =>
    { x with sync := c.timer.sync, missRun := c.timer.missRun, outRun := c.timer.outRun }) h.others :)

/-- The sync state with its two runs. -/
abbrev runsOf (x : Timer) : SyncState × Nat × Nat := (x.sync, x.missRun, x.outRun)

theorem endCheck_runs_unmissed {s : State} (h : ¬Missed s.timer) : runsOf (endCheck s).timer = runsOf s.timer := by
  rw [endCheck_unmissed h]

theorem endCheck_runs_missed {s : State} (h : Missed s.timer) : runsOf (endCheck s).timer =
    (syncAfterMiss s.timer, (runsAfterMiss s.timer).missRun, (runsAfterMiss s.timer).outRun) := by
  rw [endCheck_missed h, changeSync_timer]; rfl

/-- A miss is one report. -/
theorem endCheck_inbox {s : State} (h : Missed s.timer) (k : s.fault.inbox = []) :
    (endCheck s).fault.inbox = [⟨s.stamped .missedStrobe .device none, none, none, false⟩] := by
  rw [endCheck_missed h, changeSync_fault, State.modTimer_fault, deviceReport_first k]

/-! ### SYNC_LOST -/

/-- Settles O21: the check is made apart from the cycle start, and finds the miss that reaches H. -/
theorem syncLostAtTheHoldLimit : Obligations.SyncLostAtTheHoldLimit := by
  unfold Obligations.SyncLostAtTheHoldLimit
  intro s awake due holdover unmatched limit
  have missed : Missed s.timer := ⟨unmatched, .inr holdover⟩
  have exec : exec .syncLost s = .next (takeReports (endCheck s)) :=
    (event_congr (if_pos (by simp [State.cycleDue, due, holdover, unmatched, limit]))).trans (event_high awake.high _)
  have timer : (endCheck s).timer = { s.timer with sync := .lost, missRun := min 255 (s.timer.missRun + 1) } := by
    rw [endCheck_holdover unmatched holdover]
    simp only [if_pos limit, changeSync_timer]
    rfl
  have sync : (endCheck s).timer.sync = .lost := (congrArg Timer.sync timer :)
  have checked := endCheck_endChecked s
  have source := (takeReports_only (endCheck s)).sources srcSync (by decide)
  refine ⟨_, exec, (takeReports_only _).timer.trans timer, ?_, fun routed => ?_, ?_⟩
  · rw [takeReports_deviceCounters_one (endCheck_inbox missed awake.noReports), checked.device]
    rfl
  · have notice := checked.notice (by rw [sync, holdover]; decide) routed
    rw [← source, sync, holdover] at notice
    exact notice
  · exact (endCheck_syncOnly s).trans (takeReports_syncOnly _)

/-! ### CYCLE_START -/

/-- What the steps of a cycle start behind the cycle timer's own make of the state `w`. -/
structure CycleBegun (w t : State) : Prop extends Spares w t where
  pass : ∀ e : Port, t.egress[e].openWindow = none ∧ t.egress[e].nextWindow = 0
  egress : ∀ e : Port, t.egress[e].wire = w.egress[e].wire ∧ t.egress[e].queues = w.egress[e].queues
  counts : ∀ p : Port, w.noise[p].checked = false → t.noise[p].count = 0

theorem cycleStart_begun (s : State) : CycleBegun ((endCheck s).modTimer timerCycle) (cycleStart s) := by
  generalize hw : (endCheck s).modTimer timerCycle = w
  have passes := (engineCycle_engineSpares w).trans (startPasses_engineSpares _)
  have fresh := startPasses_egress (engineCycle w)
  generalize ha : startPasses (engineCycle w) = a at passes fresh
  have monitors := forAll_noiseCycle a.timer.cycle allPorts a
  have counts (p : Port) := forAll_noiseCycle_count a.timer.cycle (mem_allPorts p) a
  generalize hb : forAll allPorts (noiseCycle a.timer.cycle) a = b at monitors counts
  have last := (forAll_probeCount_lastSpares b.timer.cycle allProbes b).trans (ageCycle_lastSpares _)
  have e : cycleStart s = ageCycle (forAll allProbes (probeCount b.timer.cycle) b) := by
    rw [← hb, ← ha, ← hw]; rfl
  rw [e]
  generalize ageCycle (forAll allProbes (probeCount b.timer.cycle) b) = t at last
  have egress : t.egress = a.egress := last.egress.trans monitors.2
  refine ⟨(passes.toSpares.trans monitors.1).trans last.toSpares, fun i => ?_, fun i => ?_, fun p h => ?_⟩
  · rw [egress, fresh]; exact ⟨rfl, rfl⟩
  · rw [egress]; exact passes.egress i
  · rw [last.noise]; exact counts p (by rw [passes.noise]; exact h)

/-- What CYCLE_START makes of the state `s`, its check once made: the timer, its pending notices and the misses counted, each
egress's new pass, and the noise monitors' counts. -/
structure CycleStarted (s t : State) : Prop where
  timer : t.timer = timerCycle (endCheck s).timer
  source : t.mgmt.sources[srcSync] = (endCheck s).mgmt.sources[srcSync]
  misses : t.deviceCounters[(19 : Fin 28)] =
    if Missed s.timer then satInc s.deviceCounters[(19 : Fin 28)] else s.deviceCounters[(19 : Fin 28)]
  pass : ∀ e : Port, t.egress[e].openWindow = none ∧ t.egress[e].nextWindow = 0
  egress : ∀ e : Port, t.egress[e].wire = s.egress[e].wire ∧ t.egress[e].queues = s.egress[e].queues
  counts : ∀ p : Port, s.noise[p].checked = false → t.noise[p].count = 0

theorem exec_cycleStart_eq (s : State) :
    exec .cycleStart s = event (fun s => if s.cycleDue then cycleStart s else s) s := rfl

/-- CYCLE_START: the cycle start, and its reports taken (R3). -/
theorem exec_cycleStart {s : State} (awake : Awake s) (due : s.timer.endE ≤ s.phase) :
    ∃ t, exec .cycleStart s = .next t ∧ CycleStarted s t := by
  have run : exec .cycleStart s = .next (takeReports (cycleStart s)) := by
    rw [exec_cycleStart_eq, event_high awake.high, if_pos (by simpa [State.cycleDue] using due)]
  have begun := cycleStart_begun s
  have check := endCheck_endChecked s
  have noise : (endCheck s).noise = s.noise := (congrArg State.noise (endCheck_syncOnly s) :)
  have egress : (endCheck s).egress = s.egress := (congrArg State.egress (endCheck_syncOnly s) :)
  have only := takeReports_only (cycleStart s)
  refine ⟨_, run, only.timer.trans begun.timer, (only.sources srcSync (by decide)).trans begun.source, ?_, ?_, ?_, ?_⟩
  · rw [takeReports_deviceCounters, begun.misses, begun.counter, State.modTimer_fault, State.modTimer_deviceCounters,
      check.misses, check.device, awake.noReports, reportsOf_nil, Nat.zero_add]
    split
    · exact satAdd_one _
    · exact satAdd_zero _
  · rw [only.egress]; exact begun.pass
  · rw [only.egress, ← egress]; exact begun.egress
  · rw [only.noise, ← noise]; exact begun.counts

/-- Settles O20: the cycle timer's own steps by the check's cases, and what the other blocks' steps leave of them. -/
theorem cycleStartBeginsTheNextCycle : Obligations.CycleStartBeginsTheNextCycle := by
  unfold Obligations.CycleStartBeginsTheNextCycle
  refine ⟨fun s awake due => ?_, fun s awake due => ?_⟩
  · obtain ⟨t, run, started⟩ := exec_cycleStart awake due
    refine ⟨t, run, ?_, fun e => ⟨(started.pass e).1, (started.pass e).2, started.egress e⟩, started.counts⟩
    rw [started.timer, (endCheck_endChecked s).timer]
    exact ⟨rfl, rfl, rfl, rfl, rfl, rfl, rfl, rfl, rfl, rfl, rfl, rfl, rfl⟩
  · obtain ⟨t, run, started⟩ := exec_cycleStart awake due
    have check := endCheck_endChecked s
    have runs : runsOf t.timer = runsOf (endCheck s).timer := by rw [started.timer]; rfl
    have sync : t.timer.sync = (endCheck s).timer.sync := congrArg (·.1) runs
    refine ⟨t, run, fun h => runs.trans ?_, fun unmatched locked next => runs.trans ?_,
      fun unmatched holdover => runs.trans ?_, started.misses, fun same => ?_, fun change routed => ?_⟩
    · by_cases missed : Missed s.timer
      · have matched : s.timer.sync = .locked ∧ s.timer.nextMark = true := by
          rcases h with h | h | h
          · exact absurd (h.symm.trans missed.1) (by decide)
          · exact absurd missed.2 (by simp [h])
          · exact h
        rw [endCheck_runs_missed missed]
        simp [syncAfterMiss, runsAfterMiss, matched]
      · exact endCheck_runs_unmissed missed
    · rw [endCheck_runs_missed ⟨unmatched, .inl locked⟩]
      simp [syncAfterMiss, runsAfterMiss, locked, next]
    · rw [endCheck_runs_missed ⟨unmatched, .inr holdover⟩]
      simp only [syncAfterMiss, runsAfterMiss, holdover, reduceCtorEq, if_false]
    · exact started.source.trans (congrArg (·.sources[srcSync]) (check.silent (sync.symm.trans same)))
    · have notice := check.notice (sync ▸ change) routed
      rw [← started.source, ← sync] at notice
      exact notice

end Sys2Proof.CellTime
end

section
/-! SUPPORT. The statements on idle steps, the reset, the filters and the two queries. -/

namespace Sys2Proof.CellTime

open Sys2Proof.Machine Sys2Proof.Safety Sys2Proof.Laws

/-- While RESET_N is low no command but its release has an effect (R17, R172). -/
theorem exec_held {s : State} {c : Instr} (low : s.resetLow = true) (other : ∀ high, c ≠ .resetN high) :
    exec c s = .next s := by
  cases c with
  | resetN high => exact absurd rfl (other high)
  | resetNLow => exact congrArg Host.Outcome.next (by rw [← low])
  | _ => exact event_low low _

theorem step_empty {s : State} (h : s.pending = []) : step s = idle s := by
  unfold step; rw [h]

theorem tick_low {s : State} (low : s.resetLow = true) : tick s = s := if_pos low

/-- Nothing is due while RESET_N is low. -/
theorem due_low {s : State} (low : s.resetLow = true) : s.due = none := if_pos low

/-- Settles O2, by what is due on the empty queue, and by the command that is held. -/
theorem idleAndHeldSteps : Obligations.IdleAndHeldSteps := by
  unfold Obligations.IdleAndHeldSteps
  refine ⟨fun s empty => ⟨fun c due => ?_, fun none high => ?_⟩, fun s => rfl, fun s c low other => exec_held low other,
    fun s low empty => ?_⟩
  · rw [step_empty empty, idle, due]
  · have grain : tick s = { s with
        timer := { s.timer with grain := s.timer.grain + 1, cyc := { s.timer.cyc with sampled := false } }
        arc := { s.arc with filter := { s.arc.filter with sampled := false } }
        egress := s.egress.map fun x => { x with readyTaken := false } } := if_neg (by simp [high])
    refine ⟨tick s, by rw [step_empty empty, idle, none], ?_⟩
    rw [grain]
    exact ⟨rfl, rfl, rfl, rfl, fun e => by simp, rfl⟩
  · rw [step_empty empty, idle, due_low low, tick_low low]

/-- Settles O3: each block's reset value is the one written out, MODE deciding the ingress enable. -/
theorem resetNGivesTheResetValues : Obligations.ResetNGivesTheResetValues := by
  unfold Obligations.ResetNGivesTheResetValues
  intro high s
  cases high <;> rfl

/-- Settles O16, by the sample's place among those that differ: before the third it is counted, the third qualifies its level. -/
theorem filterSampleAndCycFall : Obligations.FilterSampleAndCycFall := by
  unfold Obligations.FilterSampleAndCycFall
  refine ⟨fun s level awake => ⟨fun due h => ?_, fun due h => ?_, fun h => ?_, fun h => ?_, fun due => ?_, fun due => ?_⟩,
    fun s h => exec_cycFall h⟩
  · rw [exec_filterSample_cyc due, event_silent awake.high] <;> rw [sampleCyc_before h]
    · rfl
    · exact awake.noReports
  · rw [exec_filterSample_arc due, event_silent awake.high] <;> rw [sampleArc_before h]
    · rfl
    · exact awake.noReports
  · have ⟨_, fresh, multiple, _⟩ := h
    have run := (exec_filterSample_cyc ⟨fresh, multiple⟩ level).trans (event_congr (qualifyCyc_third h).symm)
    cases level <;> exact run
  · have ⟨_, fresh, multiple, _⟩ := h
    have run := (exec_filterSample_arc ⟨fresh, multiple⟩ level).trans (event_congr (qualifyArc_third h).symm)
    cases level <;> exact run
  · exact event_idle awake (if_neg fun h => due ((sampleDue_iff s _).1 h))
  · exact event_idle awake (if_neg fun h => due ((sampleDue_iff s _).1 h))

/-- The sync enable, as the replies give it (R14). -/
theorem enabled_eq (x : SyncState) : (x != .disabled) = decide (x ≠ .disabled) := by
  cases x <;> rfl

theorem runPortStatus_badPort {q : Request} (bad : 8 ≤ q.b 0) (s : State) : runPortStatus q s = badField q 0 s := by
  rw [runPortStatus, asPort_none bad]

theorem runPortStatus_port {q : Request} {p : Port} (h : q.b 0 = p.val) (s : State) :
    runPortStatus q s = answer q (.portStatus p (portStatus s p)) s := by
  rw [runPortStatus, asPort_of h]

/-- Settles O55: each query answers from the state it finds. -/
theorem syncAndPortStatus : Obligations.SyncAndPortStatus := by
  unfold Obligations.SyncAndPortStatus
  refine ⟨fun s q rest offer kind payload => ?_, fun s q rest offer kind length => ⟨fun bad => ?_, fun p port => ?_⟩⟩
  · have run := request_next (run := runSyncStatus) offer kind (congrArg List.length payload) offer.noReports
    rw [← enabled_eq]
    exact run
  · have run := request_next (run := runPortStatus) offer kind length (by rw [runPortStatus_badPort bad]; exact offer.noReports)
    rw [runPortStatus_badPort bad] at run
    exact run
  · have run := request_next (run := runPortStatus) offer kind length (by rw [runPortStatus_port port]; exact offer.noReports)
    rw [runPortStatus_port port, portStatus] at run
    simp only [State.legCount, List.countP_eq_length_filter] at run
    exact run

end Sys2Proof.CellTime
end

section
/-! SUPPORT. SET_SYNC (R14): the parameters, and what the enable makes of the sync state. -/

namespace Sys2Proof.CellTime

open Sys2Proof.Machine Sys2Proof.Safety Sys2Proof.Laws

/-! ### The sampling interval -/

theorem nearestInterval_mem (v : Nat) :
    nearestInterval v = 8 ∨ nearestInterval v = 16 ∨ nearestInterval v = 32 ∨ nearestInterval v = 64 := by
  unfold nearestInterval
  split_ifs <;> simp

/-- No interval is nearer, and of two equally near the larger is taken. -/
theorem nearestInterval_nearest (v i : Nat) (h : i = 8 ∨ i = 16 ∨ i = 32 ∨ i = 64) :
    Int.natAbs ((nearestInterval v : Int) - v) ≤ Int.natAbs ((i : Int) - v) ∧
      (Int.natAbs ((nearestInterval v : Int) - v) = Int.natAbs ((i : Int) - v) → i ≤ nearestInterval v) := by
  unfold nearestInterval
  rcases h with rfl | rfl | rfl | rfl <;> split_ifs <;> omega

@[simp] theorem setInterval_interval (v : Nat) (f : LineFilter) : (f.setInterval v).interval = v := by
  unfold LineFilter.setInterval
  split
  · next h => exact h
  · rfl

theorem setInterval_accepted (v : Nat) (f : LineFilter) : (f.setInterval v).accepted = f.accepted := by
  unfold LineFilter.setInterval; split <;> rfl

/-- The interval in force leaves the filter. -/
theorem setInterval_same {v : Nat} {f : LineFilter} (h : v = f.interval) : f.setInterval v = f := if_pos h.symm

/-- Another interval clears the count (R5). -/
theorem setInterval_count {v : Nat} {f : LineFilter} (h : v ≠ f.interval) : (f.setInterval v).count = 0 := by
  rw [LineFilter.setInterval, if_neg (Ne.symm h)]

/-! ### The enable -/

/-- The sync state after the enable has acted on it (R14). -/
def syncAfterEnable (enable : Bool) (x : SyncState) : SyncState :=
  if enable then if x = .disabled then .acquiring else x else .disabled

/-- The part is enabled exactly when the enable says so. -/
theorem syncAfterEnable_enabled (enable : Bool) (x : SyncState) : (syncAfterEnable enable x != .disabled) = enable := by
  cases enable <;> cases x <;> rfl

/-- The cycle timer after the enable: a change of state clears marks, runs and the next-cycle adjustment. -/
def enabledTimer (enable : Bool) (x : Timer) : Timer :=
  if syncAfterEnable enable x.sync = x.sync then x
  else { clearMarks x with sync := syncAfterEnable enable x.sync }

theorem enabledTimer_sync (enable : Bool) (x : Timer) :
    (enabledTimer enable x).sync = syncAfterEnable enable x.sync := by
  unfold enabledTimer
  split
  · next h => exact h.symm
  · rfl

theorem enabledTimer_same {enable : Bool} {x : Timer} (h : (enabledTimer enable x).sync = x.sync) :
    enabledTimer enable x = x := if_pos ((enabledTimer_sync enable x).symm.trans h)

theorem enabledTimer_change {enable : Bool} {x : Timer} (h : (enabledTimer enable x).sync ≠ x.sync) :
    enabledTimer enable x = { clearMarks x with sync := syncAfterEnable enable x.sync } :=
  if_neg fun e => h ((enabledTimer_sync enable x).trans e)

theorem enabledTimer_others (enable : Bool) (x : Timer) :
    { enabledTimer enable x with
      sync := x.sync, currentMark := x.currentMark, nextMark := x.nextMark, realigned := x.realigned, outRun := x.outRun
      missRun := x.missRun, adjust := x.adjust } = x := by
  unfold enabledTimer
  split <;> rfl

/-- An enable that changes no state changes nothing. -/
theorem setEnable_same {enable : Bool} {s : State} (h : syncAfterEnable enable s.timer.sync = s.timer.sync) :
    setEnable enable s = s := by
  unfold setEnable
  cases enable with
  | true =>
    have on : s.timer.sync ≠ .disabled := fun e => by rw [e] at h; exact absurd h (by decide)
    rw [if_pos rfl, if_neg on]
  | false =>
    have off : s.timer.sync = .disabled := h.symm
    rw [if_neg Bool.false_ne_true, if_pos off]

/-- One that changes the state raises SYNC_STATE (R6). -/
theorem setEnable_change {enable : Bool} {s : State} (h : syncAfterEnable enable s.timer.sync ≠ s.timer.sync) :
    setEnable enable s =
      raise srcSync s.timer.cycle (.syncState (syncAfterEnable enable s.timer.sync) s.timer.sync s.phase)
        (s.modTimer fun x => { clearMarks x with sync := syncAfterEnable enable s.timer.sync }) := by
  have change {new : SyncState} (k : s.timer.sync ≠ new) : changeSync new (s.modTimer clearMarks) =
      raise srcSync s.timer.cycle (.syncState new s.timer.sync s.phase)
        (s.modTimer fun x => { clearMarks x with sync := new }) := changeSync_other (s := s.modTimer clearMarks) k
  unfold setEnable
  cases enable with
  | true =>
    have off : s.timer.sync = .disabled := by
      by_contra on
      exact h (by simp [syncAfterEnable, on])
    rw [if_pos rfl, if_pos off, change (by rw [off]; decide)]
    simp [syncAfterEnable, off]
  | false =>
    have on : s.timer.sync ≠ .disabled := fun off => h off.symm
    rw [if_neg Bool.false_ne_true, if_neg on, change on]
    rfl

theorem setEnable_timer (enable : Bool) (s : State) : (setEnable enable s).timer = enabledTimer enable s.timer := by
  unfold enabledTimer
  split
  · next h => rw [setEnable_same h]
  · next h => rw [setEnable_change h]; rfl

theorem setEnable_inbox (enable : Bool) (s : State) : (setEnable enable s).fault = s.fault := by
  by_cases h : syncAfterEnable enable s.timer.sync = s.timer.sync
  · rw [setEnable_same h]
  · rw [setEnable_change h]; rfl

/-- What the enable makes of the link: SYNC_STATE is raised exactly where the state changes. -/
structure EnableLink (s u : State) : Prop where
  queues : (u.mgmt.inbound, u.mgmt.outbound, u.mgmt.serial) = (s.mgmt.inbound, s.mgmt.outbound, s.mgmt.serial)
  silent : u.timer.sync = s.timer.sync → u.mgmt = s.mgmt
  notice : u.timer.sync ≠ s.timer.sync → s.mgmt.sources[srcSync].number ≠ 0 →
    ∃ n ∈ u.mgmt.sources[srcSync].pending, n.cycle = s.timer.cycle ∧ n.data = .syncState u.timer.sync s.timer.sync s.phase
  unrouted : u.timer.sync ≠ s.timer.sync → s.mgmt.sources[srcSync].number = 0 →
    u.mgmt.unrouted = satInc s.mgmt.unrouted
  otherSources : ∀ i : Fin 12, i ≠ 0 → u.mgmt.sources[i] = s.mgmt.sources[i]
  rest : { u with timer := s.timer, mgmt := s.mgmt } = s

theorem setEnable_link (enable : Bool) (s : State) : EnableLink s (setEnable enable s) := by
  by_cases h : syncAfterEnable enable s.timer.sync = s.timer.sync
  · rw [setEnable_same h]
    exact ⟨rfl, fun _ => rfl, fun change => absurd rfl change, fun change => absurd rfl change, fun _ _ => rfl, rfl⟩
  · rw [setEnable_change h]
    have kept := raise_keeps srcSync s.timer.cycle (.syncState (syncAfterEnable enable s.timer.sync) s.timer.sync s.phase)
      (s.modTimer fun x => { clearMarks x with sync := syncAfterEnable enable s.timer.sync })
    refine ⟨?_, fun same => absurd same h, fun _ routed => ?_, fun _ off => ?_, fun i hi => ?_, rfl⟩
    · rw [kept.inbound, kept.outbound, kept.serial]; rfl
    · exact raise_pending (s := s.modTimer _) routed _ _
    · rw [raise_unrouted (s := s.modTimer _) off]; rfl
    · exact raise_otherSource hi _ _ _

/-! ### The request -/

/-- The cycle timer with the parameters of the request (R14). -/
def appliedSync (q : Request) (x : Timer) : Timer :=
  { x with
    lambda := clamp 1 4095 (q.field 1 2), sigma := clamp 0 64 (q.b 3), holdLimit := clamp 1 255 (q.b 4)
    cyc := x.cyc.setInterval (nearestInterval (q.b 5)) }

theorem runSetSync_bit {q : Request} (h : q.b 0 ≤ 1) (s : State) :
    let u := setEnable (q.b 0 == 1) (s.modTimer (appliedSync q))
    runSetSync q s = answer q (.syncSet (syncSettings u.timer)) u := by
  rw [runSetSync, if_neg (by simp [isBit, h])]
  rfl

theorem runSetSync_notBit {q : Request} (h : 1 < q.b 0) (s : State) : runSetSync q s = badField q 0 s := by
  rw [runSetSync, if_pos (by simp [isBit]; omega)]

/-- SET_SYNC has applied these parameters and this enable between two states, the request being taken (R14). -/
structure SyncApplied (s u : State) (enable : Bool) (lambda sigma holdLimit interval : Nat) : Prop where
  lambda : u.timer.lambda = lambda
  sigma : u.timer.sigma = sigma
  holdLimit : u.timer.holdLimit = holdLimit
  cyc : u.timer.cyc = s.timer.cyc.setInterval (nearestInterval interval)
  sync : u.timer.sync = syncAfterEnable enable s.timer.sync
  cleared : u.timer.sync ≠ s.timer.sync →
    u.timer.currentMark = false ∧ u.timer.nextMark = false ∧ u.timer.realigned = false ∧ u.timer.outRun = 0 ∧
      u.timer.missRun = 0 ∧ u.timer.adjust = 0
  kept : u.timer.sync = s.timer.sync →
    (u.timer.currentMark, u.timer.nextMark, u.timer.realigned, u.timer.outRun, u.timer.missRun, u.timer.adjust) =
      (s.timer.currentMark, s.timer.nextMark, s.timer.realigned, s.timer.outRun, s.timer.missRun, s.timer.adjust)
  others : (u.timer.grain, u.timer.n, u.timer.nextN, u.timer.cycle, u.timer.start, u.timer.endE, u.timer.lastStrobe) =
    (s.timer.grain, s.timer.n, s.timer.nextN, s.timer.cycle, s.timer.start, s.timer.endE, s.timer.lastStrobe)

theorem setEnable_applied (q : Request) (rest : List Request) (enable : Bool) (s : State) :
    SyncApplied s (setEnable enable ((took rest s).modTimer (appliedSync q))) enable (clamp 1 4095 (q.field 1 2))
      (clamp 0 64 (q.b 3)) (clamp 1 255 (q.b 4)) (q.b 5) := by
  have timer := setEnable_timer enable ((took rest s).modTimer (appliedSync q))
  have others := timer ▸ enabledTimer_others enable (appliedSync q s.timer)
  refine ⟨(congrArg Timer.lambda others :), (congrArg Timer.sigma others :), (congrArg Timer.holdLimit others :),
    (congrArg Timer.cyc others :), timer ▸ enabledTimer_sync enable _, fun change => ?_, fun same => ?_,
    (congrArg (fun x : Timer => (x.grain, x.n, x.nextN, x.cycle, x.start, x.endE, x.lastStrobe)) others :)⟩
  · rw [timer] at change ⊢
    rw [enabledTimer_change change]
    exact ⟨rfl, rfl, rfl, rfl, rfl, rfl⟩
  · rw [timer] at same ⊢
    rw [enabledTimer_same same]
    rfl

/-- SET_SYNC carried out: the parameters, the enable and the reply (R14). -/
theorem exec_setSync {s : State} {q : Request} {rest : List Request} (offer : Offers s q rest) (kind : q.kind = 0x04)
    (length : q.payload.length = 6) (bit : q.b 0 ≤ 1) :
    let u := setEnable (q.b 0 == 1) ((took rest s).modTimer (appliedSync q))
    exec .setSync s = .next (answer q (.syncSet (syncSettings u.timer)) u) := by
  have run := request_next (run := runSetSync) offer kind length
    (by rw [runSetSync_bit bit, answer_fault, setEnable_inbox]; exact offer.noReports)
  rw [runSetSync_bit bit] at run
  exact run

theorem exec_setSync_badEnable {s : State} {q : Request} {rest : List Request} (offer : Offers s q rest)
    (kind : q.kind = 0x04) (length : q.payload.length = 6) (bad : 1 < q.b 0) :
    exec .setSync s = .next (replied q rest (.badField 0) s) := by
  have run := request_next (run := runSetSync) offer kind length (by rw [runSetSync_notBit bad]; exact offer.noReports)
  rw [runSetSync_notBit bad] at run
  exact run

/-- The reply to SET_SYNC, behind the records that wait (R14, R175). -/
theorem setSync_outbound {s u : State} {q : Request}
    (queues : u.mgmt.outbound = s.mgmt.outbound ∧ u.mgmt.serial = s.mgmt.serial) (kind : q.kind = 0x04) {enable : Bool} (enabled : (u.timer.sync != .disabled) = enable) :
    (answer q (.syncSet (syncSettings u.timer)) u).mgmt.outbound = s.mgmt.outbound ++ [⟨s.mgmt.serial, .reply 0x84 q.tag
      (.syncSet ⟨u.timer.lambda, u.timer.sigma, u.timer.holdLimit, u.timer.cyc.interval, enable, u.timer.sync⟩)⟩] := by
  have reply : replyKind q.kind = 0x84 := by rw [kind]; rfl
  rw [← queues.1, ← queues.2, ← enabled, ← reply]
  rfl

/-- Settles O14: the parameters' figures, then the enable by whether it changes the state. -/
theorem setSyncAppliesTheParameters : Obligations.SetSyncAppliesTheParameters := by
  unfold Obligations.SetSyncAppliesTheParameters
  intro s q rest enable l1 l0 sigma hold interval offer kind payload
  have length : q.payload.length = 6 := congrArg List.length payload
  have b0 : q.b 0 = enable.toNat := by simp [Request.b, payload]
  have b3 : q.b 3 = sigma.toNat := by simp [Request.b, payload]
  have b4 : q.b 4 = hold.toNat := by simp [Request.b, payload]
  have b5 : q.b 5 = interval.toNat := by simp [Request.b, payload]
  have f1 : q.field 1 2 = l1.toNat * 256 + l0.toNat := by simp [Request.field, payload, beValue]
  have on : (q.b 0 == 1) = (enable == 1) := by rw [b0, Bool.eq_iff_iff, beq_iff_eq, beq_iff_eq]; bv_omega
  refine ⟨fun bad => exec_setSync_badEnable offer kind length (b0 ▸ bad), fun bit => ?_⟩
  have run := exec_setSync offer kind length (b0 ▸ bit)
  have link := setEnable_link (q.b 0 == 1) ((took rest s).modTimer (appliedSync q))
  have applied := setEnable_applied q rest (q.b 0 == 1) s
  generalize setEnable (q.b 0 == 1) ((took rest s).modTimer (appliedSync q)) = u at run link applied
  rw [f1, b3, b4, b5, on] at applied
  have interval' : u.timer.cyc.interval = nearestInterval interval.toNat := by rw [applied.cyc, setInterval_interval]
  have queues : u.mgmt.outbound = s.mgmt.outbound ∧ u.mgmt.serial = s.mgmt.serial :=
    ⟨(congrArg (·.2.1) link.queues :), (congrArg (·.2.2) link.queues :)⟩
  refine ⟨_, run, applied.lambda, applied.sigma.trans ?_, applied.holdLimit.trans ?_, fun v hv => ?_, ?_, ?_, fun same => ?_,
    fun other => ?_, fun one off => ?_, fun one running => ?_, fun zero => ?_, applied.cleared, applied.kept,
    applied.others, (congrArg (·.1) link.queues :), fun same => ?_, link.notice, link.unrouted, link.otherSources, ?_, ?_⟩
  · rw [clamp, Nat.zero_max]
  · rw [clamp, Nat.min_eq_right (by omega)]
  · rw [answer_timer, interval']; exact nearestInterval_nearest _ _ hv
  · rw [answer_timer, interval']; exact nearestInterval_mem _
  · exact (congrArg LineFilter.accepted applied.cyc).trans (setInterval_accepted _ _)
  · exact applied.cyc.trans (setInterval_same (interval'.symm.trans same))
  · exact (congrArg LineFilter.count applied.cyc).trans (setInterval_count fun e => other (interval'.trans e))
  · exact applied.sync.trans (by rw [one, off]; rfl)
  · exact applied.sync.trans (by rw [one]; exact if_neg running)
  · exact applied.sync.trans (by rw [zero]; rfl)
  · have mgmt := link.silent same
    exact ⟨(congrArg MgmtLink.sources mgmt :), (congrArg MgmtLink.unrouted mgmt :)⟩
  · exact setSync_outbound queues kind (by rw [applied.sync, syncAfterEnable_enabled])
  · exact (congrArg (fun x : State => { x with timer := s.timer, mgmt := s.mgmt }) link.rest :)

end Sys2Proof.CellTime
end

section
/-! SUPPORT. The commands of a port that leave its egress alone: SET_FILTER (R35), CLEAR_FLAGS (R37) and the start of a
reception with the VLAN filter it meets at its end (R31, R34). -/

namespace Sys2Proof.PortLaws

open Sys2Proof.Machine Sys2Proof.Safety Sys2Proof.Laws Sys2Proof.CellTime

/-! ### Ports and requests -/

@[simp] theorem isBit_eq (v : Nat) : isBit v = decide (v ≤ 1) := rfl

/-- A payload byte below 8 is a port. -/
theorem exists_asPort {v : Nat} (h : v < 8) : ∃ p : Port, asPort v = some p := ⟨⟨v, h⟩, asPort_of rfl⟩

/-- A request that ends in a BAD_FIELD alone. -/
theorem request_badField {s : State} {q : Request} {rest : List Request} {kind : Byte} {len offset : Nat}
    {run : Request → State → State} (offer : Offers s q rest) (hk : q.kind = kind) (hl : q.payload.length = len)
    (h : run q (took rest s) = badField q offset (took rest s)) :
    event (taking kind len run) s = .next (replied q rest (.badField offset) s) := by
  rw [request_next offer hk hl (by rw [h]; exact offer.noReports), h, badField_took]

/-! ### SET_FILTER (R35) -/

/-- The filter that a SET_FILTER request gives a port. -/
def filtered (q : Request) (u : PortUnit) : PortUnit :=
  { u with untaggedAllowed := q.b 1 == 1, windows := Vector.ofFn fun i => q.window i.val }

theorem runSetFilter_port {q : Request} (h : 8 ≤ q.b 0) (s : State) : runSetFilter q s = badField q 0 s := by
  rw [runSetFilter, asPort_none h]

theorem runSetFilter_untagged {q : Request} (h : q.b 0 < 8) (bad : 1 < q.b 1) (s : State) :
    runSetFilter q s = badField q 1 s := by
  obtain ⟨p, hp⟩ := exists_asPort h
  rw [runSetFilter, hp]
  exact if_pos (by simp [bad])

theorem runSetFilter_enable {q : Request} {offset : Nat} (h : q.b 0 < 8) (one : q.b 1 ≤ 1)
    (bad : q.badEnable = some offset) (s : State) : runSetFilter q s = badField q offset s := by
  obtain ⟨p, hp⟩ := exists_asPort h
  rw [runSetFilter, hp]
  simp [one, bad]

theorem runSetFilter_accepted {q : Request} {p : Port} (h : q.b 0 = p.val) (one : q.b 1 ≤ 1)
    (good : q.badEnable = none) (s : State) :
    runSetFilter q s = answer q (.filterSet p (q.b 1 == 1)
      ((s.modPort p (filtered q)).ports[p].windows.toList.map fun w => (w, w.last))) (s.modPort p (filtered q)) := by
  rw [runSetFilter, asPort_of h]
  simp only [isBit_eq, one, decide_true, Bool.not_true, good]
  rfl

/-- The first enable that is neither 0 nor 1 is the one named (log entry 32). -/
theorem badEnable_first {q : Request} {i : Fin 8} (bad : 1 < q.b (6 + 5 * i.val))
    (before : ∀ j : Fin 8, j < i → q.b (6 + 5 * j.val) ≤ 1) : q.badEnable = some (6 + 5 * i.val) := by
  have split : List.range 8 = List.range i.val ++ i.val :: (List.range' (i.val + 1) (7 - i.val)) := by
    clear bad before; revert i; decide
  rw [Request.badEnable, split, List.map_append, List.find?_append, List.map_cons, List.find?_cons_of_pos (by simpa using bad),
    List.find?_eq_none.2, Option.none_or]
  intro o ho
  obtain ⟨j, hj, rfl⟩ := List.mem_map.1 ho
  have hj := List.mem_range.1 hj
  have := before ⟨j, by omega⟩ hj
  simpa using this

theorem badEnable_none {q : Request} (good : ∀ i : Fin 8, q.b (6 + 5 * i.val) ≤ 1) : q.badEnable = none := by
  rw [Request.badEnable, List.find?_eq_none]
  intro o ho
  obtain ⟨j, hj, rfl⟩ := List.mem_map.1 ho
  have := good ⟨j, List.mem_range.1 hj⟩
  simpa using this

/-- The figures of a window as R35 gives them. -/
theorem window_eq (q : Request) (i : Nat) : q.window i =
    ⟨min 4080 (16 * (q.field (2 + 5 * i) 2 / 16)),
      16 * ((max 16 (min 4096 (q.field (4 + 5 * i) 2)) + 15) / 16), q.b (6 + 5 * i) == 1⟩ := by
  simp [Request.window, adjustWindow, clamp, ceilDiv, Nat.mul_comm]

/-! ### CLEAR_FLAGS (R37) -/

theorem runClearFlags_port {q : Request} (h : 8 ≤ q.b 0) (s : State) : runClearFlags q s = badField q 0 s := by
  rw [runClearFlags, asPort_none h]

/-- The port with the named flags cleared. -/
def cleared (q : Request) (u : PortUnit) : PortUnit := { u with flags := u.flags &&& ~~~(BitVec.ofNat 6 (q.b 1)) }

theorem runClearFlags_accepted {q : Request} {p : Port} (h : q.b 0 = p.val) (s : State) :
    runClearFlags q s =
      answer q (.flags p (s.modPort p (cleared q)).ports[p].flags) (s.modPort p (cleared q)) := by
  rw [runClearFlags, asPort_of h]
  rfl

/-- Settles O24: each check of SET_FILTER in its turn, and each request's one change of its port. -/
theorem setFilterAndClearFlags : Obligations.SetFilterAndClearFlags := by
  unfold Obligations.SetFilterAndClearFlags
  refine ⟨fun s q rest offer kind length => ⟨fun bad => ?_, fun port bad => ?_, fun i port one bad before => ?_,
    fun p port one good => ?_⟩, fun s q rest offer kind length => ⟨fun bad => ?_, fun p port => ?_⟩⟩
  · exact request_badField offer kind length (runSetFilter_port bad _)
  · exact request_badField offer kind length (runSetFilter_untagged port bad _)
  · exact request_badField offer kind length (runSetFilter_enable port one (badEnable_first bad before) _)
  · have accepted := runSetFilter_accepted port one (badEnable_none good) (took rest s)
    have run := request_next (run := runSetFilter) offer kind length (by rw [accepted]; exact offer.noReports)
    rw [accepted] at run
    have reply : replyKind q.kind = 0x89 := by rw [kind]; rfl
    refine ⟨_, run, ?_, fun i => ?_, ?_, fun e other => upd_other _ _ _ _ other, rfl, rfl, by rw [← reply]; rfl⟩
    · simp [filtered]
    · simp [filtered, window_eq]
    · simp [filtered]
  · exact request_badField offer kind length (runClearFlags_port bad _)
  · have accepted := runClearFlags_accepted port (took rest s)
    have run := request_next (run := runClearFlags) offer kind length (by rw [accepted]; exact offer.noReports)
    rw [accepted] at run
    have reply : replyKind q.kind = 0x8A := by rw [kind]; rfl
    refine ⟨_, run, fun k hk => ?_, ?_, fun e other => upd_other _ _ _ _ other, rfl, rfl, by rw [← reply]; rfl⟩
    · rw [answer_ports, State.modPort_ports, upd_get, if_pos rfl, cleared, BitVec.getLsbD_and, BitVec.getLsbD_not,
        BitVec.getLsbD_ofNat, BitVec.getLsbD_ofNat]
      simp [hk, show k < 8 by omega]
    · simp [cleared]

/-! ### RECEPTION_START (R31) and the VLAN filter (R34) -/

/-- A window covers a VID from its base to the lesser of its end and 4095 (section 2.6). -/
theorem covers_iff (w : VlanWindow) (v : Nat) :
    w.covers v = true ↔ w.enable = true ∧ w.base ≤ v ∧ v ≤ w.base + w.size - 1 ∧ v ≤ 4095 := by
  simp [VlanWindow.covers, and_assoc]

theorem filterPasses_iff (u : PortUnit) (f : RxFrame) :
    filterPasses u f = true ↔
      ((∀ i : Fin 8, u.windows[i].enable = false) ∨
       (∃ v, frameVlan f = some v ∧ ∃ i : Fin 8, u.windows[i].covers v = true) ∨
       (frameVlan f = none ∧ u.untaggedAllowed = true)) := by
  have off : (u.windows.all fun w => !w.enable) = true ↔ ∀ i : Fin 8, u.windows[i].enable = false := by
    simp [Vector.all_eq_true, Fin.forall_iff]
  have hit (v : Nat) : (u.windows.any fun w => w.covers v) = true ↔ ∃ i : Fin 8, u.windows[i].covers v = true := by
    simp [Vector.any_eq_true, Fin.exists_iff]
  unfold filterPasses
  split
  · next h => exact ⟨fun _ => .inl (off.1 h), fun _ => rfl⟩
  · next h =>
    have on : ¬∀ i : Fin 8, u.windows[i].enable = false := fun all => h (off.2 all)
    cases hv : frameVlan f with
    | none => simp only [on, false_or, reduceCtorEq, false_and, exists_false, true_and]
    | some v => simp only [on, false_or, Option.some.injEq, hit, exists_eq_left', reduceCtorEq, false_and, or_false]

/-- Settles O27: a reception begins on an UP link alone, and the filter by its windows. -/
theorem receptionStartAndTheVlanFilter : Obligations.ReceptionStartAndTheVlanFilter := by
  unfold Obligations.ReceptionStartAndTheVlanFilter
  refine ⟨fun s p awake => ⟨fun up free => ?_, fun down => ?_⟩, fun u f => ?_⟩
  · have begins : (s.ports[p].link != .down && s.ports[p].receiving.isNone) = true := by
      rw [free]; simpa using up
    have run : exec (.receptionStart p) s = .next (s.modPort p fun u => { u with receiving := some s.timer.grain }) := by
      refine (event_congr (if_pos begins)).trans ?_
      exact event_silent (f := fun s : State => s.modPort p fun u => { u with receiving := some s.timer.grain }) awake.high awake.noReports
    exact ⟨_, run, upd_same _ _ _, fun e other => upd_other _ _ _ _ other, rfl⟩
  · exact event_idle awake (if_neg (by rw [down]; simp))
  · simp only [filterPasses_iff, covers_iff]

end Sys2Proof.PortLaws
end

section
/-! SUPPORT. A change of noise state (R147), a receive fault with its upward test (R140, R141), and FRAME_END of a frame that an
ingress cause of the port drops (R32, R33). -/

namespace Sys2Proof.PortLaws

open Sys2Proof.Machine Sys2Proof.Safety Sys2Proof.Laws Sys2Proof.CellTime

/-! ### Tables -/

/-- Two changes of one entry of a table. -/
theorem upd_upd {α : Type} {n : Nat} (v : Table α n) (i : Fin n) (f g : α → α) :
    Table.upd (Table.upd v i f) i g = Table.upd v i fun x => g (f x) := by
  simp [Table.upd]

/-- A change that leaves the entry it finds. -/
theorem upd_id {α : Type} {n : Nat} {v : Table α n} {i : Fin n} {f : α → α} (h : f v[i] = v[i]) : Table.upd v i f = v := by
  rw [Table.upd, h]
  simp

/-- The flags of a port after one was set are those before and, where the mask has it, the one set (R36). -/
theorem flags_getLsbD (x : Flag) (flags mask : BitVec 6) (k : Nat) :
    (flags ||| (x.bit &&& mask)).getLsbD k = (flags.getLsbD k || (x.bit.getLsbD k && mask.getLsbD k)) := by
  rw [BitVec.getLsbD_or, BitVec.getLsbD_and]

/-- A port unit with one flag set, where the mask has it (R36). -/
def flagging (x : Flag) (u : PortUnit) : PortUnit := { u with flags := u.flags ||| (x.bit &&& u.flagMask) }

@[simp] theorem setFlag_ports (p : Port) (x : Flag) (s : State) :
    (setFlag p x s).ports = Table.upd s.ports p (flagging x) := rfl

/-- A port unit with one counter raised. -/
def counting (c : PortCounter) (u : PortUnit) : PortUnit := { u with counters := Table.upd u.counters c.index satInc }

@[simp] theorem bumpPort_ports (p : Port) (c : PortCounter) (s : State) :
    (bumpPort p c s).ports = Table.upd s.ports p (counting c) := rfl

/-! ### A change of noise state (R147) -/

/-- What the entry of DISTURBED does to the port unit (R147). -/
def entering (u : PortUnit) : PortUnit := counting .disturbedEntries (flagging .noiseDisturbed u)

/-- The monitor of a port that takes a noise state. -/
def changed (new : NoiseState) (m : Monitor) : Monitor := { m with state := new, quiet := 0, calm := 0 }

/-- A change of noise state: the monitor, the entry's flag and counter, and the notice (R147). -/
structure NoiseChanged (p : Port) (new : NoiseState) (cause : NoiseCause) (s t : State) : Prop where
  noise : t.noise = Table.upd s.noise p (changed new)
  ports : t.ports = if new = .disturbed then Table.upd s.ports p entering else s.ports
  mgmt : t.mgmt = (raise (srcPort p) s.timer.cycle
    (.noiseState p new s.noise[p].state cause s.noise[p].count s.phase) s).mgmt
  rest : { t with noise := s.noise, ports := s.ports, mgmt := s.mgmt } = s

theorem noiseChangeNow_changed (p : Port) (new : NoiseState) (cause : NoiseCause) (s : State) :
    NoiseChanged p new cause s (noiseChangeNow p new cause s) := by
  unfold noiseChangeNow noiseChange
  dsimp only
  split
  · next h => exact ⟨rfl, (upd_upd s.ports p (flagging .noiseDisturbed) (counting .disturbedEntries)).trans (if_pos h).symm, rfl, rfl⟩
  · next h => exact ⟨rfl, (if_neg h).symm, rfl, rfl⟩

/-! ### A receive fault (R140, R141) -/

/-- The monitor after a receive fault and before the upward test: its count, and the streak that the fault breaks (R140,
R143, R144). -/
def struck (u : PortUnit) (m : Monitor) : Monitor :=
  match m.state with
  | .clean => { m with count := min 65535 (m.count + 1) }
  | .watch =>
    { m with count := min 65535 (m.count + 1), calm := if u.thetaW ≤ min 65535 (m.count + 1) then 0 else m.calm }
  | .disturbed => { m with count := min 65535 (m.count + 1), quiet := 0 }

/-- The noise state that the upward test takes a port to, if any (R141). -/
def upward (u : PortUnit) (m : Monitor) : Option NoiseState :=
  match m.state with
  | .clean => if u.thetaD ≤ m.count then some .disturbed else if u.thetaW ≤ m.count then some .watch else none
  | .watch => if u.thetaD ≤ m.count then some .disturbed else none
  | .disturbed => none

theorem upwardTest_eq (p : Port) (s : State) :
    upwardTest p s = (upward s.ports[p] s.noise[p]).elim s fun new => noiseChangeNow p new .faultCount s := by
  unfold upwardTest upward
  dsimp only
  cases s.noise[p].state with
  | clean => dsimp only; split <;> [rfl; (split <;> rfl)]
  | watch => dsimp only; split <;> rfl
  | disturbed => rfl

theorem receiveFault_eq (p : Port) (s : State) :
    receiveFault p s = upwardTest p (s.modNoise p (struck s.ports[p])) := by
  unfold receiveFault
  simp only [State.modNoise, upd_upd]
  congr 3
  funext m
  unfold struck
  cases h : m.state with
  | clean => rfl
  | watch => dsimp only; by_cases c : s.ports[p].thetaW ≤ min 65535 (m.count + 1) <;> simp only [c, if_true, if_false]
  | disturbed => rfl

/-- The monitor after a receive fault and its upward test. -/
def afterFault (u : PortUnit) (m : Monitor) : Monitor :=
  (upward u (struck u m)).elim (struck u m) fun new => changed new (struck u m)

theorem receiveFault_monitor (p : Port) (s : State) :
    (receiveFault p s).noise = Table.upd s.noise p (afterFault s.ports[p]) := by
  rw [receiveFault_eq, upwardTest_eq]
  simp only [State.modNoise_ports, State.modNoise_noise, upd_get, if_true]
  cases h : upward s.ports[p] (struck s.ports[p] s.noise[p]) with
  | none => simp only [Table.upd, afterFault, h, Option.elim, State.modNoise]
  | some new =>
    simp only [Option.elim, (noiseChangeNow_changed p new .faultCount _).noise, State.modNoise_noise, upd_upd]
    simp only [Table.upd, afterFault, h, Option.elim]

/-- What a receive fault leaves and changes besides the monitor: the entry of DISTURBED is flagged and counted, and every
change of state raises NOISE_STATE (R147). -/
structure Struck (p : Port) (s t : State) : Prop where
  rest : { t with noise := s.noise, ports := s.ports, mgmt := s.mgmt } = s
  entered : t.noise[p].state = .disturbed ∧ s.noise[p].state ≠ .disturbed → t.ports = Table.upd s.ports p entering
  stayed : ¬(t.noise[p].state = .disturbed ∧ s.noise[p].state ≠ .disturbed) → t.ports = s.ports
  notice : t.noise[p].state ≠ s.noise[p].state → s.mgmt.sources[srcPort p].number ≠ 0 →
    ∃ n ∈ t.mgmt.sources[srcPort p].pending, n.cycle = s.timer.cycle ∧
      n.data = .noiseState p t.noise[p].state s.noise[p].state .faultCount (min 65535 (s.noise[p].count + 1)) s.phase

@[simp] theorem struck_state (u : PortUnit) (m : Monitor) : (struck u m).state = m.state := by
  unfold struck; split <;> rfl

@[simp] theorem struck_count (u : PortUnit) (m : Monitor) : (struck u m).count = min 65535 (m.count + 1) := by
  unfold struck; split <;> rfl

/-- The upward test changes the state, and not from DISTURBED. -/
theorem upward_ne {u : PortUnit} {m : Monitor} {new : NoiseState} (h : upward u m = some new) :
    new ≠ m.state ∧ m.state ≠ .disturbed := by
  unfold upward at h
  cases hm : m.state with
  | clean => rw [hm] at h; dsimp only at h; split at h <;> [skip; split at h] <;> cases h <;> decide
  | watch => rw [hm] at h; dsimp only at h; split at h <;> cases h; decide
  | disturbed => rw [hm] at h; cases h

theorem NoiseChanged.struck {p : Port} {new : NoiseState} {s t : State} (free : s.noise[p].state ≠ .disturbed)
    (h : NoiseChanged p new .faultCount (s.modNoise p (struck s.ports[p])) t) : Struck p s t := by
  have state : t.noise[p].state = new := by rw [h.noise, upd_get, if_pos rfl]; rfl
  have notice (routed : s.mgmt.sources[srcPort p].number ≠ 0) := raise_pending
    (s := s.modNoise p (PortLaws.struck s.ports[p])) routed s.timer.cycle
    (.noiseState p new s.noise[p].state .faultCount (min 65535 (s.noise[p].count + 1)) s.phase)
  refine ⟨(congrArg (fun x : State => { x with noise := s.noise }) h.rest :),
    fun e => h.ports.trans (if_pos (state ▸ e.1)), fun e => h.ports.trans (if_neg fun d => e ⟨state.trans d, free⟩),
    fun _ routed => ?_⟩
  rw [h.mgmt, state]
  simpa only [State.modNoise_noise, State.modNoise_timer, State.phase, upd_get, if_true, struck_state, struck_count]
    using notice routed

theorem receiveFault_struck (p : Port) (s : State) : Struck p s (receiveFault p s) := by
  have monitor : (receiveFault p s).noise[p] = afterFault s.ports[p] s.noise[p] := by
    rw [receiveFault_monitor, upd_get, if_pos rfl]
  unfold afterFault at monitor
  rw [receiveFault_eq, upwardTest_eq] at monitor ⊢
  simp only [State.modNoise_ports, State.modNoise_noise, upd_get, if_true] at monitor ⊢
  cases h : upward s.ports[p] (struck s.ports[p] s.noise[p]) with
  | none =>
    simp only [h, Option.elim] at monitor ⊢
    have same : (s.modNoise p (struck s.ports[p])).noise[p].state = s.noise[p].state := by rw [monitor, struck_state]
    exact ⟨rfl, fun e => absurd (same ▸ e.1) e.2, fun _ => rfl, fun change => absurd same change⟩
  | some new =>
    simp only [Option.elim]
    exact (noiseChangeNow_changed p new .faultCount _).struck (by simpa using (upward_ne h).2)

/-! ### FRAME_END of a frame that the port drops (R32, R33) -/

/-- The causes of priority 0 to 5 are codes 0 to 5. -/
theorem portCause_code {u : PortUnit} {f : RxFrame} {cause : Cause} (h : portCause u f = some cause) :
    cause = .symbol ∨ cause = .fcs ∨ cause = .runt ∨ cause = .oversize ∨ cause = .ingressOff ∨ cause = .filtered := by
  unfold portCause at h
  repeat' split at h
  all_goals first
    | cases h; done
    | (cases h; simp)

/-- A port unit that receives nothing. -/
def unreceiving (u : PortUnit) : PortUnit := { u with receiving := none }

/-- The drop of a frame at its port, but for the receive fault or the flag: the port's counter, and the report (R33). -/
abbrev portDropped (p : Port) (cause : Cause) (s : State) : State :=
  ingressDrop p cause none (s.modPort p unreceiving)

theorem portDropped_inbox {s : State} (h : s.fault.inbox = []) (p : Port) (cause : Cause) :
    ∃ r : Report, r.fields.cause = cause ∧ (portDropped p cause s).fault.inbox = [r] :=
  ⟨_, rfl, congrArg (· ++ [_]) h⟩

/-- The port after the drop. -/
theorem portDropped_port (p : Port) (cause : Cause) (s : State) : (portDropped p cause s).ports[p] =
    { s.ports[p] with
      receiving := none, counters := Table.upd s.ports[p].counters (PortCounter.ingress cause).index satInc } := by
  have ports : (portDropped p cause s).ports = Table.upd (Table.upd s.ports p _) p (counting (.ingress cause)) := rfl
  rw [ports, upd_upd, upd_get, if_pos rfl]
  rfl

theorem portDropped_otherPort {p e : Port} (h : e ≠ p) (cause : Cause) (s : State) :
    (portDropped p cause s).ports[e] = s.ports[e] :=
  (upd_other _ _ _ _ h).trans (upd_other _ _ _ _ h)

/-- The counters 0 to 18 of a port after a drop of cause 0 to 5: the cause's one rises (R155). -/
theorem upd_ingress {cause : Cause} (code : cause.code.val < 8) (v : Table Counter 21) (i : Fin 21) :
    (Table.upd v (PortCounter.ingress cause).index satInc)[i] =
      if i.val = cause.code.val + 1 then satInc v[i] else v[i] := by
  have index : (PortCounter.ingress cause).index = ⟨cause.code.val + 1, by omega⟩ := dif_pos code
  rw [upd_get, index]
  by_cases h : i.val = cause.code.val + 1
  · have : i = ⟨cause.code.val + 1, by omega⟩ := Fin.ext h
    rw [if_pos this, if_pos h, ← this]
  · rw [if_neg h, if_neg fun e => h (congrArg Fin.val e)]

/-- A frame with an ingress cause of the port ends: it is dropped, and its report is taken (R32, R33). -/
theorem exec_frameEnd_drop {s : State} {p : Port} {f : RxFrame} {start : Stamp} {cause : Cause} (awake : Awake s)
    (receiving : s.ports[p].receiving = some start) (h : portCause s.ports[p] f = some cause) :
    exec (.frameEnd p f) s =
      .next (takeReports (portDrop p cause (s.modPort p unreceiving))) := by
  have same : portCause (s.modPort p fun u => { u with receiving := none }).ports[p] f = some cause := by
    rw [State.modPort_ports, upd_get, if_pos rfl, ← h]; rfl
  refine (event_high awake.high _).trans (congrArg (fun t => Host.Outcome.next (takeReports t)) ?_)
  simp only [receiving, same]
  rfl

/-- What the drop's further effect leaves: all but the port's flags and counters from 19 on, the monitor and the link. -/
structure Further (p : Port) (w x : State) : Prop where
  rest : { x with ports := w.ports, noise := w.noise, mgmt := w.mgmt } = w
  receiving : x.ports[p].receiving = w.ports[p].receiving
  counters : ∀ i : Fin 21, i.val ≤ 18 → x.ports[p].counters[i] = w.ports[p].counters[i]
  others : ∀ e : Port, e ≠ p → x.ports[e] = w.ports[e] ∧ x.noise[e] = w.noise[e]

theorem receiveFault_further (p : Port) (w : State) : Further p w (receiveFault p w) := by
  have struck := receiveFault_struck p w
  have noise (e : Port) (h : e ≠ p) : (receiveFault p w).noise[e] = w.noise[e] := by
    rw [receiveFault_monitor, upd_other _ _ _ _ h]
  by_cases h : (receiveFault p w).noise[p].state = .disturbed ∧ w.noise[p].state ≠ .disturbed
  · have ports := struck.entered h
    refine ⟨struck.rest, ?_, fun i hi => ?_, fun e he => ⟨?_, noise e he⟩⟩
    · rw [ports, upd_get, if_pos rfl]; rfl
    · rw [ports, upd_get, if_pos rfl]
      exact upd_other _ _ _ _ fun e => by rw [e] at hi; revert hi; decide
    · rw [ports, upd_other _ _ _ _ he]
  · have ports := struck.stayed h
    exact ⟨struck.rest, by rw [ports], fun i _ => by rw [ports], fun e he => ⟨by rw [ports], noise e he⟩⟩

theorem setFlag_further (p : Port) (x : Flag) (w : State) : Further p w (setFlag p x w) := by
  refine ⟨rfl, ?_, fun i _ => ?_, fun e he => ⟨upd_other _ _ _ _ he, rfl⟩⟩
  · show (Table.upd w.ports p _)[p].receiving = _
    rw [upd_get, if_pos rfl]
  · show (Table.upd w.ports p _)[p].counters[i] = _
    rw [upd_get, if_pos rfl]

/-- The effects of R33 that every drop of cause 0 to 5 has. -/
structure Dropped (p : Port) (cause : Cause) (s t : State) : Prop where
  receiving : t.ports[p].receiving = none
  counters : ∀ i : Fin 21, i.val ≤ 18 → t.ports[p].counters[i] =
    if i.val = cause.code.val + 1 then satInc s.ports[p].counters[i] else s.ports[p].counters[i]
  device : t.deviceCounters = Table.upd s.deviceCounters (DeviceCounter.total cause).index satInc
  others : ∀ e : Port, e ≠ p → t.ports[e] = s.ports[e] ∧ t.noise[e] = s.noise[e]
  rest : { t with
    ports := s.ports, deviceCounters := s.deviceCounters, noise := s.noise, fault := s.fault, mgmt := s.mgmt } = s

theorem Further.dropped {p : Port} {cause : Cause} {s x : State} (code : cause.code.val < 8) (quiet : s.fault.inbox = [])
    (h : Further p (portDropped p cause s) x) : Dropped p cause s (takeReports x) := by
  have only := takeReports_only x
  have ports : (takeReports x).ports = x.ports := (congrArg State.ports only.rest :)
  obtain ⟨r, rcause, inbox⟩ := portDropped_inbox quiet p cause
  have fault : x.fault = (portDropped p cause s).fault := (congrArg State.fault h.rest :)
  have device : x.deviceCounters = s.deviceCounters := (congrArg State.deviceCounters h.rest :)
  refine ⟨?_, fun i hi => ?_, ?_, fun e he => ?_, ?_⟩
  · rw [ports, h.receiving, portDropped_port]
  · rw [ports, h.counters i hi, portDropped_port]
    exact upd_ingress code _ i
  · rw [takeReports_deviceCounters_one (fault ▸ inbox), rcause, device]
  · rw [ports, only.noise, (h.others e he).1, (h.others e he).2, portDropped_otherPort he]
    exact ⟨rfl, rfl⟩
  · exact (congrArg (fun y : State => { y with
      ports := s.ports, deviceCounters := s.deviceCounters, noise := s.noise, fault := s.fault, mgmt := s.mgmt })
      only.rest).trans (congrArg (fun y : State => { y with
      ports := s.ports, deviceCounters := s.deviceCounters, noise := s.noise, fault := s.fault, mgmt := s.mgmt }) h.rest)

/-- A port's notices are not the fault unit's (R176). -/
theorem srcPort_ne_srcFault (p : Port) : srcPort p ≠ srcFault := by revert p; decide

/-- The causes of a receive fault (R33, R140). -/
theorem portDrop_fault {cause : Cause} (h : cause = .symbol ∨ cause = .fcs ∨ cause = .runt) (p : Port) (s : State) :
    portDrop p cause s = receiveFault p (ingressDrop p cause none s) := by
  rcases h with rfl | rfl | rfl <;> rfl

theorem Further.refl (p : Port) (w : State) : Further p w w := ⟨rfl, rfl, fun _ _ => rfl, fun _ _ => ⟨rfl, rfl⟩⟩

/-- Every drop of cause 0 to 5 has the effects of R33. -/
theorem portDrop_dropped {cause : Cause} {s : State} (quiet : s.fault.inbox = []) (p : Port)
    (h : cause = .symbol ∨ cause = .fcs ∨ cause = .runt ∨ cause = .oversize ∨ cause = .ingressOff ∨ cause = .filtered) :
    Dropped p cause s (takeReports (portDrop p cause (s.modPort p unreceiving))) := by
  have code : cause.code.val < 8 := by rcases h with rfl | rfl | rfl | rfl | rfl | rfl <;> decide
  refine Further.dropped code quiet ?_
  rcases h with rfl | rfl | rfl | rfl | rfl | rfl
  · exact receiveFault_further p _
  · exact receiveFault_further p _
  · exact receiveFault_further p _
  · exact .refl p _
  · exact .refl p _
  · exact setFlag_further p _ _

/-- A frame that meets the statement's list of checks meets the port's (R32). -/
theorem portCause_eq (u : PortUnit) (f : RxFrame) : portCause u f =
    if f.symbolError then some .symbol else if f.fcsOk = false then some .fcs
    else if f.bytes.length < 64 then some .runt else if 1522 < f.bytes.length then some .oversize
    else if u.ingressEnable = false then some .ingressOff else if filterPasses u f = false then some .filtered else none := by
  simp only [portCause, frameLen, Bool.not_eq_true']

/-- The monitor that R140, R141, R143 and R144 give, written out by the state it was in. -/
theorem monitor_eq (u : PortUnit) (m : Monitor) :
    afterFault u m =
      let c := min 65535 (m.count + 1)
      match m.state with
      | .clean =>
        if u.thetaD ≤ c then ⟨.disturbed, c, 0, 0, m.checked⟩
        else if u.thetaW ≤ c then ⟨.watch, c, 0, 0, m.checked⟩
        else { m with count := c }
      | .watch =>
        if u.thetaD ≤ c then ⟨.disturbed, c, 0, 0, m.checked⟩
        else { m with count := c, calm := if u.thetaW ≤ c then 0 else m.calm }
      | .disturbed => { m with count := c, quiet := 0 } := by
  obtain ⟨state, count, quiet, calm, checked⟩ := m
  cases state with
  | clean =>
    by_cases d : u.thetaD ≤ min 65535 (count + 1)
    · simp [afterFault, upward, struck, changed, d]
    · by_cases w : u.thetaW ≤ min 65535 (count + 1) <;> simp [afterFault, upward, struck, changed, d, w]
  | watch => by_cases d : u.thetaD ≤ min 65535 (count + 1) <;> simp [afterFault, upward, struck, changed, d]
  | disturbed => rfl

/-- Entering DISTURBED flags and counts it (R147). -/
theorem entering_effects (u : PortUnit) : (entering u).counters[19] = satInc u.counters[19] ∧
    (entering u).flags.getLsbD 2 = (u.flags.getLsbD 2 || u.flagMask.getLsbD 2) :=
  ⟨upd_same u.counters 19 satInc, flags_getLsbD .noiseDisturbed _ _ 2⟩

/-- Settles O28: the drop itself, and the receive fault where the cause is one. -/
theorem frameEndDropsWithTheFirstCause : Obligations.FrameEndDropsWithTheFirstCause := by
  unfold Obligations.FrameEndDropsWithTheFirstCause
  intro s p f start cause awake receiving first
  rw [← portCause_eq] at first
  have dropped := portDrop_dropped awake.noReports p (portCause_code first)
  have only := takeReports_only (portDrop p cause (s.modPort p unreceiving))
  refine ⟨_, exec_frameEnd_drop awake receiving first, dropped.receiving, dropped.counters, dropped.device, fun e => ?_,
    fun fault => ?_, fun quiet => ?_, dropped.others, dropped.rest⟩
  · subst e
    rw [(congrArg State.ports only.rest :), portDrop, setFlag_ports, upd_get, if_pos rfl, portDropped_port]
    exact flags_getLsbD .filterHit _ _ 5
  · let w := portDropped p cause s
    have struck := receiveFault_struck p w
    have port := portDropped_port p cause s
    have monitor : (receiveFault p w).noise[p] = afterFault s.ports[p] s.noise[p] := by
      rw [receiveFault_monitor, upd_get, if_pos rfl, port]; rfl
    have counter : w.ports[p].counters[19] = s.ports[p].counters[19] := by
      rw [port]
      exact (upd_ingress (by rcases fault with rfl | rfl | rfl <;> decide) _ 19).trans
        (if_neg (by rcases fault with rfl | rfl | rfl <;> decide))
    rw [portDrop_fault fault] at only ⊢
    have ports := (congrArg State.ports only.rest :)
    refine ⟨only.noise ▸ monitor.trans (monitor_eq _ _), ⟨fun entered => ?_, fun stayed => ?_⟩, fun change routed => ?_⟩
    · rw [ports, struck.entered (only.noise ▸ entered), upd_get, if_pos rfl, ← counter]
      have effects := entering_effects w.ports[p]
      exact ⟨effects.1, effects.2.trans (by rw [port])⟩
    · rw [ports, struck.stayed (only.noise ▸ stayed)]
      exact ⟨counter, by rw [port]⟩
    · obtain ⟨n, pending, notice⟩ := struck.notice (only.noise ▸ change) routed
      have source := only.sources (srcPort p) (srcPort_ne_srcFault p)
      exact ⟨n, (congrArg NoticeSource.pending source).symm ▸ pending, only.noise ▸ notice⟩
  · rw [only.noise]
    rcases quiet with rfl | rfl | rfl <;> rfl

end Sys2Proof.PortLaws
end

section
/-! SUPPORT. The books of what is dropped: what drops between two states count at the ports and legs, report to the fault unit,
flag, and return to the frame buffer (R36, R49, R121, R124, R152). The figures of one operation after another add up. -/

namespace Sys2Proof.PortLaws

open Sys2Proof.Machine Sys2Proof.Safety Sys2Proof.Laws Sys2Proof.CellTime

/-! ### The figures -/

/-- What drops count: the references returned, the counts of every port counter, the flags set, the counts of every leg counter,
the reports by device total, and the streams that became FREE. -/
structure Tally where
  ids : List FrameId
  port : Port → Fin 21 → Nat
  flags : Port → BitVec 6
  leg : StreamNo → Port → Fin 13 → Nat
  reports : Fin 28 → Nat
  freed : StreamNo → Bool

/-- Nothing counted. -/
def Tally.none : Tally := ⟨[], fun _ _ => 0, fun _ => 0, fun _ _ _ => 0, fun _ => 0, fun _ => false⟩

/-- One operation's figures and then another's. -/
def Tally.add (a b : Tally) : Tally :=
  ⟨a.ids ++ b.ids, fun e i => a.port e i + b.port e i, fun e => a.flags e ||| b.flags e,
    fun n e i => a.leg n e i + b.leg n e i, fun i => a.reports i + b.reports i, fun n => a.freed n || b.freed n⟩

/-- The figures of operations one after another. -/
def Tally.sum (as : List Tally) : Tally := as.foldr Tally.add .none

theorem satAdd_satAdd (c : Counter) (j k : Nat) : satAdd (satAdd c j) k = satAdd c (j + k) := by
  induction k with
  | zero => rfl
  | succ k ih => exact congrArg satInc ih

/-! ### A port unit whose counters and flags alone moved -/

/-- A port unit has these counts more, and these flags where its mask has them. -/
structure Counted (u v : PortUnit) (count : Fin 21 → Nat) (flags : BitVec 6) : Prop where
  rest : { v with counters := u.counters, flags := u.flags } = u
  counters : ∀ i : Fin 21, v.counters[i] = satAdd u.counters[i] (count i)
  flags : v.flags = u.flags ||| (flags &&& u.flagMask)

theorem Counted.refl (u : PortUnit) : Counted u u (fun _ => 0) 0 := ⟨rfl, fun _ => rfl, by simp⟩

theorem Counted.mask {u v : PortUnit} {c f} (h : Counted u v c f) : v.flagMask = u.flagMask :=
  (congrArg PortUnit.flagMask h.rest :)

theorem Counted.trans {u v w : PortUnit} {c d : Fin 21 → Nat} {f g : BitVec 6} (h : Counted u v c f)
    (k : Counted v w d g) : Counted u w (fun i => c i + d i) (f ||| g) where
  rest := (congrArg (fun x : PortUnit => { x with counters := u.counters, flags := u.flags }) k.rest).trans h.rest
  counters i := by rw [k.counters, h.counters, satAdd_satAdd]
  flags := by
    rw [k.flags, h.flags, h.mask]
    ext i hi
    simp only [BitVec.getElem_or, BitVec.getElem_and]
    cases u.flags[i] <;> cases u.flagMask[i] <;> simp

theorem counting_counted (c : PortCounter) (u : PortUnit) :
    Counted u (counting c u) (fun i => if i = c.index then 1 else 0) 0 := by
  refine ⟨rfl, fun i => ?_, by simp [counting]⟩
  rw [counting, upd_get]
  split
  · next h => rw [h, satAdd_one]
  · rfl

theorem flagging_counted (x : Flag) (u : PortUnit) : Counted u (flagging x u) (fun _ => 0) x.bit :=
  ⟨rfl, fun _ => rfl, rfl⟩

/-! ### References -/

theorem returned_of_buffer {s t : State} (h : t.buffer = s.buffer) : Returned s t [] fun _ => false := by
  have refl := returned_refl s
  refine ⟨by rw [h], fun id none => ?_, fun id r stored => ?_, fun _ => by rw [h]; exact ⟨rfl, rfl⟩⟩
  · rw [State.frame, h]; exact none
  · rw [State.frame, h]; exact refl.frames id r stored

/-- In which order references are returned makes no difference. -/
theorem returned_perm {s t : State} {ids ids' : List FrameId} {freed : StreamNo → Bool} (h : Returned s t ids freed)
    (p : ids.Perm ids') : Returned s t ids' freed :=
  ⟨h.handles, h.absent, fun id r stored => by rw [← p.count_eq]; exact h.frames id r stored, h.cells⟩

/-- The frames of a stream that becomes FREE are marked, and none leaves (R46). -/
theorem orphanFrames_returned (n : StreamNo) (s : State) : Returned s (orphanFrames n s) [] fun m => m == n := by
  let mark (r : FrameRecord) : FrameRecord := if r.stream == some n then { r with orphan := true } else r
  have id_mark (r : FrameRecord) : (mark r).id = r.id := by simp only [mark]; split <;> rfl
  have frames : (orphanFrames n s).buffer.frames = s.buffer.frames.map mark := rfl
  have ids : (orphanFrames n s).buffer.frames.map (·.id) = s.buffer.frames.map (·.id) := by
    rw [frames, List.map_map]; exact List.map_congr_left fun r _ => id_mark r
  have found (id : FrameId) : (orphanFrames n s).frame id = (s.frame id).map mark := by
    rw [State.frame, frames, List.find?_map]
    have : ((fun x : FrameRecord => x.id == id) ∘ mark) = fun x => x.id == id := by
      funext x; simp only [Function.comp, id_mark]
    rw [this]; rfl
  have cells (pool : Pool) : cellsIn pool (orphanFrames n s).buffer.frames = cellsIn pool s.buffer.frames :=
    cellsIn_map pool mark (fun r => by simp only [mark]; split <;> exact ⟨rfl, rfl⟩) _
  refine ⟨ids ▸ .refl _, fun id none => by rw [found, none]; rfl, fun id r stored => ?_, fun _ => by rw [cells, cells]; exact ⟨rfl, rfl⟩⟩
  rw [found, stored]
  obtain ⟨_, _, _, _, _, _, _, _, stream, _, orphan, _⟩ := r
  cases stream with
  | none => simp [mark]
  | some m => by_cases h : m = n <;> simp [mark, h]

/-- Frames alive that count for a stream (R55, R57). -/
def aliveFrames (s : State) (n : StreamNo) : Nat := s.buffer.frames.countP fun r => r.stream == some n && !r.orphan

/-- The alive counts follow the frames that leave the buffer (R124). -/
def AliveFollows (s t : State) : Prop :=
  (s.buffer.frames.map (·.id)).Nodup → ∀ (n : StreamNo) (x : Stream), s.streams[n] = some x →
    ∃ y, t.streams[n] = some y ∧ aliveFrames t n ≤ aliveFrames s n ∧
      y.alive = x.alive - (aliveFrames s n - aliveFrames t n)

theorem AliveFollows.of_buffer {s t : State} (buffer : t.buffer = s.buffer)
    (streams : ∀ n : StreamNo, t.streams[n].map (·.alive) = s.streams[n].map (·.alive)) : AliveFollows s t := by
  intro _ n x hx
  have h := streams n
  rw [hx] at h
  obtain ⟨y, hy, alive⟩ := Option.map_eq_some_iff.1 h
  exact ⟨y, hy, by rw [aliveFrames, buffer]; exact Nat.le_refl _, by rw [alive, aliveFrames, aliveFrames, buffer]; simp⟩

theorem AliveFollows.trans {s t u : State} (handles : (t.buffer.frames.map (·.id)).Sublist (s.buffer.frames.map (·.id)))
    (h : AliveFollows s t) (k : AliveFollows t u) : AliveFollows s u := by
  intro nodup n x hx
  obtain ⟨y, hy, less, alive⟩ := h nodup n x hx
  obtain ⟨z, hz, less', alive'⟩ := k (nodup.sublist handles) n y hy
  exact ⟨z, hz, less'.trans less, by rw [alive', alive]; omega⟩

/-- The stored frames that one freed leaves. -/
theorem freeFrame_frames (r : FrameRecord) (s : State) :
    (freeFrame r s).buffer.frames = s.buffer.frames.filter fun x => x.id != r.id := by
  unfold freeFrame
  cases r.stream <;> cases r.pool <;> (try cases r.orphan) <;> rfl

/-- Handles being distinct, a frame and those that stay when it leaves are all there were. -/
theorem frames_perm {xs : List FrameRecord} {r : FrameRecord} (nodup : (xs.map (·.id)).Nodup) (mem : r ∈ xs) :
    xs.Perm (r :: xs.filter fun x => x.id != r.id) := by
  have others : (xs.filter fun x => x.id != r.id) = xs.erase r := by
    rw [(List.Nodup.of_map _ nodup).erase_eq_filter]
    refine List.filter_congr fun x hx => ?_
    rw [Bool.eq_iff_iff, bne_iff_ne, bne_iff_ne]
    exact not_congr ⟨fun e => List.inj_on_of_nodup_map nodup hx mem e, fun e => congrArg _ e⟩
  rw [others]
  exact List.perm_cons_erase mem

/-- A frame freed was alive for its own stream, unless that became FREE since (R57). -/
theorem aliveFrames_freeFrame {s : State} {r : FrameRecord} (nodup : (s.buffer.frames.map (·.id)).Nodup)
    (mem : r ∈ s.buffer.frames) (n : StreamNo) :
    aliveFrames s n = aliveFrames (freeFrame r s) n + if r.stream = some n ∧ r.orphan = false then 1 else 0 := by
  rw [aliveFrames, (frames_perm nodup mem).countP_eq, aliveFrames, freeFrame_frames, List.countP_cons]
  simp

/-- The streams after a frame is freed: one fewer alive in the frame's own (R57). -/
theorem freeFrame_streams (r : FrameRecord) (s : State) (n : StreamNo) : (freeFrame r s).streams[n] =
    if r.stream = some n ∧ r.orphan = false then s.streams[n].map fun x => { x with alive := x.alive - 1 }
    else s.streams[n] := by
  unfold freeFrame
  dsimp only
  cases hr : r.stream with
  | none => simp
  | some m =>
    cases ho : r.orphan with
    | true => simp
    | false =>
      by_cases h : n = m
      · subst h; simp
      · have h' : ¬m = n := fun e => h e.symm
        simp [upd_get, h, h', -Fin.getElem_fin]

theorem returnRef_alive (id : FrameId) (s : State) : AliveFollows s (returnRef id s) := by
  cases stored : s.frame id with
  | none =>
    have same : returnRef id s = s := by rw [returnRef, stored]
    rw [same]
    exact .of_buffer rfl fun _ => rfl
  | some r =>
    by_cases last : r.refs ≤ 1
    · rw [returnRef_last stored last]
      intro nodup n x hx
      have count := aliveFrames_freeFrame nodup (frame_mem stored).1 n
      have streams := freeFrame_streams r s n
      by_cases own : r.stream = some n ∧ r.orphan = false
      · rw [if_pos own] at count streams
        exact ⟨_, by rw [streams, hx]; rfl, by omega, by simp only; omega⟩
      · rw [if_neg own] at count streams
        exact ⟨x, streams.trans hx, by omega, by omega⟩
    · have kept : returnRef id s = s.modBuffer fun b => { b with
          frames := b.frames.map fun x => if x.id == id then { x with refs := x.refs - 1 } else x } := by
        rw [returnRef, stored]; simp only [if_neg last]
      intro _ n x hx
      have count : aliveFrames (returnRef id s) n = aliveFrames s n := by
        rw [kept, aliveFrames]
        show List.countP _ (List.map _ _) = _
        rw [List.countP_map, aliveFrames]
        congr 1
        funext y
        simp only [Function.comp]
        split <;> rfl
      exact ⟨x, by rw [kept]; exact hx, by omega, by omega⟩

/-- Handles being distinct, a stored frame is found under its own. -/
theorem frame_of_mem {s : State} {r : FrameRecord} (nodup : (s.buffer.frames.map (·.id)).Nodup)
    (mem : r ∈ s.buffer.frames) : s.frame r.id = some r := by
  cases stored : s.frame r.id with
  | none => exact absurd (List.find?_eq_none.1 stored r mem) (by simp)
  | some x =>
    obtain ⟨hx, same⟩ := frame_mem stored
    rw [List.inj_on_of_nodup_map nodup hx mem same]

/-- The stored frame of a handle is alive for a stream. -/
def aliveFor (s : State) (n : StreamNo) (id : FrameId) : Bool :=
  (s.frame id).any fun r => r.stream == some n && !r.orphan

theorem aliveFrames_eq {s : State} (nodup : (s.buffer.frames.map (·.id)).Nodup) (n : StreamNo) :
    aliveFrames s n = (s.buffer.frames.map (·.id)).countP (aliveFor s n) := by
  rw [List.countP_map]
  refine List.countP_congr fun r hr => ?_
  simp only [Function.comp, aliveFor, frame_of_mem nodup hr, Option.any]

/-- The frames still stored are those of the handles that have not left. -/
theorem returned_stays {s t : State} {ids : List FrameId} (h : Returned s t ids fun _ => false)
    (nodup : (s.buffer.frames.map (·.id)).Nodup) :
    (t.buffer.frames.map (·.id)).Perm ((s.buffer.frames.map (·.id)).filter fun id => (t.frame id).isSome) := by
  refine (List.perm_ext_iff_of_nodup (nodup.sublist h.handles) (nodup.sublist List.filter_sublist)).2 fun id => ?_
  rw [List.mem_filter]
  constructor
  · intro mem
    refine ⟨h.handles.subset mem, ?_⟩
    obtain ⟨r, hr, rfl⟩ := List.mem_map.1 mem
    rw [frame_of_mem (nodup.sublist h.handles) hr]; rfl
  · rintro ⟨-, some⟩
    obtain ⟨r, hr⟩ := Option.isSome_iff_exists.1 some
    obtain ⟨mem, rfl⟩ := frame_mem hr
    exact List.mem_map_of_mem mem

/-- A frame that stays stored is alive for the streams it was alive for. -/
theorem aliveFor_returned {s t : State} {ids : List FrameId} (h : Returned s t ids fun _ => false) (n : StreamNo)
    {id : FrameId} (stays : (t.frame id).isSome) : aliveFor t n id = aliveFor s n id := by
  cases stored : s.frame id with
  | none => rw [h.absent id stored] at stays; cases stays
  | some r =>
    have found := h.frames id r stored
    split at found
    · rw [found] at stays; cases stays
    · have any : r.stream.any (fun _ => false) = false := by cases r.stream <;> rfl
      simp [aliveFor, found, stored, any]

/-- The frames alive that have left are those a count of the frames gone finds (R57, R124). -/
theorem returned_gone {s t : State} {ids : List FrameId} (h : Returned s t ids fun _ => false)
    (nodup : (s.buffer.frames.map (·.id)).Nodup) (n : StreamNo) :
    s.buffer.frames.countP (fun r => r.stream == some n && !r.orphan && (t.frame r.id).isNone) =
      aliveFrames s n - aliveFrames t n := by
  have gone : s.buffer.frames.countP (fun r => r.stream == some n && !r.orphan && (t.frame r.id).isNone) =
      (s.buffer.frames.map (·.id)).countP fun id => aliveFor s n id && (t.frame id).isNone := by
    rw [List.countP_map]
    refine List.countP_congr fun r hr => ?_
    simp only [Function.comp, aliveFor, frame_of_mem nodup hr, Option.any]
  have stay : aliveFrames t n =
      (s.buffer.frames.map (·.id)).countP fun id => aliveFor s n id && (t.frame id).isSome := by
    rw [aliveFrames_eq (nodup.sublist h.handles), (returned_stays h nodup).countP_eq, List.countP_filter]
    refine List.countP_congr fun id _ => ?_
    rw [Bool.and_eq_true, Bool.and_eq_true]
    exact ⟨fun e => ⟨aliveFor_returned h n e.2 ▸ e.1, e.2⟩, fun e => ⟨(aliveFor_returned h n e.2).trans e.1, e.2⟩⟩
  have all := List.countP_eq_countP_filter_add (s.buffer.frames.map (·.id)) (aliveFor s n)
    fun id => (t.frame id).isSome
  rw [List.countP_filter, List.countP_filter, ← aliveFrames_eq nodup, ← stay] at all
  rw [gone, all]
  simp

end Sys2Proof.PortLaws
end

section
/-! SUPPORT. What each operation that drops frames counts: `Tallied` for the figures, `Lossy` with the streams' alive counts, said
once for each shared operation and added up along a run of them. -/

namespace Sys2Proof.PortLaws

open Sys2Proof.Machine Sys2Proof.Safety Sys2Proof.Laws Sys2Proof.CellTime

/-- Between two states these figures were counted; of the rest, only streams and egress schedulers changed, and probes where a
stream became FREE. -/
structure Tallied (s t : State) (a : Tally) : Prop where
  rest : { t with
    ports := s.ports, streams := s.streams, legCounters := s.legCounters, egress := s.egress, buffer := s.buffer
    fault := s.fault, probes := s.probes } = s
  returned : Returned s t a.ids a.freed
  ports : ∀ e : Port, Counted s.ports[e] t.ports[e] (a.port e) (a.flags e)
  legs : ∀ (n : StreamNo) (e : Port) (i : Fin 13),
    t.legCounters[legIndex n e][i] = satAdd s.legCounters[legIndex n e][i] (a.leg n e i)
  reports : ∀ i : Fin 28, reportsOf i t.fault.inbox = reportsOf i s.fault.inbox + a.reports i
  probes : (∀ n, a.freed n = false) → t.probes = s.probes

theorem Tallied.trans {s t u : State} {a b : Tally} (h : Tallied s t a) (k : Tallied t u b) : Tallied s u (a.add b) where
  rest := (congrArg (fun x : State => { x with
    ports := s.ports, streams := s.streams, legCounters := s.legCounters, egress := s.egress, buffer := s.buffer
    fault := s.fault, probes := s.probes }) k.rest).trans h.rest
  returned := returned_trans h.returned k.returned
  ports e := (h.ports e).trans (k.ports e)
  legs n e i := by rw [k.legs, h.legs, satAdd_satAdd]; rfl
  reports i := by rw [k.reports, h.reports, Nat.add_assoc]; rfl
  probes none := by
    have off (n) := Bool.or_eq_false_iff.1 (none n)
    exact (k.probes fun n => (off n).2).trans (h.probes fun n => (off n).1)

/-- Drops that make no stream FREE: the alive counts follow the frames. -/
structure Lossy (s t : State) (a : Tally) : Prop extends Tallied s t a where
  alive : AliveFollows s t

theorem Lossy.trans {s t u : State} {a b : Tally} (h : Lossy s t a) (k : Lossy t u b) : Lossy s u (a.add b) :=
  ⟨h.toTallied.trans k.toTallied, h.alive.trans h.returned.handles k.alive⟩

/-! ### Sums -/

@[simp] theorem Tally.add_none (a : Tally) : a.add .none = a := by
  obtain ⟨ids, port, flags, leg, reports, freed⟩ := a
  simp [Tally.add, Tally.none]

@[simp] theorem Tally.none_add (a : Tally) : Tally.none.add a = a := by
  obtain ⟨ids, port, flags, leg, reports, freed⟩ := a
  simp [Tally.add, Tally.none]

theorem Tally.sum_cons (a : Tally) (as : List Tally) : Tally.sum (a :: as) = a.add (Tally.sum as) := rfl

theorem Tally.sum_ids (as : List Tally) : (Tally.sum as).ids = as.flatMap (·.ids) := by
  induction as with
  | nil => rfl
  | cons a as ih => rw [Tally.sum_cons, List.flatMap_cons, ← ih]; rfl

theorem Tally.sum_leg (as : List Tally) (n : StreamNo) (e : Port) (i : Fin 13) :
    (Tally.sum as).leg n e i = (as.map fun a => a.leg n e i).sum := by
  induction as with
  | nil => rfl
  | cons a as ih => rw [Tally.sum_cons, List.map_cons, List.sum_cons, ← ih]; rfl

theorem Tally.sum_reports (as : List Tally) (i : Fin 28) :
    (Tally.sum as).reports i = (as.map fun a => a.reports i).sum := by
  induction as with
  | nil => rfl
  | cons a as ih => rw [Tally.sum_cons, List.map_cons, List.sum_cons, ← ih]; rfl

theorem Tally.sum_flags (as : List Tally) (e : Port) (k : Nat) :
    ((Tally.sum as).flags e).getLsbD k = as.any fun a => (a.flags e).getLsbD k := by
  induction as with
  | nil => simp [Tally.sum, Tally.none]
  | cons a as ih => rw [Tally.sum_cons, List.any_cons, ← ih]; exact BitVec.getLsbD_or

theorem Tally.sum_freed (as : List Tally) (n : StreamNo) : (Tally.sum as).freed n = as.any fun a => a.freed n := by
  induction as with
  | nil => rfl
  | cons a as ih => rw [Tally.sum_cons, List.any_cons, ← ih]; rfl

/-! ### One update -/

/-- An update of streams and egress schedulers that leaves the alive counts. -/
theorem Lossy.quiet {s t : State} (rest : { t with streams := s.streams, egress := s.egress } = s)
    (alive : ∀ n : StreamNo, t.streams[n].map (·.alive) = s.streams[n].map (·.alive)) : Lossy s t .none := by
  have buffer : t.buffer = s.buffer := (congrArg State.buffer rest :)
  have ports : t.ports = s.ports := (congrArg State.ports rest :)
  have legs : t.legCounters = s.legCounters := (congrArg State.legCounters rest :)
  have fault : t.fault = s.fault := (congrArg State.fault rest :)
  exact ⟨⟨(congrArg (fun x : State => { x with
      ports := s.ports, legCounters := s.legCounters, buffer := s.buffer, fault := s.fault, probes := s.probes }) rest :),
    returned_of_buffer buffer, fun e => by rw [ports]; exact .refl _, fun n e i => by rw [legs]; rfl,
    fun i => by rw [fault]; rfl, fun _ => (congrArg State.probes rest :)⟩, .of_buffer buffer alive⟩

theorem modLeg_lossy (n : StreamNo) (e : Port) (f : Leg → Leg) (s : State) : Lossy s (s.modLeg n e f) .none := by
  refine .quiet rfl fun m => ?_
  have streams : (s.modLeg n e f).streams = Table.upd s.streams n fun _ => s.streams[n].map fun t =>
    { t with legs := t.legs.map fun l => if l.egress == e then f l else l } := rfl
  rw [streams, upd_get]
  split
  · next h => subst h; cases s.streams[m] <;> rfl
  · rfl

theorem modEgress_lossy (e : Port) (f : Egress → Egress) (s : State) : Lossy s (s.modEgress e f) .none :=
  .quiet rfl fun _ => rfl

/-- References returned and nothing else. -/
def Tally.returning (ids : List FrameId) : Tally := { Tally.none with ids := ids }

theorem returnRef_rest (id : FrameId) (s : State) :
    { returnRef id s with streams := s.streams, buffer := s.buffer } = s := by
  unfold returnRef
  split
  · rfl
  · split
    · unfold freeFrame
      dsimp only
      split
      · split <;> rfl
      · rfl
    · rfl

theorem returnRef_lossy (id : FrameId) (s : State) : Lossy s (returnRef id s) (.returning [id]) := by
  have rest := returnRef_rest id s
  have ports : (returnRef id s).ports = s.ports := (congrArg State.ports rest :)
  have legs : (returnRef id s).legCounters = s.legCounters := (congrArg State.legCounters rest :)
  have fault : (returnRef id s).fault = s.fault := (congrArg State.fault rest :)
  exact ⟨⟨(congrArg (fun x : State => { x with
      ports := s.ports, legCounters := s.legCounters, egress := s.egress, fault := s.fault, probes := s.probes }) rest :),
    returnRef_returned id s, fun e => by rw [ports]; exact .refl _, fun n e i => by rw [legs]; rfl,
    fun i => by rw [fault]; rfl, fun _ => (congrArg State.probes rest :)⟩, returnRef_alive id s⟩

/-- One count of a port counter. -/
def Tally.ofPort (p : Port) (c : PortCounter) : Tally :=
  { Tally.none with port := fun e i => if e = p ∧ i = c.index then 1 else 0 }

/-- One flag set. -/
def Tally.ofFlag (p : Port) (x : Flag) : Tally := { Tally.none with flags := fun e => if e = p then x.bit else 0 }

/-- A change of one port unit's counters and flags. -/
theorem modPort_counted {p : Port} {f : PortUnit → PortUnit} {s : State} {count : Fin 21 → Nat} {flags : BitVec 6}
    (h : Counted s.ports[p] (f s.ports[p]) count flags) (e : Port) :
    Counted s.ports[e] (Table.upd s.ports p f)[e] (fun i => if e = p then count i else 0) (if e = p then flags else 0) := by
  rw [upd_get]
  by_cases he : e = p
  · subst he; simpa only [if_true] using h
  · simpa only [he, if_false] using Counted.refl _

theorem bumpPort_lossy (p : Port) (c : PortCounter) (s : State) : Lossy s (bumpPort p c s) (.ofPort p c) := by
  refine ⟨⟨rfl, returned_of_buffer rfl, fun e => ?_, fun _ _ _ => rfl, fun _ => rfl, fun _ => rfl⟩, .of_buffer rfl fun _ => rfl⟩
  have h := modPort_counted (counting_counted c s.ports[p]) e
  simp only [ite_self] at h
  simp only [Tally.ofPort, ite_and]
  exact h

theorem setFlag_lossy (p : Port) (x : Flag) (s : State) : Lossy s (setFlag p x s) (.ofFlag p x) := by
  refine ⟨⟨rfl, returned_of_buffer rfl, fun e => ?_, fun _ _ _ => rfl, fun _ => rfl, fun _ => rfl⟩, .of_buffer rfl fun _ => rfl⟩
  have h := modPort_counted (flagging_counted x s.ports[p]) e
  simp only [ite_self] at h
  exact h

/-- One report. -/
def Tally.ofReport (cause : Cause) : Tally :=
  { Tally.none with reports := fun i => if i = (DeviceCounter.total cause).index then 1 else 0 }

theorem makeReport_lossy (r : Report) (s : State) : Lossy s (makeReport r s) (.ofReport r.fields.cause) := by
  refine ⟨⟨rfl, returned_of_buffer rfl, fun e => .refl _, fun _ _ _ => rfl, fun i => ?_, fun _ => rfl⟩, .of_buffer rfl fun _ => rfl⟩
  show reportsOf i (s.fault.inbox ++ [r]) = _
  rw [reportsOf_append, reportsOf_cons, reportsOf_nil, Nat.zero_add]
  simp only [Tally.ofReport, eq_comm]

/-- One count of a leg counter. -/
def Tally.ofLeg (n : StreamNo) (e : Port) (c : LegCounter) : Tally :=
  { Tally.none with leg := fun m p i => if m = n ∧ p = e ∧ i = c.index then 1 else 0 }

theorem legIndex_inj {n m : StreamNo} {e p : Port} : legIndex n e = legIndex m p ↔ n = m ∧ e = p := by
  simp only [legIndex, Fin.ext_iff]
  omega

theorem bumpLeg_lossy (n : StreamNo) (e : Port) (c : LegCounter) (s : State) :
    Lossy s (bumpLeg n e c s) (.ofLeg n e c) := by
  refine ⟨⟨rfl, returned_of_buffer rfl, fun e => .refl _, fun m p i => ?_, fun _ => rfl, fun _ => rfl⟩, .of_buffer rfl fun _ => rfl⟩
  show (Table.upd s.legCounters (legIndex n e) fun v => Table.upd v c.index satInc)[legIndex m p][i] = _
  rw [upd_get]
  simp only [Tally.ofLeg]
  by_cases h : m = n ∧ p = e
  · obtain ⟨rfl, rfl⟩ := h
    rw [if_pos rfl, upd_get]
    by_cases hi : i = c.index
    · simp [hi, satAdd_one]
    · simp [hi]
  · rw [if_neg fun k => h (legIndex_inj.1 k), if_neg fun k => h ⟨k.1, k.2.1⟩, satAdd_zero]

/-! ### The frames of a slot, and those kept for twin copies -/

/-- What a slot counts whose frames are dropped with one cause (R49, R121). -/
def slotTally (cause : Cause) (c : LegCounter) (n : StreamNo) (e : Port) (ids : List FrameId) : Tally where
  ids := ids
  port := fun _ _ => 0
  flags := fun p => if p = e ∧ ids ≠ [] then Flag.motionDrop.bit else 0
  leg := fun m p i => if m = n ∧ p = e ∧ i = c.index then ids.length else 0
  reports := fun i => if i = (DeviceCounter.total cause).index then ids.length else 0
  freed := fun _ => false

theorem slotTally_cons (cause : Cause) (c : LegCounter) (n : StreamNo) (e : Port) (id : FrameId) (ids : List FrameId) :
    (slotTally cause c n e [id]).add (slotTally cause c n e ids) = slotTally cause c n e (id :: ids) := by
  simp only [slotTally, Tally.add, Tally.mk.injEq, List.singleton_append, true_and, Bool.or_false, and_true, Nat.add_zero]
  refine ⟨?_, ?_, ?_⟩
  · funext p
    by_cases h : p = e <;> by_cases empty : ids = [] <;> simp [h, empty]
  · funext m p i
    by_cases h : m = n ∧ p = e ∧ i = c.index
    · simp [h, Nat.add_comm]
    · simp [h]
  · funext i
    by_cases h : i = (DeviceCounter.total cause).index
    · simp [h, Nat.add_comm]
    · simp [h]

theorem slotTally_nil (cause : Cause) (c : LegCounter) (n : StreamNo) (e : Port) :
    slotTally cause c n e [] = .none := by
  simp [slotTally, Tally.none]

/-- One frame is dropped for a leg and its reference returned (R121, R124). -/
theorem legDrop_lossy {cause : Cause} {c : LegCounter} (h : cause.legCounter = some c) (n : StreamNo) (e : Port)
    (id : FrameId) (s : State) : Lossy s (returnRef id (legDrop cause n e s)) (slotTally cause c n e [id]) := by
  have run := (bumpLeg_lossy n e c s).trans ((makeReport_lossy ⟨(bumpLeg n e c s).stamped cause (.egress e) (some n), none, none, false⟩ _).trans
    ((setFlag_lossy e .motionDrop _).trans (returnRef_lossy id _)))
  have same : legDrop cause n e s = setFlag e .motionDrop (report cause (.egress e) (some n) (bumpLeg n e c s)) := by
    rw [legDrop, h]
  have figures : (Tally.ofLeg n e c).add ((Tally.ofReport cause).add ((Tally.ofFlag e .motionDrop).add (.returning [id]))) =
      slotTally cause c n e [id] := by
    simp [Tally.ofLeg, Tally.ofReport, Tally.ofFlag, Tally.returning, Tally.none, Tally.add, slotTally]
  rw [same, ← figures]
  exact run

theorem forAll_legDrop_lossy {cause : Cause} {c : LegCounter} (h : cause.legCounter = some c) (n : StreamNo) (e : Port)
    (ids : List FrameId) (s : State) :
    Lossy s (forAll ids (fun id s => returnRef id (legDrop cause n e s)) s) (slotTally cause c n e ids) := by
  induction ids generalizing s with
  | nil => rw [slotTally_nil]; exact .quiet rfl fun _ => rfl
  | cons id ids ih =>
    rw [← slotTally_cons]
    exact (legDrop_lossy h n e id s).trans (ih _)

/-- Every frame of a slot is dropped (R49, R121, R124). -/
theorem dropSlot_lossy {cause : Cause} {c : LegCounter} (h : cause.legCounter = some c) (n : StreamNo) (e : Port)
    (s : State) : Lossy s (dropSlot cause n e s) (slotTally cause c n e (s.slotOf n e)) := by
  unfold dropSlot
  split
  · next empty =>
    rw [List.isEmpty_iff.1 empty, slotTally_nil]
    exact .quiet rfl fun _ => rfl
  · have run := (modLeg_lossy n e (fun l => { l with slot := [] }) s).trans (forAll_legDrop_lossy h n e (s.slotOf n e) _)
    rwa [Tally.none_add] at run

theorem returnRefs_lossy (ids : List FrameId) (s : State) : Lossy s (returnRefs ids s) (.returning ids) := by
  induction ids generalizing s with
  | nil => exact .quiet rfl fun _ => rfl
  | cons id ids ih =>
    have figures : (Tally.returning [id]).add (.returning ids) = .returning (id :: ids) := by
      simp [Tally.returning, Tally.add, Tally.none]
    rw [← figures]
    exact (returnRef_lossy id s).trans (ih _)

/-- The frames kept for twin copies are let go (R111). -/
theorem letGo_lossy (n : StreamNo) (e : Port) (s : State) :
    Lossy s (letGo n e s) (.returning (s.retainedOf n e)) := by
  unfold letGo
  split
  · next empty =>
    rw [List.isEmpty_iff.1 empty]
    exact .quiet rfl fun _ => rfl
  · have run := (modLeg_lossy n e (fun l => { l with retained := [] }) s).trans (returnRefs_lossy (s.retainedOf n e) _)
    rwa [Tally.none_add] at run

/-! ### One operation for each of a list -/

/-- A run of operations, none of which changes the figures of a later one. -/
theorem forAll_lossy {α : Type} {f : α → State → State} {a : State → α → Tally} (step : ∀ x s, Lossy s (f x s) (a s x))
    {xs : List α} (keep : xs.Pairwise fun x y => ∀ s, a (f x s) y = a s y) (s : State) :
    Lossy s (forAll xs f s) (.sum (xs.map (a s))) := by
  induction xs generalizing s with
  | nil => exact .quiet rfl fun _ => rfl
  | cons x xs ih =>
    rw [List.pairwise_cons] at keep
    have rest := ih keep.2 (f x s)
    rw [List.map_congr_left fun y hy => keep.1 y hy s] at rest
    exact (step x s).trans rest

end Sys2Proof.PortLaws
end

section
/-! SUPPORT. What the operations on slots make of the legs: a leg's slot or twin-retained list is emptied, and nothing else of a stream
but its alive count changes. -/

namespace Sys2Proof.PortLaws

open Sys2Proof.Machine Sys2Proof.Safety Sys2Proof.Laws Sys2Proof.CellTime

/-! ### A stream without its alive count -/

/-- A stream record but for its alive count, which follows the frame buffer. -/
def bare (s : State) (n : StreamNo) : Option Stream := s.streams[n].map fun x => { x with alive := 0 }

/-- The legs of a stream on one egress are changed. -/
def onLegs (e : Port) (f : Leg → Leg) (x : Stream) : Stream :=
  { x with legs := x.legs.map fun l => if l.egress == e then f l else l }

theorem bare_of_streams {s t : State} (h : t.streams = s.streams) (n : StreamNo) : bare t n = bare s n := by
  rw [bare, h]; rfl

theorem leg_eq_bare (s : State) (n : StreamNo) (e : Port) :
    s.leg n e = (bare s n).bind fun x => x.legs.find? fun l => l.egress == e := by
  rw [State.leg, bare]; cases s.streams[n] <;> rfl

theorem leg_congr {s t : State} {n : StreamNo} (h : bare t n = bare s n) (e : Port) : t.leg n e = s.leg n e := by
  rw [leg_eq_bare, h, leg_eq_bare]

theorem slotOf_eq (s : State) (n : StreamNo) (e : Port) : s.slotOf n e = ((s.leg n e).map (·.slot)).getD [] := rfl

theorem retainedOf_eq (s : State) (n : StreamNo) (e : Port) :
    s.retainedOf n e = ((s.leg n e).map (·.retained)).getD [] := rfl

theorem modLeg_streams (n : StreamNo) (e : Port) (f : Leg → Leg) (s : State) (m : StreamNo) :
    (s.modLeg n e f).streams[m] = if m = n then s.streams[n].map (onLegs e f) else s.streams[m] := by
  have streams : (s.modLeg n e f).streams = Table.upd s.streams n fun _ => s.streams[n].map (onLegs e f) := rfl
  rw [streams, upd_get]

theorem modLeg_bare (n : StreamNo) (e : Port) (f : Leg → Leg) (s : State) (m : StreamNo) :
    bare (s.modLeg n e f) m = if m = n then (bare s n).map (onLegs e f) else bare s m := by
  rw [bare, modLeg_streams]
  split
  · rw [bare]; cases s.streams[n] <;> rfl
  · rfl

/-- The leg that a search finds after the legs on one egress were changed. -/
theorem find_onLegs {f : Leg → Leg} (h : ∀ l, (f l).egress = l.egress) (e p : Port) (ls : List Leg) :
    (ls.map fun l => if l.egress == e then f l else l).find? (fun l => l.egress == p) =
      if p = e then (ls.find? fun l => l.egress == p).map f else ls.find? fun l => l.egress == p := by
  have egress (l : Leg) : (if l.egress == e then f l else l).egress = l.egress := by split <;> simp [h]
  rw [List.find?_map]
  have same : ((fun l : Leg => l.egress == p) ∘ fun l => if l.egress == e then f l else l) = fun l => l.egress == p := by
    funext l; simp only [Function.comp, egress]
  rw [same]
  cases found : ls.find? fun l => l.egress == p with
  | none => simp
  | some l =>
    have here : l.egress = p := by simpa using List.find?_some found
    by_cases hp : p = e <;> simp [here, hp]

/-- A leg after the leg of a stream on an egress was changed. -/
theorem modLeg_leg {f : Leg → Leg} (h : ∀ l, (f l).egress = l.egress) (n : StreamNo) (e : Port) (s : State)
    (m : StreamNo) (p : Port) :
    (s.modLeg n e f).leg m p = if m = n ∧ p = e then (s.leg n e).map f else s.leg m p := by
  rw [leg_eq_bare, modLeg_bare, leg_eq_bare, leg_eq_bare]
  by_cases hm : m = n
  · subst hm
    rw [if_pos rfl]
    cases bare s m with
    | none => simp
    | some x =>
      show (x.legs.map fun l => if l.egress == e then f l else l).find? _ = _
      rw [find_onLegs h]
      by_cases hp : p = e
      · subst hp; simp
      · simp [hp]
  · simp [hm]

/-! ### References, slots and twin-retained lists -/

theorem freeFrame_bare (r : FrameRecord) (s : State) (n : StreamNo) : bare (freeFrame r s) n = bare s n := by
  rw [bare, freeFrame_streams]
  split
  · rw [bare]; cases s.streams[n] <;> rfl
  · rfl

/-- A reference that is returned leaves every stream but its alive count. -/
theorem returnRef_bare (id : FrameId) (s : State) (n : StreamNo) : bare (returnRef id s) n = bare s n := by
  unfold returnRef
  split
  · rfl
  · split
    · exact freeFrame_bare _ s n
    · rfl

theorem returnRefs_bare (ids : List FrameId) (s : State) (n : StreamNo) : bare (returnRefs ids s) n = bare s n := by
  induction ids generalizing s with
  | nil => rfl
  | cons id ids ih => exact (ih _).trans (returnRef_bare id s n)

theorem legDrop_streams (cause : Cause) (n : StreamNo) (e : Port) (s : State) : (legDrop cause n e s).streams = s.streams := by
  unfold legDrop
  cases cause.legCounter <;> rfl

theorem forAll_legDrop_bare (cause : Cause) (n : StreamNo) (e : Port) (ids : List FrameId) (s : State) (m : StreamNo) :
    bare (forAll ids (fun id s => returnRef id (legDrop cause n e s)) s) m = bare s m := by
  induction ids generalizing s with
  | nil => rfl
  | cons id ids ih =>
    exact (ih _).trans ((returnRef_bare id _ m).trans (bare_of_streams (legDrop_streams cause n e s) m))

/-- A leg with an empty slot. -/
def noSlot (l : Leg) : Leg := { l with slot := [] }

/-- A leg with no frame kept for a twin copy. -/
def noRetained (l : Leg) : Leg := { l with retained := [] }

/-- The streams after a slot was emptied. -/
theorem dropSlot_bare (cause : Cause) (n : StreamNo) (e : Port) (s : State) (m : StreamNo) :
    bare (dropSlot cause n e s) m =
      if m = n ∧ s.slotOf n e ≠ [] then (bare s n).map (onLegs e noSlot) else bare s m := by
  unfold dropSlot
  by_cases empty : s.slotOf n e = []
  · rw [if_pos (by rw [empty]; rfl), if_neg fun h => h.2 empty]
  · rw [if_neg fun h => empty (List.isEmpty_iff.1 h), forAll_legDrop_bare, modLeg_bare]
    by_cases hm : m = n
    · rw [if_pos hm, if_pos ⟨hm, empty⟩]; rfl
    · rw [if_neg hm, if_neg fun h => hm h.1]

theorem letGo_bare (n : StreamNo) (e : Port) (s : State) (m : StreamNo) :
    bare (letGo n e s) m = if m = n ∧ s.retainedOf n e ≠ [] then (bare s n).map (onLegs e noRetained) else bare s m := by
  unfold letGo
  by_cases empty : s.retainedOf n e = []
  · rw [if_pos (by rw [empty]; rfl), if_neg fun h => h.2 empty]
  · rw [if_neg fun h => empty (List.isEmpty_iff.1 h), returnRefs_bare, modLeg_bare]
    by_cases hm : m = n
    · rw [if_pos hm, if_pos ⟨hm, empty⟩]; rfl
    · rw [if_neg hm, if_neg fun h => hm h.1]

/-- The legs after one list of a leg was emptied, where it held a frame. -/
theorem leg_of_bare {s t : State} {n : StreamNo} {e : Port} {f : Leg → Leg} {held : Leg → List FrameId}
    (egress : ∀ l, (f l).egress = l.egress) (empty : ∀ l, held l = [] → f l = l)
    (h : ∀ m, bare t m =
      if m = n ∧ ((s.leg n e).map held).getD [] ≠ [] then (bare s n).map (onLegs e f) else bare s m)
    (m : StreamNo) (p : Port) : t.leg m p = if m = n ∧ p = e then (s.leg n e).map f else s.leg m p := by
  by_cases none : ((s.leg n e).map held).getD [] = []
  · have same : t.leg m p = s.leg m p := leg_congr (by rw [h, if_neg fun k => k.2 none]) p
    rw [same]
    split
    · next here =>
      obtain ⟨rfl, rfl⟩ := here
      cases found : s.leg m p with
      | none => rfl
      | some l =>
        rw [found] at none
        rw [Option.map_some, empty l none]
    · rfl
  · rw [← modLeg_leg egress]
    refine leg_congr ?_ p
    rw [h, modLeg_bare]
    by_cases hm : m = n
    · rw [if_pos ⟨hm, none⟩, if_pos hm]
    · rw [if_neg hm, if_neg fun k => hm k.1]

/-- A leg after the slot of one was emptied. -/
theorem dropSlot_leg (cause : Cause) (n : StreamNo) (e : Port) (s : State) (m : StreamNo) (p : Port) :
    (dropSlot cause n e s).leg m p = if m = n ∧ p = e then (s.leg n e).map noSlot else s.leg m p :=
  leg_of_bare (f := noSlot) (held := (·.slot)) (fun _ => rfl) (fun l h => by cases l; cases h; rfl) (dropSlot_bare cause n e s) m p

/-- A leg after the twin-retained list of one was emptied. -/
theorem letGo_leg (n : StreamNo) (e : Port) (s : State) (m : StreamNo) (p : Port) :
    (letGo n e s).leg m p = if m = n ∧ p = e then (s.leg n e).map noRetained else s.leg m p :=
  leg_of_bare (f := noRetained) (held := (·.retained)) (fun _ => rfl) (fun l h => by cases l; cases h; rfl) (letGo_bare n e s) m p

/-! ### Egress schedulers -/

theorem returnRef_egress (id : FrameId) (s : State) : (returnRef id s).egress = s.egress :=
  (congrArg State.egress (returnRef_rest id s) :)

theorem returnRefs_egress (ids : List FrameId) (s : State) : (returnRefs ids s).egress = s.egress := by
  induction ids generalizing s with
  | nil => rfl
  | cons id ids ih => exact (ih _).trans (returnRef_egress id s)

theorem legDrop_egress (cause : Cause) (n : StreamNo) (e : Port) (s : State) : (legDrop cause n e s).egress = s.egress := by
  unfold legDrop
  cases cause.legCounter <;> rfl

theorem dropSlot_egress (cause : Cause) (n : StreamNo) (e : Port) (s : State) :
    (dropSlot cause n e s).egress = s.egress := by
  have loop (ids : List FrameId) (t : State) :
      (forAll ids (fun id s => returnRef id (legDrop cause n e s)) t).egress = t.egress := by
    induction ids generalizing t with
    | nil => rfl
    | cons id ids ih => exact (ih _).trans ((returnRef_egress id _).trans (legDrop_egress cause n e t))
  unfold dropSlot
  split
  · rfl
  · exact loop _ _

theorem letGo_egress (n : StreamNo) (e : Port) (s : State) : (letGo n e s).egress = s.egress := by
  unfold letGo
  split
  · rfl
  · exact returnRefs_egress _ _

end Sys2Proof.PortLaws
end

section
/-! SUPPORT. A LINK_DOWN at the egress (R20): the wire, the class queues, the slots and the twin-retained lists are emptied, and what
that counts. -/

namespace Sys2Proof.PortLaws

open Sys2Proof.Machine Sys2Proof.Safety Sys2Proof.Laws Sys2Proof.CellTime

/-! ### Best effort that leaves -/

theorem leaveBestEffort_lossy (e : Port) (id : FrameId) (s : State) :
    Lossy s (leaveBestEffort e id s) (.returning [id]) := by
  have run := (modEgress_lossy e (fun x => { x with beCount := x.beCount - ((s.frame id).map (·.cells)).getD 0 }) s).trans
    (returnRef_lossy id _)
  rwa [Tally.none_add] at run

/-- What a class queue counts that a LINK_DOWN drops (R20). -/
def queueTally (p : Port) (ids : List FrameId) : Tally where
  ids := ids
  port := fun e i => if e = p ∧ i = PortCounter.beLinkDown.index then ids.length else 0
  flags := fun e => if e = p ∧ ids ≠ [] then Flag.beDrop.bit else 0
  leg := fun _ _ _ => 0
  reports := fun i => if i = (DeviceCounter.total .linkDown).index then ids.length else 0
  freed := fun _ => false

theorem queueTally_nil (p : Port) : queueTally p [] = .none := by
  simp [queueTally, Tally.none]

theorem queueTally_cons (p : Port) (id : FrameId) (ids : List FrameId) :
    (queueTally p [id]).add (queueTally p ids) = queueTally p (id :: ids) := by
  simp only [queueTally, Tally.add, Tally.mk.injEq, List.singleton_append, true_and, Bool.or_false, and_true, Nat.add_zero]
  refine ⟨?_, ?_, ?_⟩
  · funext e i
    by_cases h : e = p ∧ i = PortCounter.beLinkDown.index
    · simp [h, Nat.add_comm]
    · simp [h]
  · funext e
    by_cases h : e = p <;> by_cases empty : ids = [] <;> simp [h, empty]
  · funext i
    by_cases h : i = (DeviceCounter.total .linkDown).index
    · simp [h, Nat.add_comm]
    · simp [h]

/-- One best-effort frame is dropped by a LINK_DOWN (R20). -/
def dropWaiting (p : Port) (id : FrameId) (s : State) : State :=
  leaveBestEffort p id (beDrop .linkDown .beLinkDown (((s.frame id).map (·.ingress)).getD p) p s)

theorem dropQueue_eq (p : Port) (c : ClassNo) (s : State) : dropQueue p c s = forAll s.egress[p].queues[c] (dropWaiting p)
    (s.modEgress p fun x => { x with queues := Table.upd x.queues c fun _ => [] }) := rfl

theorem dropWaiting_lossy (p : Port) (id : FrameId) (s : State) :
    Lossy s (dropWaiting p id s) (queueTally p [id]) := by
  have figures : (Tally.ofPort p .beLinkDown).add ((Tally.ofReport .linkDown).add ((Tally.ofFlag p .beDrop).add
      (.returning [id]))) = queueTally p [id] := by
    simp [Tally.ofPort, Tally.ofReport, Tally.ofFlag, Tally.returning, Tally.none, Tally.add, queueTally]
  rw [← figures]
  exact (bumpPort_lossy p .beLinkDown s).trans ((makeReport_lossy _ _).trans
    ((setFlag_lossy p .beDrop _).trans (leaveBestEffort_lossy p id _)))

theorem forAll_dropWaiting_lossy (p : Port) (ids : List FrameId) (s : State) :
    Lossy s (forAll ids (dropWaiting p) s) (queueTally p ids) := by
  induction ids generalizing s with
  | nil => rw [queueTally_nil]; exact .quiet rfl fun _ => rfl
  | cons id ids ih =>
    rw [← queueTally_cons]
    exact (dropWaiting_lossy p id s).trans (ih _)

theorem dropQueue_lossy (p : Port) (c : ClassNo) (s : State) :
    Lossy s (dropQueue p c s) (queueTally p s.egress[p].queues[c]) := by
  rw [dropQueue_eq]
  have run := (modEgress_lossy p (fun x => { x with queues := Table.upd x.queues c fun _ => [] }) s).trans
    (forAll_dropWaiting_lossy p s.egress[p].queues[c] _)
  rwa [Tally.none_add] at run

/-! ### The wire -/

/-- What the frame or copy on the wire counts that a LINK_DOWN cuts off (R20). -/
def wireTally (p : Port) (x : Transmission) : Tally where
  ids := [x.frame]
  port := fun e i => if e = p ∧ i = PortCounter.txAborted.index then 1 else 0
  flags := fun e => if e = p then (if x.kind = .bestEffort then Flag.beDrop.bit else Flag.motionDrop.bit) else 0
  leg := fun _ _ _ => 0
  reports := fun i => if i = (DeviceCounter.total .linkDown).index then 1 else 0
  freed := fun _ => false

/-- A leg without a frame kept for a twin copy that was cut off. -/
def unretained (id : FrameId) (l : Leg) : Leg := { l with retained := l.retained.erase id }

/-- The wire is cut: it falls idle, and the cut is counted. -/
abbrev wireIdle (p : Port) (s : State) : State :=
  bumpPort p .txAborted (s.modEgress p fun y => { y with wire := none })

/-- The stream whose frame or copy is sent. -/
def motionOf : WireKind → Option StreamNo
  | .motion n _ => some n
  | .copy n => some n
  | .bestEffort => none

theorem cutWire_none {p : Port} {s : State} (h : s.egress[p].wire = none) : cutWire p s = s := by
  rw [cutWire, h]

theorem cutWire_motion {p : Port} {s : State} {x : Transmission} {n : StreamNo} (h : s.egress[p].wire = some x)
    (motion : motionOf x.kind = some n) : cutWire p s = cutMotion n p x.frame (wireIdle p s) := by
  obtain ⟨id, started, kind⟩ := x
  rw [cutWire, h]
  cases kind <;> cases motion <;> rfl

theorem cutWire_bestEffort {p : Port} {s : State} {x : Transmission} (h : s.egress[p].wire = some x)
    (kind : x.kind = .bestEffort) :
    cutWire p s = leaveBestEffort p x.frame (setFlag p .beDrop (reportCutOff p none (wireIdle p s))) := by
  obtain ⟨id, started, _⟩ := x
  cases kind
  rw [cutWire, h]

theorem motionOf_none {k : WireKind} (h : motionOf k = none) : k = .bestEffort := by
  cases k with
  | bestEffort => rfl
  | motion n kept => cases h
  | copy n => cases h

theorem motionOf_some {k : WireKind} {n : StreamNo} (h : motionOf k = some n) : k ≠ .bestEffort := by
  rintro rfl; cases h

theorem cutMotion_lossy (n : StreamNo) (p : Port) (id : FrameId) (s : State) : Lossy s (cutMotion n p id s)
    ((Tally.ofReport .linkDown).add ((Tally.ofFlag p .motionDrop).add (.returning [id]))) := by
  have run := (makeReport_lossy ⟨s.stamped .linkDown (.egress p) (some n), none, none, true⟩ s).trans
    ((setFlag_lossy p .motionDrop _).trans ((modLeg_lossy n p (unretained id) _).trans (returnRef_lossy id _)))
  rw [Tally.none_add] at run
  exact run

theorem wireIdle_lossy (p : Port) (s : State) : Lossy s (wireIdle p s) (.ofPort p .txAborted) := by
  have run := (modEgress_lossy p (fun y => { y with wire := none }) s).trans (bumpPort_lossy p .txAborted _)
  rwa [Tally.none_add] at run

theorem cutWire_lossy (p : Port) (s : State) :
    Lossy s (cutWire p s) (s.egress[p].wire.elim .none (wireTally p)) := by
  cases wire : s.egress[p].wire with
  | none => rw [cutWire_none wire]; exact .quiet rfl fun _ => rfl
  | some x =>
    cases motion : motionOf x.kind with
    | some n =>
      have figures : (Tally.ofPort p .txAborted).add ((Tally.ofReport .linkDown).add ((Tally.ofFlag p .motionDrop).add
          (.returning [x.frame]))) = wireTally p x := by
        simp [Tally.ofPort, Tally.ofReport, Tally.ofFlag, Tally.returning, Tally.none, Tally.add, wireTally, motionOf_some motion]
      rw [cutWire_motion wire motion, Option.elim, ← figures]
      exact (wireIdle_lossy p s).trans (cutMotion_lossy n p x.frame _)
    | none =>
      have kind := motionOf_none motion
      have figures : (Tally.ofPort p .txAborted).add ((Tally.ofReport .linkDown).add ((Tally.ofFlag p .beDrop).add
          (.returning [x.frame]))) = wireTally p x := by
        simp [Tally.ofPort, Tally.ofReport, Tally.ofFlag, Tally.returning, Tally.none, Tally.add, wireTally, kind]
      rw [cutWire_bestEffort wire kind, Option.elim, ← figures]
      exact (wireIdle_lossy p s).trans ((makeReport_lossy _ _).trans
        ((setFlag_lossy p .beDrop _).trans (leaveBestEffort_lossy p x.frame _)))

/-! ### The legs -/

theorem leaveBestEffort_bare (e : Port) (id : FrameId) (s : State) (n : StreamNo) :
    bare (leaveBestEffort e id s) n = bare s n :=
  returnRef_bare id _ n

theorem dropQueue_bare (p : Port) (c : ClassNo) (s : State) (n : StreamNo) : bare (dropQueue p c s) n = bare s n := by
  have loop (ids : List FrameId) (t : State) : bare (forAll ids (dropWaiting p) t) n = bare t n := by
    induction ids generalizing t with
    | nil => rfl
    | cons id ids ih => exact (ih _).trans (leaveBestEffort_bare p id _ n)
  rw [dropQueue_eq]
  exact loop _ _

theorem cutMotion_bare (n : StreamNo) (p : Port) (id : FrameId) (s : State) (m : StreamNo) :
    bare (cutMotion n p id s) m = if m = n then (bare s n).map (onLegs p (unretained id)) else bare s m :=
  (returnRef_bare id _ m).trans (modLeg_bare n p (unretained id) _ m)

/-- The streams after the wire is cut: the frame or copy that was on it is kept no more (R20). -/
theorem cutWire_bare (p : Port) (s : State) (m : StreamNo) : bare (cutWire p s) m =
    ((s.egress[p].wire.filter fun x => motionOf x.kind == some m).elim (bare s m) fun x =>
      (bare s m).map (onLegs p (unretained x.frame))) := by
  cases wire : s.egress[p].wire with
  | none => rw [cutWire_none wire]; rfl
  | some x =>
    cases motion : motionOf x.kind with
    | some n =>
      rw [cutWire_motion wire motion, cutMotion_bare]
      by_cases h : m = n
      · subst h
        have here : (some x).filter (fun x => motionOf x.kind == some m) = some x := by simp [Option.filter, motion]
        rw [if_pos rfl, here]
        rfl
      · have h' : ¬n = m := fun e => h e.symm
        have other : (some x).filter (fun x => motionOf x.kind == some m) = none := by simp [Option.filter, motion, h']
        rw [if_neg h, other]
        rfl
    | none =>
      have other : (some x).filter (fun x => motionOf x.kind == some m) = none := by simp [Option.filter, motion]
      rw [cutWire_bestEffort wire (motionOf_none motion), leaveBestEffort_bare, other]
      rfl

/-- The frames kept behind the wire once it is cut, and the slots as they were. -/
theorem cutWire_leg (p : Port) (s : State) (n : StreamNo) : (cutWire p s).leg n p =
    ((s.egress[p].wire.filter fun x => motionOf x.kind == some n).elim (s.leg n p) fun x =>
      (s.leg n p).map (unretained x.frame)) := by
  have bares := cutWire_bare p s n
  rw [leg_eq_bare, leg_eq_bare, bares]
  cases s.egress[p].wire.filter fun x => motionOf x.kind == some n with
  | none => rfl
  | some x =>
    show (((bare s n).map (onLegs p (unretained x.frame))).bind _) = _
    cases bare s n with
    | none => rfl
    | some y => exact (find_onLegs (f := unretained x.frame) (fun _ => rfl) p p y.legs).trans (if_pos rfl)

theorem cutWire_slotOf (p : Port) (s : State) (n : StreamNo) : (cutWire p s).slotOf n p = s.slotOf n p := by
  rw [slotOf_eq, cutWire_leg, slotOf_eq]
  cases s.egress[p].wire.filter fun x => motionOf x.kind == some n with
  | none => rfl
  | some x =>
    show (((s.leg n p).map (unretained x.frame)).map _).getD [] = _
    cases s.leg n p <;> rfl

theorem keptBehind_eq (s : State) (p : Port) (n : StreamNo) : keptBehind s p n =
    (s.egress[p].wire.filter fun x => motionOf x.kind == some n).elim (s.retainedOf n p) fun x =>
      (s.retainedOf n p).erase x.frame := by
  unfold keptBehind
  cases s.egress[p].wire with
  | none => rfl
  | some x =>
    obtain ⟨id, started, kind⟩ := x
    cases kind with
    | motion m kept => by_cases h : m = n <;> simp [motionOf, Option.filter, h]
    | copy m => by_cases h : m = n <;> simp [motionOf, Option.filter, h]
    | bestEffort => simp [motionOf, Option.filter]

theorem cutWire_retainedOf (p : Port) (s : State) (n : StreamNo) :
    (cutWire p s).retainedOf n p = keptBehind s p n := by
  rw [retainedOf_eq, cutWire_leg, keptBehind_eq, retainedOf_eq]
  cases s.egress[p].wire.filter fun x => motionOf x.kind == some n with
  | none => rfl
  | some x =>
    show (((s.leg n p).map (unretained x.frame)).map _).getD [] = _
    cases s.leg n p with
    | none => simp
    | some l => rfl

/-! ### The egress -/

/-- The cells that the frame of a handle takes. -/
def cellsAt (s : State) (id : FrameId) : Nat := ((s.frame id).map (·.cells)).getD 0

/-- A return leaves the cells of every other frame. -/
theorem cellsAt_returned {s t : State} {ids : List FrameId} {freed : StreamNo → Bool} (h : Returned s t ids freed)
    {id : FrameId} (other : id ∉ ids) : cellsAt t id = cellsAt s id := by
  cases stored : s.frame id with
  | none => rw [cellsAt, h.absent id stored, cellsAt, stored]
  | some r =>
    have found := h.frames id r stored
    rw [if_neg fun k => k.1 (List.count_eq_zero.2 other)] at found
    rw [cellsAt, found, cellsAt, stored]
    rfl

/-- The egress after a best-effort frame left it (R117). -/
theorem leaveBestEffort_egress (e : Port) (id : FrameId) (s : State) : (leaveBestEffort e id s).egress =
    Table.upd s.egress e fun x => { x with beCount := x.beCount - cellsAt s id } :=
  returnRef_egress id _

/-- The egress after some of its best-effort frames left it, none of them twice. -/
theorem forAll_dropWaiting_egress (p : Port) {ids : List FrameId} (once : ids.Nodup) (s : State) :
    (forAll ids (dropWaiting p) s).egress =
      Table.upd s.egress p fun x => { x with beCount := x.beCount - (ids.map (cellsAt s)).sum } := by
  induction ids generalizing s with
  | nil => exact (upd_id rfl).symm
  | cons id ids ih =>
    obtain ⟨new, once⟩ := List.nodup_cons.1 once
    have first : (dropWaiting p id s).egress = Table.upd s.egress p fun x => { x with beCount := x.beCount - cellsAt s id } :=
      leaveBestEffort_egress p id _
    have cells : ids.map (cellsAt (dropWaiting p id s)) = ids.map (cellsAt s) :=
      List.map_congr_left fun i hi => cellsAt_returned (dropWaiting_lossy p id s).returned
        (by simp only [queueTally, List.mem_singleton]; rintro rfl; exact new hi)
    refine (ih once _).trans ?_
    rw [first, cells, upd_upd]
    simp only [List.map_cons, List.sum_cons, Nat.sub_sub]

/-- The other egress schedulers, and the rest of this one, when best effort is dropped. -/
theorem forAll_dropWaiting_others (p : Port) (ids : List FrameId) (s : State) : ∃ k,
    (forAll ids (dropWaiting p) s).egress = Table.upd s.egress p fun x => { x with beCount := k } := by
  induction ids generalizing s with
  | nil => exact ⟨s.egress[p].beCount, (upd_id rfl).symm⟩
  | cons id ids ih =>
    obtain ⟨k, hk⟩ := ih (dropWaiting p id s)
    refine ⟨k, hk.trans ?_⟩
    have first : (dropWaiting p id s).egress = Table.upd s.egress p fun x => { x with beCount := x.beCount - cellsAt s id } :=
      leaveBestEffort_egress p id _
    rw [first, upd_upd]

end Sys2Proof.PortLaws
end

section
/-! SUPPORT. The egress emptied by a LINK_DOWN (R20): its steps one after another, and the figures of the whole. -/

namespace Sys2Proof.PortLaws

open Sys2Proof.Machine Sys2Proof.Safety Sys2Proof.Laws Sys2Proof.CellTime

/-! ### The class queues -/

/-- Class queues of which some were emptied. -/
def emptied (cs : List ClassNo) (q : Table (List FrameId) 4) : Table (List FrameId) 4 :=
  cs.foldl (fun q c => Table.upd q c fun _ => []) q

theorem emptied_get (cs : List ClassNo) (q : Table (List FrameId) 4) (c : ClassNo) :
    (emptied cs q)[c] = if c ∈ cs then [] else q[c] := by
  induction cs generalizing q with
  | nil => simp [emptied]
  | cons d cs ih =>
    have step : emptied (d :: cs) q = emptied cs (Table.upd q d fun _ => []) := rfl
    rw [step, ih, upd_get]
    by_cases h : c ∈ cs <;> by_cases h' : c = d <;> simp [h, h']

/-- What a dropped class queue leaves of the egress schedulers. -/
theorem dropQueue_egress (p : Port) (c : ClassNo) (s : State) : ∃ k, (dropQueue p c s).egress =
    Table.upd s.egress p fun x => { x with queues := Table.upd x.queues c fun _ => [], beCount := k } := by
  rw [dropQueue_eq]
  obtain ⟨k, hk⟩ := forAll_dropWaiting_others p s.egress[p].queues[c]
    (s.modEgress p fun x => { x with queues := Table.upd x.queues c fun _ => [] })
  refine ⟨k, hk.trans ?_⟩
  rw [State.modEgress_egress, upd_upd]

theorem forAll_dropQueue_egress (p : Port) (cs : List ClassNo) (s : State) : ∃ k, (forAll cs (dropQueue p) s).egress =
    Table.upd s.egress p fun x => { x with queues := emptied cs x.queues, beCount := k } := by
  induction cs generalizing s with
  | nil => exact ⟨s.egress[p].beCount, (upd_id rfl).symm⟩
  | cons c cs ih =>
    obtain ⟨j, hj⟩ := dropQueue_egress p c s
    obtain ⟨k, hk⟩ := ih (dropQueue p c s)
    refine ⟨k, hk.trans ?_⟩
    rw [hj, upd_upd]
    rfl

/-- A dropped class queue leaves the others. -/
theorem dropQueue_queues (p : Port) {c d : ClassNo} (h : d ≠ c) (s : State) :
    (dropQueue p c s).egress[p].queues[d] = s.egress[p].queues[d] := by
  obtain ⟨k, hk⟩ := dropQueue_egress p c s
  rw [hk, upd_get, if_pos rfl]
  exact upd_other _ _ _ _ h

/-- The best-effort count after a class queue was dropped, no frame of which stands there twice (R20). -/
theorem dropQueue_beCount (p : Port) (c : ClassNo) {s : State} (once : s.egress[p].queues[c].Nodup) :
    (dropQueue p c s).egress[p].beCount = s.egress[p].beCount - (s.egress[p].queues[c].map (cellsAt s)).sum := by
  rw [dropQueue_eq, forAll_dropWaiting_egress p once, State.modEgress_egress, upd_upd, upd_get, if_pos rfl]
  rfl

/-- The frames of some class queues. -/
def queued (s : State) (p : Port) (cs : List ClassNo) : List FrameId := cs.flatMap fun c => s.egress[p].queues[c]

theorem queued_dropQueue (p : Port) {c : ClassNo} {cs : List ClassNo} (h : c ∉ cs) (s : State) :
    queued (dropQueue p c s) p cs = queued s p cs :=
  List.flatMap_congr fun d hd => dropQueue_queues p (fun e => h (by rw [← e]; exact hd)) s

theorem forAll_dropQueue_beCount (p : Port) {cs : List ClassNo} (classes : cs.Nodup) {s : State}
    (once : (queued s p cs).Nodup) : (forAll cs (dropQueue p) s).egress[p].beCount =
      s.egress[p].beCount - ((queued s p cs).map (cellsAt s)).sum := by
  induction cs generalizing s with
  | nil => simp [queued, forAll]
  | cons c cs ih =>
    obtain ⟨new, classes⟩ := List.nodup_cons.1 classes
    have split : queued s p (c :: cs) = s.egress[p].queues[c] ++ queued s p cs := rfl
    rw [split] at once ⊢
    obtain ⟨here, later, apart⟩ := List.nodup_append.1 once
    have same := queued_dropQueue p new s
    have cells : (queued s p cs).map (cellsAt (dropQueue p c s)) = (queued s p cs).map (cellsAt s) :=
      List.map_congr_left fun i hi => cellsAt_returned (dropQueue_lossy p c s).returned
        fun twice => apart i twice i hi rfl
    have rest := ih classes (s := dropQueue p c s) (by rw [same]; exact later)
    rw [same, cells, dropQueue_beCount p c here, Nat.sub_sub, ← List.sum_append, ← List.map_append] at rest
    exact rest

/-! ### The wire -/

/-- The best-effort frame on the wire, if one is. -/
def wireBestEffort (s : State) (p : Port) : List FrameId :=
  (s.egress[p].wire.toList.filter (·.kind == .bestEffort)).map (·.frame)

/-- The egress schedulers after the wire was cut (R20). -/
theorem cutWire_egress (p : Port) (s : State) : (cutWire p s).egress = Table.upd s.egress p fun x =>
    { x with wire := none, beCount := x.beCount - ((wireBestEffort s p).map (cellsAt s)).sum } := by
  cases wire : s.egress[p].wire with
  | none =>
    rw [cutWire_none wire]
    refine (upd_id ?_).symm
    simp only [wireBestEffort, wire, Option.toList, List.filter_nil, List.map_nil, List.sum_nil, Nat.sub_zero]
    rw [← wire]
  | some x =>
    cases motion : motionOf x.kind with
    | some n =>
      have egress : (cutMotion n p x.frame (wireIdle p s)).egress = Table.upd s.egress p fun y => { y with wire := none } :=
        returnRef_egress _ _
      have none : wireBestEffort s p = [] := by simp [wireBestEffort, wire, motionOf_some motion, -Fin.getElem_fin]
      rw [cutWire_motion wire motion, egress, none]
      rfl
    | none =>
      have kind := motionOf_none motion
      have one : wireBestEffort s p = [x.frame] := by simp [wireBestEffort, wire, kind, -Fin.getElem_fin]
      have egress : (setFlag p .beDrop (reportCutOff p none (wireIdle p s))).egress =
        Table.upd s.egress p fun y => { y with wire := none } := rfl
      rw [cutWire_bestEffort wire kind, leaveBestEffort_egress, egress, upd_upd, one]
      rfl

/-! ### The slots and the twin-retained lists -/

/-- One leg of every stream changed, the change being the same made twice. -/
theorem forAll_leg {f : StreamNo → State → State} {g : Leg → Leg} {p : Port} (twice : ∀ l, g (g l) = g l)
    (h : ∀ n s m q, (f n s).leg m q = if m = n ∧ q = p then (s.leg n p).map g else s.leg m q) (ns : List StreamNo)
    (s : State) (m : StreamNo) :
    (forAll ns f s).leg m p = if m ∈ ns then (s.leg m p).map g else s.leg m p := by
  induction ns generalizing s with
  | nil => rfl
  | cons n ns ih =>
    refine (ih (f n s)).trans ?_
    rw [h]
    by_cases hm : m = n
    · subst hm
      have again : (g ∘ g) = g := funext twice
      by_cases later : m ∈ ns <;> simp [later, again]
    · by_cases later : m ∈ ns <;> simp [later, hm]

/-- The state with the slots of the legs on an egress dropped by a LINK_DOWN. -/
abbrev slotsDropped (p : Port) (s : State) : State := forAll allStreams (fun n => dropSlot .linkDown n p) s

/-- The state with the twin-retained lists of the legs on an egress let go. -/
abbrev allLetGo (p : Port) (s : State) : State := forAll allStreams (fun n => letGo n p) s

theorem mem_allStreams (n : StreamNo) : n ∈ allStreams := List.mem_finRange n

theorem slotsDropped_leg (p : Port) (s : State) (n : StreamNo) :
    (slotsDropped p s).leg n p = (s.leg n p).map noSlot := by
  rw [slotsDropped, forAll_leg (g := noSlot) (fun _ => rfl) (fun n s m q => dropSlot_leg .linkDown n p s m q),
    if_pos (mem_allStreams n)]

theorem allLetGo_leg (p : Port) (s : State) (n : StreamNo) : (allLetGo p s).leg n p = (s.leg n p).map noRetained := by
  rw [allLetGo, forAll_leg (g := noRetained) (fun _ => rfl) (fun n s m q => letGo_leg n p s m q),
    if_pos (mem_allStreams n)]

theorem slotsDropped_lossy (p : Port) (s : State) : Lossy s (slotsDropped p s)
    (.sum (allStreams.map fun n => slotTally .linkDown .linkDown n p (s.slotOf n p))) := by
  refine forAll_lossy (a := fun s n => slotTally .linkDown .linkDown n p (s.slotOf n p))
    (fun n s => dropSlot_lossy rfl n p s) ?_ s
  refine (List.nodup_finRange 128).imp fun {n m} apart t => ?_
  rw [slotOf_eq, dropSlot_leg, if_neg fun e => apart e.1.symm, ← slotOf_eq]

theorem allLetGo_lossy (p : Port) (s : State) : Lossy s (allLetGo p s)
    (.sum (allStreams.map fun n => .returning (s.retainedOf n p))) := by
  refine forAll_lossy (a := fun s n => Tally.returning (s.retainedOf n p)) (fun n s => letGo_lossy n p s) ?_ s
  refine (List.nodup_finRange 128).imp fun {n m} apart t => ?_
  rw [retainedOf_eq, letGo_leg, if_neg fun e => apart e.1.symm, ← retainedOf_eq]

theorem forAll_egress {α : Type} {f : α → State → State} (h : ∀ x s, (f x s).egress = s.egress) (xs : List α) (s : State) :
    (forAll xs f s).egress = s.egress := by
  induction xs generalizing s with
  | nil => rfl
  | cons x xs ih => exact (ih _).trans (h x s)

end Sys2Proof.PortLaws
end

section
/-! SUPPORT. The egress emptied by a LINK_DOWN (R20), as a whole: what it counts, and what it leaves. -/

namespace Sys2Proof.PortLaws

open Sys2Proof.Machine Sys2Proof.Safety Sys2Proof.Laws Sys2Proof.CellTime

/-! ### The figures -/

/-- What an egress counts that a LINK_DOWN empties (R20): the wire, the class queues, the slots, and the frames kept for twin
copies. -/
def emptyTally (s : State) (p : Port) : Tally :=
  (s.egress[p].wire.elim .none (wireTally p)).add
    ((Tally.sum (([3, 2, 1, 0] : List ClassNo).map fun c => queueTally p s.egress[p].queues[c])).add
      ((Tally.sum (allStreams.map fun n => slotTally .linkDown .linkDown n p (s.slotOf n p))).add
        (.sum (allStreams.map fun n => .returning (keptBehind s p n)))))

/-- A figure of a sum of tallies, one for each of a list, is the sum of the figures. -/
theorem Tally.sum_map {α : Type} (figure : Tally → Nat) (none : figure .none = 0)
    (add : ∀ a b, figure (a.add b) = figure a + figure b) (f : α → Tally) (xs : List α) :
    figure (.sum (xs.map f)) = (xs.map fun x => figure (f x)).sum := by
  induction xs with
  | nil => exact none
  | cons x xs ih => rw [List.map_cons, List.map_cons, List.sum_cons, ← ih]; exact add _ _

/-- The same figure of the parts of what an emptied egress counts. -/
theorem emptyTally_figure (figure : Tally → Nat) (none : figure .none = 0)
    (add : ∀ a b, figure (a.add b) = figure a + figure b) (s : State) (p : Port) : figure (emptyTally s p) =
      (s.egress[p].wire.elim 0 fun x => figure (wireTally p x)) +
        ((([3, 2, 1, 0] : List ClassNo).map fun c => figure (queueTally p s.egress[p].queues[c])).sum +
          ((allStreams.map fun n => figure (slotTally .linkDown .linkDown n p (s.slotOf n p))).sum +
            (allStreams.map fun n => figure (.returning (keptBehind s p n))).sum)) := by
  have wire (w : Option Transmission) : figure (w.elim .none (wireTally p)) = w.elim 0 fun x => figure (wireTally p x) := by
    cases w with
    | none => exact none
    | some x => rfl
  rw [emptyTally, add, add, add, wire, Tally.sum_map figure none add, Tally.sum_map figure none add,
    Tally.sum_map figure none add]

theorem table4_toList {α : Type} (q : Table α 4) : q.toList = [q[(0 : Fin 4)], q[(1 : Fin 4)], q[(2 : Fin 4)], q[(3 : Fin 4)]] := by
  obtain ⟨⟨xs⟩, size⟩ := q
  match xs, size with
  | [a, b, c, d], _ => rfl

/-- The frames in the class queues, class by class. -/
theorem classFrames_eq (s : State) (p : Port) :
    classFrames s p = (([3, 2, 1, 0] : List ClassNo).map fun c => s.egress[p].queues[c].length).sum := by
  rw [classFrames, table4_toList]
  show [_, _, _, _].sum = [_, _, _, _].sum
  simp only [List.sum_cons, List.sum_nil]
  omega

theorem queues_perm (s : State) (p : Port) :
    (queued s p [3, 2, 1, 0]).Perm s.egress[p].queues.toList.flatten := by
  rw [table4_toList]
  let q : Table (List FrameId) 4 := s.egress[p].queues
  exact (List.reverse_perm [q[(0 : Fin 4)], q[(1 : Fin 4)], q[(2 : Fin 4)], q[(3 : Fin 4)]]).flatten

theorem emptyTally_ids (s : State) (p : Port) : (emptyTally s p).ids.Perm (lostFrames s p) := by
  have wire : (s.egress[p].wire.elim .none (wireTally p)).ids = s.egress[p].wire.toList.map (·.frame) := by
    cases s.egress[p].wire <;> rfl
  have queues : (Tally.sum (([3, 2, 1, 0] : List ClassNo).map fun c => queueTally p s.egress[p].queues[c])).ids =
      queued s p [3, 2, 1, 0] := by
    rw [Tally.sum_ids, List.flatMap_map]; rfl
  have slots : (Tally.sum (allStreams.map fun n => slotTally .linkDown .linkDown n p (s.slotOf n p))).ids =
      allStreams.flatMap fun n => s.slotOf n p := by
    rw [Tally.sum_ids, List.flatMap_map]; rfl
  have kept : (Tally.sum (allStreams.map fun n => .returning (keptBehind s p n))).ids =
      allStreams.flatMap fun n => keptBehind s p n := by
    rw [Tally.sum_ids, List.flatMap_map]; rfl
  simp only [emptyTally, Tally.add, lostFrames]
  rw [wire, queues, slots, kept, List.append_assoc]
  exact ((queues_perm s p).append (List.flatMap_append_perm _ _ _)).append_left _

/-- One summand for each stream, zero at all but one. -/
theorem sum_streams (n : StreamNo) (k : StreamNo → Nat) : (allStreams.map fun m => if n = m then k m else 0).sum = k n := by
  rw [allStreams, ← Fin.sum_univ_def, Finset.sum_ite_eq, if_pos (Finset.mem_univ n)]

theorem sum_zeros {α : Type} (xs : List α) : (xs.map fun _ => 0).sum = 0 := by
  rw [List.map_const', List.sum_replicate, smul_zero]

theorem emptyTally_port (s : State) (p : Port) (i : Fin 21) : (emptyTally s p).port p i =
    if i = 14 then (if s.egress[p].wire.isSome then 1 else 0) else if i = 16 then classFrames s p else 0 := by
  rw [emptyTally_figure (fun a => a.port p i) rfl (fun _ _ => rfl), classFrames_eq]
  simp only [wireTally, queueTally, slotTally, Tally.returning, Tally.none, sum_zeros, Nat.add_zero, true_and,
    PortCounter.index]
  by_cases h : i = 14
  · subst h; cases s.egress[p].wire <;> rfl
  · by_cases h' : i = 16
    · subst h'; cases s.egress[p].wire <;> simp
    · cases s.egress[p].wire <;> simp [h, h']

theorem emptyTally_port_other (s : State) {p e : Port} (h : e ≠ p) (i : Fin 21) : (emptyTally s p).port e i = 0 := by
  rw [emptyTally_figure (fun a => a.port e i) rfl (fun _ _ => rfl)]
  simp only [wireTally, queueTally, slotTally, Tally.returning, Tally.none, sum_zeros, Nat.add_zero, h, false_and, if_false]
  cases s.egress[p].wire <;> rfl

theorem emptyTally_leg (s : State) (p : Port) (n : StreamNo) (e : Port) (i : Fin 13) :
    (emptyTally s p).leg n e i = if e = p ∧ i = 9 then (s.slotOf n p).length else 0 := by
  rw [emptyTally_figure (fun a => a.leg n e i) rfl (fun _ _ => rfl)]
  simp only [wireTally, queueTally, slotTally, Tally.returning, Tally.none, sum_zeros, Nat.add_zero, LegCounter.index]
  rw [show ∀ x : Option Transmission, (x.elim 0 fun _ => 0) = 0 by intro x; cases x <;> rfl, Nat.zero_add, Nat.zero_add]
  by_cases h : e = p ∧ i = 9
  · simp only [h, and_self, and_true, if_true]
    exact sum_streams n fun m => (s.slotOf m p).length
  · simp only [h, and_false, if_false, sum_zeros]

theorem emptyTally_reports (s : State) (p : Port) (i : Fin 28) : (emptyTally s p).reports i =
    if i = 11 then (if s.egress[p].wire.isSome then 1 else 0) + classFrames s p + slotFrames s p else 0 := by
  rw [emptyTally_figure (fun a => a.reports i) rfl (fun _ _ => rfl), classFrames_eq]
  have total : (DeviceCounter.total .linkDown).index = 11 := rfl
  simp only [wireTally, queueTally, slotTally, Tally.returning, Tally.none, sum_zeros, Nat.add_zero, total]
  by_cases h : i = 11
  · simp only [h, if_true, slotFrames, allStreams, Nat.add_assoc]
    cases s.egress[p].wire <;> rfl
  · simp only [h, if_false, sum_zeros]
    cases s.egress[p].wire <;> rfl

theorem emptyTally_freed (s : State) (p : Port) (n : StreamNo) : (emptyTally s p).freed n = false := by
  have wire : (s.egress[p].wire.elim .none (wireTally p)).freed n = false := by
    cases s.egress[p].wire <;> rfl
  simp only [emptyTally, Tally.add]
  rw [wire, Tally.sum_freed, Tally.sum_freed, Tally.sum_freed]
  simp [queueTally, slotTally, Tally.returning, Tally.none]

/-! ### The flags -/

theorem emptyTally_flags_other (s : State) {p e : Port} (h : e ≠ p) : (emptyTally s p).flags e = 0 := by
  have wire : (s.egress[p].wire.elim .none (wireTally p)).flags e = 0 := by
    cases s.egress[p].wire <;> simp [Tally.none, wireTally, h]
  refine BitVec.eq_of_getLsbD_eq fun k _ => ?_
  simp only [emptyTally, Tally.add, BitVec.getLsbD_or, Tally.sum_flags]
  rw [wire]
  simp [queueTally, slotTally, Tally.returning, Tally.none, h]

/-- Some slot of the egress holds a frame. -/
theorem slotFrames_ne_zero (s : State) (p : Port) : (slotFrames s p != 0) = allStreams.any fun n => !decide (s.slotOf n p = []) := by
  rw [Bool.eq_iff_iff, bne_iff_ne, slotFrames, Ne, List.sum_eq_zero_iff]
  simp [allStreams]

/-- Some class queue of the egress holds a frame. -/
theorem classFrames_ne_zero (s : State) (p : Port) :
    (classFrames s p != 0) = ([3, 2, 1, 0] : List ClassNo).any fun c => !decide (s.egress[p].queues[c] = []) := by
  rw [Bool.eq_iff_iff, bne_iff_ne, classFrames_eq, Ne, List.sum_eq_zero_iff, List.any_eq_true]
  simp only [List.mem_map, Bool.not_eq_true', decide_eq_false_iff_not, forall_exists_index, and_imp, forall_apply_eq_imp_iff₂, List.length_eq_zero_iff]
  push Not
  rfl

theorem motionDrop_getLsbD (k : Nat) : Flag.motionDrop.bit.getLsbD k = (k == 3) := by
  rw [show Flag.motionDrop.bit = BitVec.twoPow 6 3 from rfl, BitVec.getLsbD_twoPow]
  simp only [Nat.reduceLT, decide_true, Bool.true_and, eq_comm]
  rfl

theorem beDrop_getLsbD (k : Nat) : Flag.beDrop.bit.getLsbD k = (k == 4) := by
  rw [show Flag.beDrop.bit = BitVec.twoPow 6 4 from rfl, BitVec.getLsbD_twoPow]
  simp only [Nat.reduceLT, decide_true, Bool.true_and, eq_comm]
  rfl

theorem getLsbD_ite (c : Prop) [Decidable c] (x : BitVec 6) (k : Nat) :
    (if c then x else 0).getLsbD k = (decide c && x.getLsbD k) := by
  by_cases h : c <;> simp [h]

theorem emptyTally_flags (s : State) (p : Port) (k : Nat) : ((emptyTally s p).flags p).getLsbD k =
    ((k == 3 && (s.egress[p].wire.any (fun x => x.kind != .bestEffort) || slotFrames s p != 0)) ||
     (k == 4 && (s.egress[p].wire.any (fun x => x.kind == .bestEffort) || classFrames s p != 0))) := by
  have wire : ((s.egress[p].wire.elim .none (wireTally p)).flags p).getLsbD k =
      ((k == 3 && s.egress[p].wire.any fun x => x.kind != .bestEffort) ||
       (k == 4 && s.egress[p].wire.any fun x => x.kind == .bestEffort)) := by
    cases s.egress[p].wire with
    | none => simp [Tally.none]
    | some x =>
      obtain ⟨id, started, kind⟩ := x
      cases kind with
      | bestEffort => simp [wireTally, beDrop_getLsbD]
      | motion n kept =>
        have motion : (WireKind.motion n kept == .bestEffort) = false := rfl
        simp [wireTally, motionDrop_getLsbD, bne, motion]
      | copy n =>
        have copy : (WireKind.copy n == .bestEffort) = false := rfl
        simp [wireTally, motionDrop_getLsbD, bne, copy]
  have none (xs : List StreamNo) : (xs.any fun _ => false) = false := by induction xs <;> simp
  have any_and (α : Type) (xs : List α) (b : Bool) (f : α → Bool) : (xs.any fun x => f x && b) = (b && xs.any f) := by
    cases b <;> simp
  simp only [emptyTally, Tally.add, BitVec.getLsbD_or, Tally.sum_flags, slotFrames_ne_zero, classFrames_ne_zero, wire]
  simp only [List.any_map, Function.comp_def, queueTally, slotTally, Tally.returning, Tally.none, getLsbD_ite, motionDrop_getLsbD,
    beDrop_getLsbD]
  simp only [true_and, ne_eq, decide_not, any_and]
  generalize allStreams.any (fun x => !decide (s.slotOf x p = [])) = slots
  cases k == 3 <;> cases k == 4 <;> cases slots <;> simp [none, Bool.or_assoc, -Fin.getElem_fin]

end Sys2Proof.PortLaws
end

section
/-! SUPPORT. What an egress emptied by a LINK_DOWN leaves (R20): its scheduler, the legs, and all else. -/

namespace Sys2Proof.PortLaws

open Sys2Proof.Machine Sys2Proof.Safety Sys2Proof.Laws Sys2Proof.CellTime

/-! ### The steps of the emptying -/

/-- The egress without its wire and class queues. -/
abbrev queuesDropped (p : Port) (s : State) : State := forAll [3, 2, 1, 0] (dropQueue p) (cutWire p s)

theorem emptyEgress_eq (p : Port) (s : State) : emptyEgress p s =
    (allLetGo p (slotsDropped p (queuesDropped p s))).modEgress p fun x =>
      { x with openWindow := x.openWindow.map fun o => { o with copies := [] } } := rfl

theorem cutWire_queues (p : Port) (s : State) (c : ClassNo) :
    (cutWire p s).egress[p].queues[c] = s.egress[p].queues[c] := by
  rw [cutWire_egress, upd_get, if_pos rfl]

theorem queuesDropped_lossy (p : Port) (s : State) : Lossy s (queuesDropped p s)
    ((s.egress[p].wire.elim .none (wireTally p)).add
      (.sum (([3, 2, 1, 0] : List ClassNo).map fun c => queueTally p s.egress[p].queues[c]))) := by
  have classes : ([3, 2, 1, 0] : List ClassNo).Pairwise (· ≠ ·) := by decide
  have queues := forAll_lossy (a := fun s c => queueTally p s.egress[p].queues[c]) (dropQueue_lossy p)
    (classes.imp fun apart s => congrArg (queueTally p) (dropQueue_queues p apart.symm s)) (cutWire p s)
  rw [List.map_congr_left fun c _ => congrArg (queueTally p) (cutWire_queues p s c)] at queues
  exact (cutWire_lossy p s).trans queues

theorem queuesDropped_bare (p : Port) (s : State) (n : StreamNo) : bare (queuesDropped p s) n = bare (cutWire p s) n := by
  have loop (cs : List ClassNo) (t : State) : bare (forAll cs (dropQueue p) t) n = bare t n := by
    induction cs generalizing t with
    | nil => rfl
    | cons c cs ih => exact (ih _).trans (dropQueue_bare p c t n)
  exact loop _ _

theorem queuesDropped_leg (p : Port) (s : State) (n : StreamNo) (e : Port) :
    (queuesDropped p s).leg n e = (cutWire p s).leg n e :=
  leg_congr (queuesDropped_bare p s n) e

theorem Tally.add_assoc (a b c : Tally) : (a.add b).add c = a.add (b.add c) := by
  simp only [Tally.add, List.append_assoc, Nat.add_assoc, BitVec.or_assoc, Bool.or_assoc]

/-- What a LINK_DOWN counts at the egress that it empties (R20). -/
theorem emptyEgress_lossy (p : Port) (s : State) : Lossy s (emptyEgress p s) (emptyTally s p) := by
  have slots := slotsDropped_lossy p (queuesDropped p s)
  have same (n : StreamNo) : (queuesDropped p s).slotOf n p = s.slotOf n p := by
    rw [slotOf_eq, queuesDropped_leg, ← slotOf_eq, cutWire_slotOf]
  rw [List.map_congr_left fun n _ => congrArg (slotTally .linkDown .linkDown n p) (same n)] at slots
  have kept := allLetGo_lossy p (slotsDropped p (queuesDropped p s))
  have behind (n : StreamNo) : (slotsDropped p (queuesDropped p s)).retainedOf n p = keptBehind s p n := by
    rw [retainedOf_eq, slotsDropped_leg, queuesDropped_leg, ← cutWire_retainedOf, retainedOf_eq, Option.map_map]
    rfl
  rw [List.map_congr_left fun n _ => congrArg Tally.returning (behind n)] at kept
  have run := ((queuesDropped_lossy p s).trans (slots.trans kept)).trans
    (modEgress_lossy p (fun x => { x with openWindow := x.openWindow.map fun o => { o with copies := [] } }) _)
  rwa [Tally.add_none, Tally.add_assoc] at run

/-! ### The egress scheduler -/

theorem emptyEgress_egress (p : Port) (s : State) : (emptyEgress p s).egress = Table.upd s.egress p fun x =>
    { x with wire := none, queues := emptied [3, 2, 1, 0] x.queues
             openWindow := x.openWindow.map fun o => { o with copies := [] }
             beCount := (queuesDropped p s).egress[p].beCount } := by
  have slots : (slotsDropped p (queuesDropped p s)).egress = (queuesDropped p s).egress :=
    forAll_egress (fun n t => dropSlot_egress .linkDown n p t) _ _
  have kept : (allLetGo p (slotsDropped p (queuesDropped p s))).egress = (queuesDropped p s).egress :=
    (forAll_egress (fun n t => letGo_egress n p t) _ _).trans slots
  obtain ⟨k, hk⟩ := forAll_dropQueue_egress p [3, 2, 1, 0] (cutWire p s)
  have count : (queuesDropped p s).egress[p].beCount = k := by
    rw [hk, upd_get, if_pos rfl]
  rw [emptyEgress_eq, State.modEgress_egress, kept, count]
  show Table.upd (forAll _ _ _).egress p _ = _
  rw [hk, cutWire_egress, upd_upd, upd_upd]

/-- The best-effort count falls by the cells of the best-effort frames, none of them standing there twice (R20, R117). -/
theorem emptyEgress_beCount (p : Port) {s : State}
    (once : (s.egress[p].wire.toList.map (·.frame) ++ s.egress[p].queues.toList.flatten).Nodup) :
    (emptyEgress p s).egress[p].beCount = s.egress[p].beCount - ((lostBestEffort s p).map (cellsAt s)).sum := by
  have left : (emptyEgress p s).egress[p].beCount = (queuesDropped p s).egress[p].beCount := by
    rw [emptyEgress_egress, upd_get, if_pos rfl]
  have same : queued (cutWire p s) p [3, 2, 1, 0] = queued s p [3, 2, 1, 0] :=
    List.flatMap_congr fun c _ => cutWire_queues p s c
  obtain ⟨-, queues, apart⟩ := List.nodup_append.1 once
  have cells : (queued s p [3, 2, 1, 0]).map (cellsAt (cutWire p s)) = (queued s p [3, 2, 1, 0]).map (cellsAt s) := by
    refine List.map_congr_left fun id hid => cellsAt_returned (cutWire_lossy p s).returned fun sent => ?_
    refine apart id ?_ id ((queues_perm s p).mem_iff.1 hid) rfl
    revert sent
    cases s.egress[p].wire <;> exact fun h => h
  have wire : (cutWire p s).egress[p].beCount = s.egress[p].beCount - ((wireBestEffort s p).map (cellsAt s)).sum := by
    rw [cutWire_egress, upd_get, if_pos rfl]
  have sum : ((lostBestEffort s p).map (cellsAt s)).sum =
      ((wireBestEffort s p).map (cellsAt s)).sum + ((queued s p [3, 2, 1, 0]).map (cellsAt s)).sum := by
    rw [((queues_perm s p).map _).sum_eq, ← List.sum_append, ← List.map_append]
    rfl
  rw [left, forAll_dropQueue_beCount p (by decide) (by rw [same]; exact (queues_perm s p).nodup_iff.2 queues), same, cells,
    wire, sum, Nat.sub_sub]

/-! ### The legs -/

/-- A leg but for the frames it holds. -/
def hollow (l : Leg) : Leg := { l with slot := [], retained := [] }

/-- A stream but for its alive count and the frames that its legs on one egress hold. -/
def hollowed (s : State) (p : Port) (n : StreamNo) : Option Stream := (bare s n).map (onLegs p hollow)

theorem onLegs_onLegs {f g : Leg → Leg} (h : ∀ l, (f l).egress = l.egress) (e : Port) (x : Stream) :
    onLegs e g (onLegs e f x) = onLegs e (g ∘ f) x := by
  simp only [onLegs, List.map_map]
  congr 2
  funext l
  by_cases k : l.egress = e <;> simp [k, h]

/-- A change of what the legs on an egress hold. -/
theorem hollowed_of_bare {s t : State} {p : Port} {n : StreamNo} {f : Leg → Leg} (egress : ∀ l, (f l).egress = l.egress)
    (same : ∀ l, hollow (f l) = hollow l) (h : bare t n = (bare s n).map (onLegs p f)) :
    hollowed t p n = hollowed s p n := by
  rw [hollowed, h, hollowed, Option.map_map]
  congr 1
  funext x
  rw [Function.comp, onLegs_onLegs egress]
  congr 1
  exact funext same

theorem hollowed_forAll {α : Type} {f : α → State → State} {p : Port} {n : StreamNo}
    (h : ∀ x s, hollowed (f x s) p n = hollowed s p n) (xs : List α) (s : State) :
    hollowed (forAll xs f s) p n = hollowed s p n := by
  induction xs generalizing s with
  | nil => rfl
  | cons x xs ih => exact (ih _).trans (h x s)

/-- Between what it holds, a LINK_DOWN leaves every leg as it was at first. -/
theorem emptyEgress_hollowed (p : Port) (s : State) (n : StreamNo) : hollowed (emptyEgress p s) p n = hollowed s p n := by
  have kept (m : StreamNo) (t : State) : hollowed (letGo m p t) p n = hollowed t p n := by
    have bares := letGo_bare m p t n
    by_cases h : n = m ∧ t.retainedOf m p ≠ []
    · obtain ⟨rfl, -⟩ := id h
      rw [if_pos h] at bares
      exact hollowed_of_bare (f := noRetained) (fun _ => rfl) (fun _ => rfl) bares
    · rw [if_neg h] at bares
      rw [hollowed, bares, hollowed]
  have slots (m : StreamNo) (t : State) : hollowed (dropSlot .linkDown m p t) p n = hollowed t p n := by
    have bares := dropSlot_bare .linkDown m p t n
    by_cases h : n = m ∧ t.slotOf m p ≠ []
    · obtain ⟨rfl, -⟩ := id h
      rw [if_pos h] at bares
      exact hollowed_of_bare (f := noSlot) (fun _ => rfl) (fun _ => rfl) bares
    · rw [if_neg h] at bares
      rw [hollowed, bares, hollowed]
  have wire : hollowed (queuesDropped p s) p n = hollowed s p n := by
    have bares := cutWire_bare p s n
    cases cut : s.egress[p].wire.filter fun x => motionOf x.kind == some n with
    | none =>
      rw [cut] at bares
      rw [hollowed, queuesDropped_bare, bares]
      rfl
    | some x =>
      rw [cut] at bares
      exact hollowed_of_bare (f := unretained x.frame) (fun _ => rfl) (fun _ => rfl) ((queuesDropped_bare p s n).trans bares)
  have last (t : State) (f : Egress → Egress) : hollowed (t.modEgress p f) p n = hollowed t p n := rfl
  rw [emptyEgress_eq, last, allLetGo, hollowed_forAll kept, slotsDropped, hollowed_forAll slots, wire]

/-- What is said of a stream, its alive count and what its legs on an egress hold apart. -/
theorem view_of_hollowed {α : Type} {view : Stream → α} {p : Port} (apart : ∀ x, view (onLegs p hollow { x with alive := 0 }) = view x)
    (s : State) (n : StreamNo) : s.streams[n].map view = (hollowed s p n).map view := by
  rw [hollowed, bare, Option.map_map, Option.map_map]
  congr 1
  exact funext fun x => (apart x).symm

/-- The legs on the egress are empty. -/
theorem emptyEgress_slots (p : Port) (s : State) (n : StreamNo) :
    (emptyEgress p s).slotOf n p = [] ∧ (emptyEgress p s).retainedOf n p = [] := by
  have leg : (emptyEgress p s).leg n p = ((queuesDropped p s).leg n p).map (noRetained ∘ noSlot) := by
    have last (t : State) (f : Egress → Egress) : (t.modEgress p f).leg n p = t.leg n p := rfl
    rw [emptyEgress_eq, last, ← Option.map_map, ← slotsDropped_leg, ← allLetGo_leg]
  rw [slotOf_eq, retainedOf_eq, leg, Option.map_map, Option.map_map]
  cases (queuesDropped p s).leg n p <;> exact ⟨rfl, rfl⟩

end Sys2Proof.PortLaws
end

section
/-! SUPPORT. LINK_DOWN (R19, R20, R21): the egress is emptied, the running legs go DORMANT, a reception is cut off, and the event
is recorded, counted and notified. -/

namespace Sys2Proof.PortLaws

open Sys2Proof.Machine Sys2Proof.Safety Sys2Proof.Laws Sys2Proof.CellTime

/-! ### The legs of running streams (R24) -/

/-- A stream that is ACTIVE or RELEASING has its legs on an egress changed. -/
def running (e : Port) (f : Leg → Leg) (x : Stream) : Stream :=
  if x.stage = .active ∨ x.stage = .releasing then onLegs e f x else x

theorem modRunningLegs_streams (e : Port) (f : Leg → Leg) (s : State) (n : StreamNo) :
    (modRunningLegs e f s).streams[n] = s.streams[n].map (running e f) := by
  show (s.streams.map fun x => x.map fun t => running e f t)[n] = _
  exact Vector.getElem_map _ _

theorem running_alive (e : Port) (f : Leg → Leg) (x : Stream) : (running e f x).alive = x.alive := by
  unfold running; split <;> rfl

theorem modRunningLegs_bare (e : Port) (f : Leg → Leg) (s : State) (n : StreamNo) :
    bare (modRunningLegs e f s) n = (bare s n).map (running e f) := by
  rw [bare, modRunningLegs_streams, bare, Option.map_map, Option.map_map]
  congr 1
  funext x
  simp only [Function.comp, running]
  split <;> rfl

theorem modRunningLegs_lossy (e : Port) (f : Leg → Leg) (s : State) : Lossy s (modRunningLegs e f s) .none := by
  refine .quiet rfl fun n => ?_
  rw [modRunningLegs_streams, Option.map_map]
  congr 1
  exact funext fun x => running_alive e f x

/-- What a change of the legs on an egress leaves is found in every leg there. -/
theorem find_running {α : Type} {f : Leg → Leg} (egress : ∀ l, (f l).egress = l.egress) {held : Leg → α}
    (keep : ∀ l, held (f l) = held l) (e p : Port) (x : Stream) :
    ((running e f x).legs.find? fun l => l.egress == p).map held = (x.legs.find? fun l => l.egress == p).map held := by
  unfold running
  split
  · show (((x.legs.map fun l => if l.egress == e then f l else l).find? _).map held) = _
    rw [find_onLegs egress]
    split
    · rw [Option.map_map]
      congr 1
      exact funext keep
    · rfl
  · rfl

theorem modRunningLegs_held {α : Type} {f : Leg → Leg} (egress : ∀ l, (f l).egress = l.egress) {held : Leg → α}
    (keep : ∀ l, held (f l) = held l) (e p : Port) (s : State) (n : StreamNo) :
    ((modRunningLegs e f s).leg n p).map held = (s.leg n p).map held := by
  rw [leg_eq_bare, modRunningLegs_bare, leg_eq_bare]
  cases bare s n with
  | none => rfl
  | some x => exact find_running egress keep e p x

/-! ### A raised notice -/

/-- The link after a notice was raised at a source (R176). -/
def raised (src : Fin 12) (cycle : CycleNo) (d : NoticeData) (m : MgmtLink) : MgmtLink :=
  if m.sources[src].number = 0 then { m with unrouted := satInc m.unrouted }
  else { m with sources := Table.upd m.sources src fun x => { x with pending := joinPending cycle d x.pending } }

/-! ### LINK_DOWN -/

/-- A leg that a LINK_DOWN takes from LIVE or MISMATCH to DORMANT (R20). -/
def dormant (l : Leg) : Leg := if l.state = some .live ∨ l.state = some .mismatch then { l with state := some .dormant } else l

/-- The port unit whose reception, if any, a LINK_DOWN has cut off (R21). -/
def cutUnit (u : PortUnit) : PortUnit := unreceiving (if u.receiving.isSome then counting .rxAborted u else u)

/-- The port unit with a link event recorded (R19). -/
def recorded (e : LinkEvent) (link : LinkState) (u : PortUnit) : PortUnit := { u with link := link, lastEvent := some e }

/-- The counter of a link event (R19). -/
def eventCounter (kind : LinkEventKind) : PortCounter := if kind = .linkDown then .downEvents else .upEvents

/-- The state before the event of a LINK_DOWN is recorded. -/
abbrev unlinked (p : Port) (s : State) : State := setFlag p .linkLost (modRunningLegs p dormant (emptyEgress p s))

theorem unlinked_lossy (p : Port) (s : State) :
    Lossy s (unlinked p s) ((emptyTally s p).add (.ofFlag p .linkLost)) := by
  have run := (emptyEgress_lossy p s).trans ((modRunningLegs_lossy p dormant _).trans (setFlag_lossy p .linkLost _))
  rwa [Tally.none_add] at run

theorem Tallied.timer {s t : State} {a : Tally} (h : Tallied s t a) : t.timer = s.timer := (congrArg State.timer h.rest :)
theorem Tallied.mgmt {s t : State} {a : Tally} (h : Tallied s t a) : t.mgmt = s.mgmt := (congrArg State.mgmt h.rest :)
theorem Tallied.engine {s t : State} {a : Tally} (h : Tallied s t a) : t.engine = s.engine := (congrArg State.engine h.rest :)
theorem Tallied.addr {s t : State} {a : Tally} (h : Tallied s t a) : t.addr = s.addr := (congrArg State.addr h.rest :)
theorem Tallied.noise {s t : State} {a : Tally} (h : Tallied s t a) : t.noise = s.noise := (congrArg State.noise h.rest :)
theorem Tallied.streamCounters {s t : State} {a : Tally} (h : Tallied s t a) : t.streamCounters = s.streamCounters :=
  (congrArg State.streamCounters h.rest :)
theorem Tallied.deviceCounters {s t : State} {a : Tally} (h : Tallied s t a) : t.deviceCounters = s.deviceCounters :=
  (congrArg State.deviceCounters h.rest :)

/-- What a port unit keeps that its counters and flags alone moved in. -/
theorem Counted.keeps {α : Type} {u v : PortUnit} {count flags} (h : Counted u v count flags) (view : PortUnit → α)
    (apart : ∀ w, view { w with counters := u.counters, flags := u.flags } = view w) : view v = view u :=
  (apart v).symm.trans (congrArg view h.rest)

/-- A LINK_DOWN from the point where a reception is cut off. -/
def cutReception (p : Port) (s : State) : State :=
  if s.ports[p].receiving.isSome then (bumpPort p .rxAborted s).modPort p fun u => { u with receiving := none } else s

theorem takeLinkDown_eq (p : Port) (s : State) :
    takeLinkDown p s = linkEvent p .linkDown .down (cutReception p (unlinked p s)) := rfl

theorem cutReception_ports (p : Port) (s : State) : (cutReception p s).ports = Table.upd s.ports p cutUnit := by
  unfold cutReception
  split
  · next h =>
    have cut : cutUnit s.ports[p] = unreceiving (counting .rxAborted s.ports[p]) := by rw [cutUnit, if_pos h]
    exact (upd_upd s.ports p (counting .rxAborted) unreceiving).trans (congrArg (fun u => s.ports.set p u) cut.symm)
  · next h =>
    refine (upd_id ?_).symm
    rw [cutUnit, if_neg h, unreceiving, ← Option.not_isSome_iff_eq_none.1 h]

theorem cutReception_rest (p : Port) (s : State) : { cutReception p s with ports := s.ports } = s := by
  unfold cutReception
  split <;> rfl

theorem linkEvent_ports (p : Port) (kind : LinkEventKind) (link : LinkState) (s : State) : (linkEvent p kind link s).ports =
    Table.upd s.ports p fun u => counting (eventCounter kind) (recorded ⟨kind, s.timer.grain, s.timer.cycle⟩ link u) :=
  upd_upd s.ports p (recorded ⟨kind, s.timer.grain, s.timer.cycle⟩ link) (counting (eventCounter kind))

theorem linkEvent_mgmt (p : Port) (kind : LinkEventKind) (link : LinkState) (s : State) : (linkEvent p kind link s).mgmt =
    raised (srcPort p) s.timer.cycle (.linkState p link s.ports[p].planned) s.mgmt := by
  have planned : (Table.upd (Table.upd s.ports p (recorded ⟨kind, s.timer.grain, s.timer.cycle⟩ link)) p
      (counting (eventCounter kind)))[p].planned = s.ports[p].planned := by
    rw [upd_upd, upd_get, if_pos rfl]
    rfl
  rw [← planned]
  rfl

theorem linkEvent_rest (p : Port) (kind : LinkEventKind) (link : LinkState) (s : State) :
    { linkEvent p kind link s with ports := s.ports, mgmt := s.mgmt } = s := rfl

/-- What a LINK_DOWN makes of the state, once the egress is emptied and the legs are DORMANT (R19, R21). -/
structure DownRecorded (p : Port) (s t : State) : Prop where
  ports : t.ports = Table.upd s.ports p fun u =>
    counting .downEvents (recorded ⟨.linkDown, s.timer.grain, s.timer.cycle⟩ .down (cutUnit u))
  mgmt : t.mgmt = raised (srcPort p) s.timer.cycle (.linkState p .down s.ports[p].planned) s.mgmt
  rest : { t with ports := s.ports, mgmt := s.mgmt } = s

theorem cutUnit_planned (u : PortUnit) : (cutUnit u).planned = u.planned := by
  unfold cutUnit; split <;> rfl

theorem linkEvent_recorded (p : Port) (s : State) : DownRecorded p s (linkEvent p .linkDown .down (cutReception p s)) := by
  have ports := cutReception_ports p s
  have rest := cutReception_rest p s
  have timer : (cutReception p s).timer = s.timer := (congrArg State.timer rest :)
  have mgmt : (cutReception p s).mgmt = s.mgmt := (congrArg State.mgmt rest :)
  refine ⟨?_, ?_, ?_⟩
  · rw [linkEvent_ports, ports, upd_upd, timer]
    rfl
  · rw [linkEvent_mgmt, ports, upd_get, if_pos rfl, cutUnit_planned, timer, mgmt]
  · exact (congrArg (fun x : State => { x with ports := s.ports, mgmt := s.mgmt }) (linkEvent_rest p .linkDown .down _)).trans
      (congrArg (fun x : State => { x with mgmt := s.mgmt }) rest)

theorem takeLinkDown_recorded (p : Port) (s : State) : DownRecorded p (unlinked p s) (takeLinkDown p s) := by
  rw [takeLinkDown_eq]
  exact linkEvent_recorded p _

/-! ### The state with the egress emptied and its legs DORMANT -/

/-- What a LINK_DOWN makes of the egress and its legs, before the event is recorded (R20, R36). -/
structure Unlinked (p : Port) (s v : State) : Prop where
  lossy : Lossy s v ((emptyTally s p).add (.ofFlag p .linkLost))
  egress : ∃ k, v.egress = Table.upd s.egress p fun x =>
    { x with wire := none, queues := emptied [3, 2, 1, 0] x.queues
             openWindow := x.openWindow.map fun o => { o with copies := [] }, beCount := k }
  beCount : (s.egress[p].wire.toList.map (·.frame) ++ s.egress[p].queues.toList.flatten).Nodup →
    v.egress[p].beCount = s.egress[p].beCount - ((lostBestEffort s p).map (cellsAt s)).sum
  slots : ∀ n, v.slotOf n p = [] ∧ v.retainedOf n p = []
  legs : ∀ n, hollowed v p n = (hollowed s p n).map (running p dormant)

theorem hollow_dormant (l : Leg) : hollow (dormant l) = dormant (hollow l) := by
  unfold dormant
  by_cases h : l.state = some .live ∨ l.state = some .mismatch
  · rw [if_pos h, if_pos (c := (hollow l).state = some .live ∨ (hollow l).state = some .mismatch) h]
    rfl
  · rw [if_neg h, if_neg (c := (hollow l).state = some .live ∨ (hollow l).state = some .mismatch) h]

@[simp] theorem dormant_egress (l : Leg) : (dormant l).egress = l.egress := by
  unfold dormant; split <;> rfl

theorem running_hollow (p : Port) (x : Stream) :
    onLegs p hollow (running p dormant x) = running p dormant (onLegs p hollow x) := by
  unfold running
  by_cases h : x.stage = .active ∨ x.stage = .releasing
  · rw [if_pos h, if_pos (c := (onLegs p hollow x).stage = .active ∨ (onLegs p hollow x).stage = .releasing) h,
      onLegs_onLegs dormant_egress, onLegs_onLegs (f := hollow) fun _ => rfl]
    congr 1
    exact funext hollow_dormant
  · rw [if_neg h, if_neg (c := (onLegs p hollow x).stage = .active ∨ (onLegs p hollow x).stage = .releasing) h]

theorem unlinked_unlinked (p : Port) (s : State) : Unlinked p s (unlinked p s) := by
  have lossy := unlinked_lossy p s
  have egress := emptyEgress_egress p s
  have count := emptyEgress_beCount p (s := s)
  have slots := emptyEgress_slots p s
  have legs := emptyEgress_hollowed p s
  unfold unlinked at *
  generalize emptyEgress p s = e at *
  have same : (setFlag p .linkLost (modRunningLegs p dormant e)).egress = e.egress := rfl
  refine ⟨lossy, ⟨_, same.trans egress⟩, fun once => ?_, fun n => ?_, fun n => ?_⟩
  · rw [same]; exact count once
  · have slot : (setFlag p .linkLost (modRunningLegs p dormant e)).slotOf n p = e.slotOf n p :=
      congrArg (·.getD []) (modRunningLegs_held dormant_egress (held := (·.slot)) (fun l => by unfold dormant; split <;> rfl) p p e n)
    have kept : (setFlag p .linkLost (modRunningLegs p dormant e)).retainedOf n p = e.retainedOf n p :=
      congrArg (·.getD []) (modRunningLegs_held dormant_egress (held := (·.retained)) (fun l => by unfold dormant; split <;> rfl) p p e n)
    rw [slot, kept]
    exact slots n
  · have bares : bare (setFlag p .linkLost (modRunningLegs p dormant e)) n = (bare e n).map (running p dormant) :=
      modRunningLegs_bare p dormant e n
    rw [hollowed, bares, ← legs, hollowed, Option.map_map, Option.map_map]
    congr 1
    exact funext (running_hollow p)

end Sys2Proof.PortLaws
end

section
/-! LINK_DOWN (R19, R20, R21) as the statements put it, and the statement on it. -/

namespace Sys2Proof.PortLaws

open Sys2Proof.Machine Sys2Proof.Safety Sys2Proof.Laws Sys2Proof.CellTime

/-! ### What follows a LINK_DOWN in the same event -/

/-- After a LINK_DOWN the fault unit takes its reports, and no more happens to the port units, the egresses and the streams: a
notice of the link stays pending. -/
structure ReportsTaken (p : Port) (u t : State) : Prop where
  rest : { t with deviceCounters := u.deviceCounters, fault := u.fault, mgmt := u.mgmt, noise := u.noise } = u
  device : ∀ i : Fin 28, t.deviceCounters[i] = satAdd u.deviceCounters[i] (reportsOf i u.fault.inbox)
  pending : ∀ n ∈ u.mgmt.sources[srcPort p].pending, n.data.kind = .linkState → n ∈ t.mgmt.sources[srcPort p].pending

theorem reportsTaken_takeReports (p : Port) (u : State) : ReportsTaken p u (takeReports u) where
  rest := (congrArg (fun x : State => { x with noise := u.noise }) (takeReports_only u).rest :)
  device := takeReports_deviceCounters u
  pending n hn _ := by rw [(takeReports_only u).sources _ (srcPort_ne_srcFault p)]; exact hn

theorem returned_congr {s t u : State} {ids : List FrameId} {freed : StreamNo → Bool} (h : u.buffer = t.buffer)
    (k : Returned s t ids freed) : Returned s u ids freed := by
  have frame (id : FrameId) : u.frame id = t.frame id := by rw [State.frame, h]; rfl
  exact ⟨by rw [h]; exact k.handles, fun id none => (frame id).trans (k.absent id none),
    fun id r stored => (frame id).trans (k.frames id r stored), fun nodup => by rw [h]; exact k.cells nodup⟩

theorem slotOf_congr {s t : State} (h : t.streams = s.streams) (n : StreamNo) (e : Port) : t.slotOf n e = s.slotOf n e := by
  rw [slotOf_eq, leg_congr (bare_of_streams h n), slotOf_eq]

theorem retainedOf_congr {s t : State} (h : t.streams = s.streams) (n : StreamNo) (e : Port) :
    t.retainedOf n e = s.retainedOf n e := by
  rw [retainedOf_eq, leg_congr (bare_of_streams h n), retainedOf_eq]

/-! ### The streams -/

/-- A stream's stage and the states of its legs. -/
def legStates (x : Stream) : Stage × List (Port × Option LegState) := (x.stage, x.legs.map fun l => (l.egress, l.state))

/-- What a change of the legs on one egress leaves of a stream. -/
def elsewhere (p : Port) (x : Stream) : Stage × Desc × Option CycleNo × Bool × List Leg :=
  (x.stage, x.desc, x.firstActive, x.releaseQueued, x.legs.filter (·.egress ≠ p))

theorem filter_onLegs (p : Port) {f : Leg → Leg} (egress : ∀ l, (f l).egress = l.egress) (ls : List Leg) :
    (ls.map fun l => if l.egress == p then f l else l).filter (·.egress ≠ p) = ls.filter (·.egress ≠ p) := by
  induction ls with
  | nil => rfl
  | cons l ls ih =>
    by_cases h : l.egress = p
    · simp only [List.map_cons, List.filter_cons, h, beq_self_eq_true, if_true, egress, ne_eq, not_true, decide_false,
        Bool.false_eq_true, if_false]
      exact ih
    · simp only [List.map_cons, List.filter_cons, beq_iff_eq, h, if_false, ne_eq, not_false_eq_true, decide_true, if_true, ← ih]

theorem elsewhere_onLegs (p : Port) {f : Leg → Leg} (egress : ∀ l, (f l).egress = l.egress) (x : Stream) :
    elsewhere p (onLegs p f x) = elsewhere p x := by
  simp only [elsewhere, onLegs, filter_onLegs p egress]

theorem elsewhere_running (p : Port) (x : Stream) : elsewhere p (running p dormant x) = elsewhere p x := by
  unfold running
  split
  · exact elsewhere_onLegs p dormant_egress x
  · rfl

/-- The stage and leg states of a stream whose running legs on an egress a LINK_DOWN made DORMANT. -/
def downStates (p : Port) (x : Stream) : Stage × List (Port × Option LegState) := (x.stage, x.legs.map fun l => (l.egress,
  if l.egress = p ∧ (x.stage = .active ∨ x.stage = .releasing) ∧ (l.state = some .live ∨ l.state = some .mismatch) then
    some .dormant
  else l.state))

/-- The leg states of a stream whose running legs on an egress take a state where theirs is of some kind. -/
theorem legStates_running_of {P : Option LegState → Prop} [DecidablePred P] {new : Option LegState} {f : Leg → Leg}
    (hf : ∀ l, f l = if P l.state then { l with state := new } else l) (p : Port) (x : Stream) :
    legStates (running p f x) = (x.stage, x.legs.map fun l => (l.egress,
      if l.egress = p ∧ (x.stage = .active ∨ x.stage = .releasing) ∧ P l.state then new else l.state)) := by
  unfold running legStates
  by_cases stage : x.stage = .active ∨ x.stage = .releasing
  · rw [if_pos stage]
    simp only [onLegs, List.map_map, stage, true_and]
    congr 2
    funext l
    by_cases here : l.egress = p <;> by_cases state : P l.state <;> simp [hf, here, state]
  · rw [if_neg stage]
    simp only [stage, false_and, and_false, if_false]

theorem legStates_running (p : Port) (x : Stream) : legStates (running p dormant x) = downStates p x :=
  legStates_running_of (P := fun state => state = some .live ∨ state = some .mismatch) (fun _ => rfl) p x

/-- What is said of a stream after a LINK_DOWN, from what is said of it before. -/
theorem Unlinked.view {α : Type} {p : Port} {s v : State} (h : Unlinked p s v) {view view' : Stream → α}
    (apart : ∀ x, view (onLegs p hollow { x with alive := 0 }) = view x)
    (apart' : ∀ x, view' (onLegs p hollow { x with alive := 0 }) = view' x)
    (down : ∀ x, view (running p dormant x) = view' x) (n : StreamNo) : v.streams[n].map view = s.streams[n].map view' := by
  rw [view_of_hollowed apart, h.legs, view_of_hollowed apart', Option.map_map]
  congr 1
  exact funext down

theorem legStates_apart (p : Port) (x : Stream) : legStates (onLegs p hollow { x with alive := 0 }) = legStates x := by
  simp only [legStates, onLegs, List.map_map, Function.comp_def]
  congr 2
  funext l
  split <;> rfl

theorem downStates_apart (p : Port) (x : Stream) : downStates p (onLegs p hollow { x with alive := 0 }) = downStates p x := by
  simp only [downStates, onLegs, List.map_map, Function.comp_def]
  congr 2
  funext l
  split <;> rfl

/-! ### The effects -/

/-- A flag counts at its own port only as a flag. -/
theorem Tally.add_ofFlag (a : Tally) (p : Port) (x : Flag) : a.add (.ofFlag p x) =
    { a with flags := fun e => a.flags e ||| if e = p then x.bit else 0 } := by
  simp [Tally.add, Tally.ofFlag, Tally.none]

/-- What a port unit counts in a LINK_DOWN (R21). -/
theorem downUnit_counters (e : LinkEvent) (u : PortUnit) (i : Fin 21) :
    (counting .downEvents (recorded e .down (cutUnit u))).counters[i] = satAdd u.counters[i]
      (if i = 10 then (if u.receiving.isSome then 1 else 0) else if i = 17 then 1 else 0) := by
  have down : PortCounter.downEvents.index = 17 := rfl
  have aborted : PortCounter.rxAborted.index = 10 := rfl
  unfold cutUnit
  split
  · simp only [counting, recorded, unreceiving, upd_get, down, aborted]
    by_cases h : i = 10
    · subst h; rfl
    · by_cases h' : i = 17
      · subst h'; rfl
      · simp [h, h']
  · simp only [counting, recorded, unreceiving, upd_get, down]
    by_cases h : i = 10
    · subst h; rfl
    · by_cases h' : i = 17
      · subst h'; rfl
      · simp [h, h']

/-- The rest of a port unit in a LINK_DOWN. -/
theorem downUnit_rest (e : LinkEvent) (u : PortUnit) :
    counting .downEvents (recorded e .down (cutUnit u)) =
      { u with link := .down, lastEvent := some e, receiving := none
               counters := (counting .downEvents (recorded e .down (cutUnit u))).counters } := by
  unfold cutUnit
  split <;> rfl

/-- A LINK_DOWN with the reports of its event taken (R19, R20, R21, R152). -/
theorem takenDown {p : Port} {s v u t : State} (silent : s.fault.inbox = []) (h : Unlinked p s v)
    (event : DownRecorded p v u) (after : ReportsTaken p u t) : TakenDown s t p := by
  have ports : t.ports = u.ports := (congrArg State.ports after.rest :)
  have streams : t.streams = v.streams :=
    (congrArg State.streams after.rest :).trans (congrArg State.streams event.rest :)
  have buffer : t.buffer = v.buffer :=
    (congrArg State.buffer after.rest :).trans (congrArg State.buffer event.rest :)
  have egress : t.egress = v.egress :=
    (congrArg State.egress after.rest :).trans (congrArg State.egress event.rest :)
  have legCounters : t.legCounters = v.legCounters :=
    (congrArg State.legCounters after.rest :).trans (congrArg State.legCounters event.rest :)
  have fault : u.fault = v.fault := (congrArg State.fault event.rest :)
  have deviceCounters : u.deviceCounters = s.deviceCounters :=
    (congrArg State.deviceCounters event.rest :).trans h.lossy.deviceCounters
  have unit : t.ports[p] = counting .downEvents (recorded ⟨.linkDown, v.timer.grain, v.timer.cycle⟩ .down (cutUnit v.ports[p])) := by
    rw [ports, event.ports, upd_get, if_pos rfl]
  have counted := h.lossy.ports p
  obtain ⟨k, scheduler⟩ := h.egress
  have at_p : v.egress[p] = { s.egress[p] with
      wire := none, queues := emptied [3, 2, 1, 0] s.egress[p].queues
      openWindow := s.egress[p].openWindow.map fun o => { o with copies := [] }, beCount := k } := by
    rw [scheduler, upd_get, if_pos rfl]
  have returned : Returned s t (lostFrames s p) fun _ => false := by
    have freed : (emptyTally s p).freed = fun _ => false := funext fun n => emptyTally_freed s p n
    have all := h.lossy.returned
    simp only [Tally.add_ofFlag, freed] at all
    exact returned_congr buffer (returned_perm all (emptyTally_ids s p))
  refine
    { link := by rw [unit, downUnit_rest]
      event := ?_
      notice := ?_
      receiving := by rw [unit, downUnit_rest]
      counters := fun i => ?_
      legCounters := fun n e => ?_
      reports := fun i => ?_
      flags := fun k hk => ?_
      wire := by rw [egress, at_p]
      queues := fun c => ?_
      slots := fun n => ?_
      returned := returned
      alive := fun nodup n x hx => ?_
      beCount := fun once => by rw [egress]; exact h.beCount once
      legs := fun n => ?_
      otherLegs := fun n => ?_ }
  · rw [unit, downUnit_rest, h.lossy.timer]
  · intro routed
    have same : v.mgmt = s.mgmt := h.lossy.mgmt
    have planned : v.ports[p].planned = s.ports[p].planned := counted.keeps (·.planned) fun _ => rfl
    obtain ⟨n, pending, cycle, data⟩ := raise_pending (src := srcPort p) (s := s) routed s.timer.cycle
      (.linkState p .down s.ports[p].planned)
    refine ⟨n, after.pending n ?_ (by rw [data]; rfl), cycle, data⟩
    rw [event.mgmt, planned, same, h.lossy.timer]
    exact pending
  · have receiving : v.ports[p].receiving = s.ports[p].receiving := counted.keeps (·.receiving) fun _ => rfl
    rw [unit, downUnit_counters, counted.counters, satAdd_satAdd, receiving, Tally.add_ofFlag, emptyTally_port]
    congr 1
    by_cases ten : i = 10
    · subst ten; exact Nat.zero_add _
    · by_cases seventeen : i = 17
      · subst seventeen; rfl
      · simp [ten, seventeen]
  · refine Vector.ext fun i hi => ?_
    have legs := h.lossy.legs n e ⟨i, hi⟩
    rw [Tally.add_ofFlag, emptyTally_leg] at legs
    rw [legCounters]
    refine legs.trans ?_
    show _ = (Table.upd s.legCounters[legIndex n e] 9 _)[(⟨i, hi⟩ : Fin 13)]
    rw [upd_get]
    by_cases nine : (⟨i, hi⟩ : Fin 13) = 9
    · rw [nine]; by_cases here : e = p <;> simp [here]
    · simp [nine]
  · rw [after.device, deviceCounters, fault, h.lossy.reports, silent, Tally.add_ofFlag, emptyTally_reports, reportsOf_nil,
      Nat.zero_add]
  · rw [unit, downUnit_rest]
    refine (congrArg (·.getLsbD k) counted.flags).trans (BitVec.getLsbD_or.trans ?_)
    have lost : Flag.linkLost.bit.getLsbD k = (k == 0) := by
      rw [show Flag.linkLost.bit = BitVec.twoPow 6 0 from rfl, BitVec.getLsbD_twoPow]
      simp only [Nat.reduceLT, decide_true, Bool.true_and, eq_comm]
      rfl
    rw [BitVec.getLsbD_and, Tally.add_ofFlag, BitVec.getLsbD_or, if_pos rfl, emptyTally_flags, lost, Bool.and_comm,
      Bool.or_comm _ (k == 0), Bool.or_assoc (k == 0)]
  · rw [egress, at_p]
    exact (emptied_get _ _ c).trans (if_pos (by revert c; decide))
  · rw [slotOf_congr streams, retainedOf_congr streams]
    exact h.slots n
  · obtain ⟨y, hy, -, left⟩ := h.lossy.alive nodup n x hx
    refine ⟨y, by rw [streams]; exact hy, ?_⟩
    have stored : aliveFrames v n = aliveFrames t n := by rw [aliveFrames, aliveFrames, buffer]
    rw [left, returned_gone returned nodup, stored]
  · rw [streams]
    exact h.view (legStates_apart p) (downStates_apart p) (legStates_running p) n
  · rw [streams]
    refine h.view (view := elsewhere p) (view' := elsewhere p) ?_ ?_ (elsewhere_running p) n <;>
      exact fun x => elsewhere_onLegs p (f := hollow) (fun _ => rfl) { x with alive := 0 }

/-! ### What a LINK_DOWN leaves -/

/-- The other ports and egresses in a LINK_DOWN. -/
theorem Unlinked.others {p : Port} {s v : State} (h : Unlinked p s v) {e : Port} (other : e ≠ p) :
    v.ports[e] = s.ports[e] ∧ v.egress[e] = s.egress[e] := by
  obtain ⟨k, scheduler⟩ := h.egress
  refine ⟨?_, by rw [scheduler, upd_get, if_neg other]⟩
  have counted := h.lossy.ports e
  rw [Tally.add_ofFlag] at counted
  have counters : v.ports[e].counters = s.ports[e].counters := Vector.ext fun i hi => by
    have same := counted.counters ⟨i, hi⟩
    rw [emptyTally_port_other s other, satAdd_zero] at same
    exact same
  have flags : v.ports[e].flags = s.ports[e].flags := by
    have flags := counted.flags
    dsimp only at flags
    rw [emptyTally_flags_other s other, if_neg other] at flags
    simpa using flags
  have rest := counted.rest
  rw [← counters, ← flags] at rest
  exact rest

/-- The probes in a LINK_DOWN: no stream becomes FREE. -/
theorem Unlinked.probes {p : Port} {s v : State} (h : Unlinked p s v) : v.probes = s.probes :=
  h.lossy.probes fun n => by rw [Tally.add_ofFlag]; exact emptyTally_freed s p n

theorem Unlinked.timer {p : Port} {s v : State} (h : Unlinked p s v) : v.timer = s.timer := h.lossy.timer

/-- What a LINK_DOWN leaves of the port unit's settings, filter and marker. -/
theorem downUnit_keeps {u v : PortUnit} {count : Fin 21 → Nat} {flags : BitVec 6} (h : Counted u v count flags) (e : LinkEvent) :
    let w := counting .downEvents (recorded e .down (cutUnit v))
    w.settings = u.settings ∧ w.windows = u.windows ∧ w.untaggedAllowed = u.untaggedAllowed ∧
      w.restartMarker = u.restartMarker := by
  intro w
  have unit : w = _ := downUnit_rest e v
  rw [unit]
  exact ⟨h.keeps (·.settings) fun _ => rfl, h.keeps (·.windows) fun _ => rfl, h.keeps (·.untaggedAllowed) fun _ => rfl,
    h.keeps (·.restartMarker) fun _ => rfl⟩

/-- What a LINK_DOWN leaves: the port's settings, the other ports and egresses, and the other blocks. -/
structure DownLeaves (p : Port) (s t : State) : Prop where
  unit : t.ports[p].settings = s.ports[p].settings ∧ t.ports[p].windows = s.ports[p].windows ∧
    t.ports[p].untaggedAllowed = s.ports[p].untaggedAllowed ∧ t.ports[p].restartMarker = s.ports[p].restartMarker
  others : ∀ e : Port, e ≠ p → t.ports[e] = s.ports[e] ∧ t.egress[e] = s.egress[e]
  timer : t.timer = s.timer
  engine : t.engine = s.engine
  addr : t.addr = s.addr
  probes : t.probes = s.probes
  streamCounters : t.streamCounters = s.streamCounters
  noise : t.noise = s.noise

theorem downLeaves {p : Port} {s v u : State} (h : Unlinked p s v) (event : DownRecorded p v u) : DownLeaves p s u where
  unit := by
    rw [event.ports, upd_get, if_pos rfl]
    exact downUnit_keeps (h.lossy.ports p) _
  others e other := by
    have egress : u.egress = v.egress := (congrArg State.egress event.rest :)
    rw [event.ports, upd_get, if_neg other, egress]
    exact h.others other
  timer := (congrArg State.timer event.rest :).trans h.lossy.timer
  engine := (congrArg State.engine event.rest :).trans h.lossy.engine
  addr := (congrArg State.addr event.rest :).trans h.lossy.addr
  probes := (congrArg State.probes event.rest :).trans h.probes
  streamCounters := (congrArg State.streamCounters event.rest :).trans h.lossy.streamCounters
  noise := (congrArg State.noise event.rest :).trans h.lossy.noise

/-- A LINK_DOWN of an UP link, its reports taken. -/
theorem takeLinkDown_taken (p : Port) {s : State} (silent : s.fault.inbox = []) :
    TakenDown s (takeReports (takeLinkDown p s)) p :=
  takenDown silent (unlinked_unlinked p s) (takeLinkDown_recorded p s) (reportsTaken_takeReports p _)

theorem takeLinkDown_leaves (p : Port) (s : State) : DownLeaves p s (takeLinkDown p s) :=
  downLeaves (unlinked_unlinked p s) (takeLinkDown_recorded p s)

/-- Taking the reports leaves what a LINK_DOWN leaves. -/
theorem DownLeaves.reported {p : Port} {s t : State} (h : DownLeaves p s t) : DownLeaves p s (takeReports t) := by
  have only := takeReports_only t
  have ports : (takeReports t).ports = t.ports := (congrArg State.ports only.rest :)
  exact ⟨by rw [ports]; exact h.unit, by rw [ports, only.egress]; exact h.others, only.timer.trans h.timer,
    (congrArg State.engine only.rest :).trans h.engine, (congrArg State.addr only.rest :).trans h.addr,
    (congrArg State.probes only.rest :).trans h.probes, (congrArg State.streamCounters only.rest :).trans h.streamCounters,
    only.noise.trans h.noise⟩

/-! ### The statement -/

theorem phyReport_down {p : Port} {s : State} (up : s.ports[p].link ≠ .down) : phyReport p .down s = takeLinkDown p s := by
  unfold phyReport
  cases link : s.ports[p].link with
  | down => exact absurd link up
  | up x => rfl

theorem execLinkDown_up {p : Port} {s : State} (awake : Awake s) (up : s.ports[p].link ≠ .down) :
    exec (.linkDown p) s = .next (takeReports (takeLinkDown p s)) := by
  have run : exec (.linkDown p) s = .next (takeReports (phyReport p .down s)) := event_high awake.high (phyReport p .down)
  rw [phyReport_down up] at run
  exact run

/-- Settles O25. -/
theorem linkDownEmptiesTheEgress : Obligations.LinkDownEmptiesTheEgress := by
  intro s p awake
  constructor
  · intro down
    have same : phyReport p .down s = s := by unfold phyReport; rw [down]
    exact event_idle (f := phyReport p .down) awake same
  · intro up
    have leaves := (takeLinkDown_leaves p s).reported
    obtain ⟨settings, windows, untagged, marker⟩ := leaves.unit
    refine ⟨takeReports (takeLinkDown p s), ?_, ?_⟩
    · exact execLinkDown_up awake up
    · exact ⟨takeLinkDown_taken p awake.noReports, settings, windows, untagged, marker, leaves.others, leaves.timer,
        leaves.engine, leaves.addr, leaves.noise, leaves.probes, leaves.streamCounters⟩

end Sys2Proof.PortLaws
end

section
/-! PORT_RESTART (R29, R148), and the statement on it. -/

namespace Sys2Proof.PortLaws

open Sys2Proof.Machine Sys2Proof.Safety Sys2Proof.Laws Sys2Proof.CellTime

/-! ### Requests that make reports -/

/-- A request of the right kind and length, its reports taken. -/
theorem request_run {s : State} {q : Request} {rest : List Request} {kind : Byte} {len : Nat}
    (offer : Offers s q rest) (hk : q.kind = kind) (hl : q.payload.length = len) (run : Request → State → State) :
    event (taking kind len run) s = .next (takeReports (run q (took rest s))) := by
  subst hk
  rw [event_high offer.high, taking_offered offer, if_pos hl]

/-! ### Notices -/

/-- A raised notice leaves the pending ones of other kinds (R176). -/
theorem mem_joinPending {cycle : CycleNo} {d : NoticeData} {xs : List Notice} {n : Notice} (h : n ∈ xs)
    (other : n.data.kind ≠ d.kind) : n ∈ joinPending cycle d xs := by
  induction xs with
  | nil => cases h
  | cons x xs ih =>
    unfold joinPending
    rcases List.mem_cons.1 h with rfl | later
    · rw [if_neg other]
      exact List.mem_cons_self ..
    · split
      · exact List.mem_cons_of_mem _ later
      · exact List.mem_cons_of_mem _ (ih later)

/-- A raise leaves the pending notices of other kinds. -/
theorem raised_other {src j : Fin 12} {cycle : CycleNo} {d : NoticeData} {m : MgmtLink} {n : Notice}
    (h : n ∈ m.sources[j].pending) (other : n.data.kind ≠ d.kind) : n ∈ (raised src cycle d m).sources[j].pending := by
  unfold raised
  split
  · exact h
  · show n ∈ (Table.upd m.sources src _)[j].pending
    rw [upd_get]
    split
    · next same => subst same; exact mem_joinPending h other
    · exact h

/-- A raise at a routed source leaves the notice pending there. -/
theorem raised_mem {src : Fin 12} {cycle : CycleNo} {d : NoticeData} {m : MgmtLink} (routed : m.sources[src].number ≠ 0) :
    ∃ n ∈ (raised src cycle d m).sources[src].pending, n.cycle = cycle ∧ n.data = d := by
  unfold raised
  rw [if_neg routed]
  show ∃ n ∈ (Table.upd m.sources src _)[src].pending, _
  rw [upd_get, if_pos rfl]
  exact joinPending_mem cycle d _

/-- A raise leaves every source's number. -/
theorem raised_number (src : Fin 12) (cycle : CycleNo) (d : NoticeData) (m : MgmtLink) (j : Fin 12) :
    (raised src cycle d m).sources[j].number = m.sources[j].number := by
  unfold raised
  split
  · rfl
  · show (Table.upd m.sources src _)[j].number = _
    rw [upd_get]
    split
    · next same => subst same; rfl
    · rfl

/-- A raise leaves the queues of the link. -/
theorem raised_queues (src : Fin 12) (cycle : CycleNo) (d : NoticeData) (m : MgmtLink) :
    let m' := raised src cycle d m
    m'.inbound = m.inbound ∧ m'.outbound = m.outbound ∧ m'.serial = m.serial := by
  unfold raised
  split <;> exact ⟨rfl, rfl, rfl⟩

/-! ### The monitor (R148) -/

/-- The link after the monitor of a port was restarted. -/
def restartNotice (p : Port) (s : State) (m : MgmtLink) : MgmtLink :=
  if s.noise[p].state = .clean then m
  else raised (srcPort p) s.timer.cycle (.noiseState p .clean s.noise[p].state .portRestart s.noise[p].count s.phase) m

/-- A restart of a port's monitor (R148). -/
structure MonitorRestarted (p : Port) (s t : State) : Prop where
  noise : t.noise = Table.upd s.noise p fun m => { m with state := .clean, count := 0, quiet := 0, calm := 0 }
  mgmt : t.mgmt = restartNotice p s s.mgmt
  rest : { t with noise := s.noise, mgmt := s.mgmt } = s

theorem noiseRestart_restarted (p : Port) (s : State) : MonitorRestarted p s (noiseRestart p s) := by
  have cleared (n : Table Monitor 8) (f : Monitor → Monitor) : Table.upd (Table.upd n p f) p
      (fun m => { m with count := 0, quiet := 0, calm := 0 }) = Table.upd n p fun m => { f m with count := 0, quiet := 0, calm := 0 } :=
    upd_upd ..
  unfold noiseRestart
  by_cases clean : s.noise[p].state = .clean
  · rw [if_pos clean]
    refine ⟨?_, (if_pos clean).symm, rfl⟩
    show s.noise.set p _ = s.noise.set p _
    rw [← clean]
  · rw [if_neg clean]
    have change := noiseChangeNow_changed p .clean .portRestart s
    refine ⟨?_, change.mgmt.trans (if_neg clean).symm, ?_⟩
    · rw [State.modNoise_noise, change.noise, cleared]
      rfl
    · have ports : (noiseChangeNow p .clean .portRestart s).ports = s.ports := change.ports.trans (if_neg (by decide))
      have rest := change.rest
      rw [← ports] at rest
      exact rest

/-! ### PORT_RESTART -/

/-- A port unit with its restart marker set (R29). -/
def marked (u : PortUnit) : PortUnit := { u with restartMarker := true }

/-- The state with the request taken and the restart marker set. -/
abbrev markedState (p : Port) (rest : List Request) (s : State) : State := (took rest s).modPort p marked

theorem runPortRestart_eq {q : Request} {p : Port} (h : q.b 0 = p.val) (s : State) :
    runPortRestart q s = answer q (.portRestarted p (noiseRestart p (phyReport p .down (s.modPort p marked))).ports[p].link)
      (noiseRestart p (phyReport p .down (s.modPort p marked))) := by
  rw [runPortRestart, asPort_of h]
  rfl

/-- The effects of a LINK_DOWN are the same, whatever marker and inbound queue it begins with. -/
theorem takenDown_marked {p : Port} {rest : List Request} {s t : State} (h : TakenDown (markedState p rest s) t p) :
    TakenDown s t p := by
  have unit : (markedState p rest s).ports[p] = marked s.ports[p] := (upd_get ..).trans (if_pos rfl)
  exact
    { link := h.link
      event := h.event
      notice := by have n := h.notice; rw [unit] at n; exact n
      receiving := h.receiving
      counters := by have n := h.counters; rw [unit] at n; exact n
      legCounters := h.legCounters
      reports := h.reports
      flags := by have n := h.flags; rw [unit] at n; exact n
      wire := h.wire
      queues := h.queues
      slots := h.slots
      returned := ⟨h.returned.handles, h.returned.absent, h.returned.frames, h.returned.cells⟩
      alive := h.alive
      beCount := h.beCount
      legs := h.legs
      otherLegs := h.otherLegs }

/-! ### The port taken down -/

/-- A port that is DOWN, as a LINK_DOWN or nothing at all left it. -/
structure IsDown (p : Port) (s u : State) : Prop extends DownLeaves p s u where
  link : u.ports[p].link = .down
  kept : Kept s u

theorem phyReport_isDown (p : Port) (s : State) : IsDown p s (phyReport p .down s) := by
  have kept := phyReport_keeps p .down s
  by_cases down : s.ports[p].link = .down
  · have same : phyReport p .down s = s := by unfold phyReport; rw [down]
    rw [same]
    exact ⟨⟨⟨rfl, rfl, rfl, rfl⟩, fun _ _ => ⟨rfl, rfl⟩, rfl, rfl, rfl, rfl, rfl, rfl⟩, down, .refl s⟩
  · rw [phyReport_down down] at kept ⊢
    have ports := (takeLinkDown_recorded p s).ports
    refine ⟨takeLinkDown_leaves p s, ?_, kept⟩
    rw [ports, upd_get, if_pos rfl, downUnit_rest]

/-- What a restart of the monitor, its reply and the reports of the event leave of the port units, and that a notice of the link
stays pending. -/
theorem restarted_reportsTaken {p : Port} {u w : State} (h : MonitorRestarted p u w) (q : Request) (r : Reply) :
    ReportsTaken p u (takeReports (answer q r w)) where
  rest := by
    have first : { answer q r w with noise := u.noise, mgmt := u.mgmt } = u := h.rest
    have last := (congrArg (fun x : State => { x with noise := u.noise, mgmt := u.mgmt, fault := u.fault, deviceCounters := u.deviceCounters }) (takeReports_only (answer q r w)).rest :)
    exact last.trans (congrArg (fun x : State => { x with fault := u.fault, deviceCounters := u.deviceCounters }) first)
  device i := by
    have fault : w.fault = u.fault := (congrArg State.fault h.rest :)
    have device : w.deviceCounters = u.deviceCounters := (congrArg State.deviceCounters h.rest :)
    rw [takeReports_deviceCounters, ← fault, ← device]
    rfl
  pending n hn link := by
    have sources : (answer q r w).mgmt.sources = w.mgmt.sources := rfl
    rw [(takeReports_only _).sources _ (srcPort_ne_srcFault p), sources, h.mgmt, restartNotice]
    split
    · exact hn
    · exact raised_other hn (by rw [link]; simp [NoticeData.kind])

/-- The state after a PORT_RESTART that is not refused. -/
def portRestarted (p : Port) (q : Request) (rest : List Request) (s : State) : State :=
  takeReports (answer q (.portRestarted p .down) (noiseRestart p (phyReport p .down (markedState p rest s))))

theorem exec_portRestart {s : State} {q : Request} {rest : List Request} (offer : Offers s q rest) (kind : q.kind = 0x07)
    (len : q.payload.length = 1) {p : Port} (port : q.b 0 = p.val) :
    exec .portRestart s = .next (portRestarted p q rest s) := by
  have run := request_run offer kind len runPortRestart
  have down : (noiseRestart p (phyReport p .down (markedState p rest s))).ports[p].link = .down := by
    have same := (congrArg State.ports (noiseRestart_restarted p (phyReport p .down (markedState p rest s))).rest :)
    exact (congrArg (fun v : Table PortUnit 8 => v[p].link) same).trans (phyReport_isDown p _).link
  rw [runPortRestart_eq port, down] at run
  exact run

/-- A PORT_RESTART takes an UP link down (R29). -/
theorem portRestarted_takenDown (p : Port) (q : Request) (rest : List Request) {s : State} (silent : s.fault.inbox = [])
    (up : s.ports[p].link ≠ .down) : TakenDown s (portRestarted p q rest s) p := by
  have unit : (markedState p rest s).ports[p] = marked s.ports[p] := (upd_get ..).trans (if_pos rfl)
  have up' : (markedState p rest s).ports[p].link ≠ .down := by rw [unit]; exact up
  have after := restarted_reportsTaken (noiseRestart_restarted p (phyReport p .down (markedState p rest s))) q
    (.portRestarted p .down)
  rw [phyReport_down up'] at after
  have down := takenDown (s := markedState p rest s) silent (unlinked_unlinked p _) (takeLinkDown_recorded p _) after
  rw [← phyReport_down up'] at down
  exact takenDown_marked down

/-- What a PORT_RESTART makes of the monitor, and what it leaves (R29, R148). -/
structure PortRestarted (p : Port) (q : Request) (rest : List Request) (s t : State) : Prop where
  link : t.ports[p].link = .down
  marker : t.ports[p].restartMarker = true
  settings : t.ports[p].settings = s.ports[p].settings
  noise : t.noise = Table.upd s.noise p fun m => { m with state := .clean, count := 0, quiet := 0, calm := 0 }
  notice : s.noise[p].state ≠ .clean → s.mgmt.sources[srcPort p].number ≠ 0 → ∃ n ∈ t.mgmt.sources[srcPort p].pending,
    n.cycle = s.timer.cycle ∧ n.data = .noiseState p .clean s.noise[p].state .portRestart s.noise[p].count s.phase
  others : ∀ e : Port, e ≠ p → t.ports[e] = s.ports[e] ∧ t.egress[e] = s.egress[e]
  timer : t.timer = s.timer
  addr : t.addr = s.addr
  probes : t.probes = s.probes
  inbound : t.mgmt.inbound = rest
  outbound : t.mgmt.outbound = s.mgmt.outbound ++ [⟨s.mgmt.serial, .reply 0x87 q.tag (.portRestarted p .down)⟩]

theorem portRestarted_restarted (p : Port) {q : Request} (rest : List Request) (s : State) (kind : q.kind = 0x07) :
    PortRestarted p q rest s (portRestarted p q rest s) := by
  have unit : (markedState p rest s).ports[p] = marked s.ports[p] := (upd_get ..).trans (if_pos rfl)
  have other {e : Port} (h : e ≠ p) : (markedState p rest s).ports[e] = s.ports[e] := (upd_get ..).trans (if_neg h)
  have down := phyReport_isDown p (markedState p rest s)
  have monitor := noiseRestart_restarted p (phyReport p .down (markedState p rest s))
  have after := restarted_reportsTaken monitor q (.portRestarted p .down)
  have only := takeReports_only (answer q (.portRestarted p .down) (noiseRestart p (phyReport p .down (markedState p rest s))))
  have kept := takeReports_keeps (answer q (.portRestarted p .down) (noiseRestart p (phyReport p .down (markedState p rest s))))
  unfold portRestarted
  generalize takeReports _ = t at *
  generalize noiseRestart p _ = w at *
  generalize phyReport p .down _ = u at *
  have ports : t.ports = u.ports := (congrArg State.ports after.rest :)
  have egress : t.egress = u.egress := (congrArg State.egress after.rest :)
  obtain ⟨settings, -, -, marker⟩ := down.unit
  rw [unit] at settings marker
  have sources : t.mgmt.sources[srcPort p] = (restartNotice p u u.mgmt).sources[srcPort p] := by
    rw [only.sources _ (srcPort_ne_srcFault p), ← monitor.mgmt]
    rfl
  have phase : u.phase = s.phase := by rw [State.phase, down.timer]; rfl
  have queues : w.mgmt.inbound = rest ∧ w.mgmt.outbound = s.mgmt.outbound ∧ w.mgmt.serial = s.mgmt.serial := by
    have raised : (restartNotice p u u.mgmt).inbound = u.mgmt.inbound ∧
        (restartNotice p u u.mgmt).outbound = u.mgmt.outbound ∧ (restartNotice p u u.mgmt).serial = u.mgmt.serial := by
      unfold restartNotice
      split
      · exact ⟨rfl, rfl, rfl⟩
      · exact raised_queues ..
    rw [monitor.mgmt, raised.1, raised.2.1, raised.2.2]
    exact ⟨down.kept.inbound, down.kept.outbound, down.kept.serial⟩
  refine
    { link := by rw [ports]; exact down.link
      marker := by rw [ports, marker]; rfl
      settings := by rw [ports, settings]; rfl
      noise := ?_
      notice := fun unclean routed => ?_
      others := fun e h => ?_
      timer := (congrArg State.timer after.rest :).trans down.timer
      addr := (congrArg State.addr after.rest :).trans down.addr
      probes := (congrArg State.probes after.rest :).trans down.probes
      inbound := kept.inbound.trans queues.1
      outbound := ?_ }
  · rw [only.noise]
    refine monitor.noise.trans ?_
    rw [down.noise]
    rfl
  · rw [sources, restartNotice, down.noise, down.timer, phase]
    have number : u.mgmt.sources[srcPort p].number ≠ 0 := by rw [down.kept.numbers]; exact routed
    have unclean' : ¬(markedState p rest s).noise[p].state = .clean := unclean
    rw [if_neg unclean']
    exact raised_mem number
  · obtain ⟨unit', egress'⟩ := down.others e h
    rw [ports, egress, unit', egress', other h]
    exact ⟨rfl, rfl⟩
  · have pushed : (answer q (.portRestarted p .down) w).mgmt.outbound =
      w.mgmt.outbound ++ [⟨w.mgmt.serial, .reply (replyKind q.kind) q.tag (.portRestarted p .down)⟩] := rfl
    rw [kept.outbound, pushed, queues.2.1, queues.2.2, kind]
    rfl

/-- A PORT_RESTART of a port that is DOWN makes no report, and changes the marker, the monitor and the link only. -/
theorem portRestarted_ofDown (p : Port) (q : Request) (rest : List Request) {s : State} (silent : s.fault.inbox = [])
    (down : s.ports[p].link = .down) : (portRestarted p q rest s).ports[p] = marked s.ports[p] ∧
      { portRestarted p q rest s with ports := s.ports, noise := s.noise, mgmt := s.mgmt } = s := by
  have unit : (markedState p rest s).ports[p] = marked s.ports[p] := (upd_get ..).trans (if_pos rfl)
  have same : phyReport p .down (markedState p rest s) = markedState p rest s := by
    unfold phyReport
    rw [unit, marked, down]
  have monitor := noiseRestart_restarted p (markedState p rest s)
  have quiet : (answer q (.portRestarted p .down) (noiseRestart p (markedState p rest s))).fault.inbox = [] := by
    have fault : (noiseRestart p (markedState p rest s)).fault = s.fault := (congrArg State.fault monitor.rest :)
    rw [answer_inbox, fault, silent]
  have run : portRestarted p q rest s = answer q (.portRestarted p .down) (noiseRestart p (markedState p rest s)) := by
    rw [portRestarted, same, takeReports_none quiet]
  have ports : (noiseRestart p (markedState p rest s)).ports = (markedState p rest s).ports := (congrArg State.ports monitor.rest :)
  rw [run]
  refine ⟨?_, ?_⟩
  · have answered (t : State) : (answer q (.portRestarted p .down) t).ports = t.ports := rfl
    rw [answered, ports, unit]
  · exact (congrArg (fun x : State => { x with ports := s.ports, mgmt := s.mgmt }) monitor.rest :)

/-- Settles O23. -/
theorem portRestartTakesTheLinkDown : Obligations.PortRestartTakesTheLinkDown := by
  intro s q rest offer kind len
  constructor
  · intro wide
    have refused : runPortRestart q (took rest s) = badField q 0 (took rest s) := by rw [runPortRestart, asPort_none wide]
    exact request_badField offer kind len refused
  · intro p port
    have done := portRestarted_restarted p rest s kind
    have monitor : (portRestarted p q rest s).noise[p] =
        { s.noise[p] with state := .clean, count := 0, quiet := 0, calm := 0 } := by
      rw [done.noise, upd_get, if_pos rfl]
    refine ⟨portRestarted p q rest s, exec_portRestart offer kind len port, done.link, done.marker, ?_, ?_, ?_, ?_,
      done.settings, ?_, ?_, done.notice, fun e other => ?_, done.timer, done.addr, done.probes, done.inbound, done.outbound⟩
    · rw [monitor]
    · rw [monitor]
    · rw [monitor]
    · rw [monitor]
    · exact portRestarted_takenDown p q rest offer.noReports
    · exact portRestarted_ofDown p q rest offer.noReports
    · obtain ⟨unit, egress⟩ := done.others e other
      exact ⟨unit, by rw [done.noise, upd_get, if_neg other], egress⟩

end Sys2Proof.PortLaws
end

section
/-! SUPPORT. What a choice of the egress leaves (R112): it changes its own scheduler and counters, the frames of its legs, and what is
counted and captured with them. -/

namespace Sys2Proof.PortLaws

open Sys2Proof.Machine Sys2Proof.Safety Sys2Proof.Laws Sys2Proof.CellTime

/-! ### Streams but for what their legs hold -/

/-- A leg but for the frames it holds and its missing windows. -/
def settledLeg (l : Leg) : Leg := { l with slot := [], retained := [], missStreak := 0, missNotified := false }

/-- A stream but for its alive count and what its legs hold. -/
def settledStream (x : Stream) : Stream := { x with alive := 0, legs := x.legs.map settledLeg }

theorem settledStream_onLegs {e : Port} {f : Leg → Leg} (h : ∀ l, settledLeg (f l) = settledLeg l) (x : Stream) :
    settledStream (onLegs e f x) = settledStream x := by
  simp only [settledStream, onLegs, List.map_map]
  congr 2
  funext l
  simp only [Function.comp]
  split <;> simp [h]

theorem modLeg_settled {n : StreamNo} {e : Port} {f : Leg → Leg} (h : ∀ l, settledLeg (f l) = settledLeg l) (s : State)
    (m : StreamNo) : (s.modLeg n e f).streams[m].map settledStream = s.streams[m].map settledStream := by
  rw [modLeg_streams]
  split
  · next same =>
    rw [same, Option.map_map]
    congr 1
    exact funext (settledStream_onLegs h)
  · rfl

theorem settled_of_bare {s t : State} (h : ∀ n, bare t n = bare s n) (n : StreamNo) :
    t.streams[n].map settledStream = s.streams[n].map settledStream := by
  have same := congrArg (Option.map settledStream) (h n)
  rw [bare, bare, Option.map_map, Option.map_map] at same
  exact same

/-! ### The frame of a choice -/

/-- Between two states an egress chose, or did a part of it (R112): what changed is its scheduler, its counts of what it sent, its
flag of dropped motion frames, the frames of the legs, and what they make of the counters, reports, probes and the probes'
notices. -/
structure Chosen (e : Port) (s t : State) : Prop where
  rest : { t with
    ports := s.ports, streams := s.streams, legCounters := s.legCounters, egress := s.egress, buffer := s.buffer
    fault := s.fault, probes := s.probes, mgmt := s.mgmt } = s
  others : ∀ p : Port, p ≠ e → t.ports[p] = s.ports[p] ∧ t.egress[p] = s.egress[p]
  unit : { t.ports[e] with counters := s.ports[e].counters, flags := s.ports[e].flags } = s.ports[e]
  counters : ∀ i : Fin 21, i ≠ 11 → i ≠ 12 → i ≠ 13 → t.ports[e].counters[i] = s.ports[e].counters[i]
  flags : ∀ k, k ≠ 3 → t.ports[e].flags.getLsbD k = s.ports[e].flags.getLsbD k
  streams : ∀ n : StreamNo, t.streams[n].map settledStream = s.streams[n].map settledStream
  sources : ∀ j : Fin 12, j ≠ srcProbe → t.mgmt.sources[j] = s.mgmt.sources[j]

theorem Chosen.refl (e : Port) (s : State) : Chosen e s s :=
  ⟨rfl, fun _ _ => ⟨rfl, rfl⟩, rfl, fun _ _ _ _ => rfl, fun _ _ => rfl, fun _ => rfl, fun _ _ => rfl⟩

theorem Chosen.trans {e : Port} {s t u : State} (h : Chosen e s t) (k : Chosen e t u) : Chosen e s u where
  rest := (congrArg (fun x : State => { x with
    ports := s.ports, streams := s.streams, legCounters := s.legCounters, egress := s.egress, buffer := s.buffer
    fault := s.fault, probes := s.probes, mgmt := s.mgmt }) k.rest).trans h.rest
  others p other := ⟨(k.others p other).1.trans (h.others p other).1, (k.others p other).2.trans (h.others p other).2⟩
  unit := (congrArg (fun x : PortUnit => { x with counters := s.ports[e].counters, flags := s.ports[e].flags }) k.unit).trans h.unit
  counters i a b c := (k.counters i a b c).trans (h.counters i a b c)
  flags j a := (k.flags j a).trans (h.flags j a)
  streams n := (k.streams n).trans (h.streams n)
  sources j a := (k.sources j a).trans (h.sources j a)

/-- A change of the scheduler of the egress. -/
theorem modEgress_chosen (e : Port) (f : Egress → Egress) (s : State) : Chosen e s (s.modEgress e f) where
  rest := rfl
  others _ other := ⟨rfl, upd_other _ _ _ _ other⟩
  unit := rfl
  counters _ _ _ _ := rfl
  flags _ _ := rfl
  streams _ := rfl
  sources _ _ := rfl

/-- A change of blocks that no port unit, egress or stream shows. -/
theorem Chosen.of_rest {e : Port} {s t : State} (rest : { t with
    legCounters := s.legCounters, buffer := s.buffer, streams := s.streams, fault := s.fault, probes := s.probes
    mgmt := s.mgmt } = s)
    (streams : ∀ n : StreamNo, t.streams[n].map settledStream = s.streams[n].map settledStream)
    (sources : ∀ j : Fin 12, j ≠ srcProbe → t.mgmt.sources[j] = s.mgmt.sources[j]) : Chosen e s t := by
  have ports : t.ports = s.ports := (congrArg State.ports rest :)
  have egress : t.egress = s.egress := (congrArg State.egress rest :)
  exact ⟨(congrArg (fun x : State => { x with ports := s.ports, egress := s.egress }) rest :),
    fun _ _ => ⟨by rw [ports], by rw [egress]⟩, by rw [ports], fun _ _ _ _ => by rw [ports], fun _ _ => by rw [ports],
    streams, sources⟩

theorem modLeg_chosen {n : StreamNo} {e p : Port} {f : Leg → Leg} (h : ∀ l, settledLeg (f l) = settledLeg l) (s : State) :
    Chosen p s (s.modLeg n e f) :=
  .of_rest rfl (modLeg_settled h s) fun _ _ => rfl

theorem bumpLeg_chosen (n : StreamNo) (e p : Port) (c : LegCounter) (s : State) : Chosen p s (bumpLeg n e c s) :=
  .of_rest rfl (fun _ => rfl) fun _ _ => rfl

theorem returnRef_chosen (id : FrameId) (e : Port) (s : State) : Chosen e s (returnRef id s) := by
  have rest := returnRef_rest id s
  have mgmt : (returnRef id s).mgmt = s.mgmt := (congrArg State.mgmt rest :)
  exact .of_rest (congrArg (fun x : State => { x with
    legCounters := s.legCounters, fault := s.fault, probes := s.probes, mgmt := s.mgmt }) rest :)
    (settled_of_bare (returnRef_bare id s)) fun _ _ => by rw [mgmt]

/-- A count of what the egress sends. -/
theorem bumpPort_chosen (e : Port) {c : PortCounter} (sent : c.index = 11 ∨ c.index = 12 ∨ c.index = 13) (s : State) :
    Chosen e s (bumpPort e c s) := by
  have unit : (bumpPort e c s).ports[e] = counting c s.ports[e] := by rw [bumpPort_ports, upd_get, if_pos rfl]
  refine ⟨rfl, fun p other => ⟨upd_other _ _ _ _ other, rfl⟩, by rw [unit]; rfl, fun i a b d => ?_, fun _ _ => by rw [unit]; rfl,
    fun _ => rfl, fun _ _ => rfl⟩
  rw [unit]
  refine upd_other _ _ _ _ ?_
  rintro rfl
  rcases sent with h | h | h
  · exact a h
  · exact b h
  · exact d h

/-- A motion frame is dropped for a leg on the egress. -/
theorem legDrop_chosen (cause : Cause) (n : StreamNo) (e : Port) (s : State) : Chosen e s (legDrop cause n e s) := by
  have flag (t : State) : Chosen e t (setFlag e .motionDrop t) := by
    have unit : (setFlag e .motionDrop t).ports[e] = flagging .motionDrop t.ports[e] := by rw [setFlag_ports, upd_get, if_pos rfl]
    refine ⟨rfl, fun p other => ⟨upd_other _ _ _ _ other, rfl⟩, by rw [unit]; rfl, fun _ _ _ _ => by rw [unit]; rfl, fun k h => ?_,
      fun _ => rfl, fun _ _ => rfl⟩
    rw [unit, flagging, flags_getLsbD, motionDrop_getLsbD]
    simp [h]
  have report (t : State) : Chosen e t (report cause (.egress e) (some n) t) := .of_rest rfl (fun _ => rfl) fun _ _ => rfl
  unfold legDrop
  cases cause.legCounter with
  | none => exact (report s).trans (flag _)
  | some c => exact (bumpLeg_chosen n e e c s).trans ((report _).trans (flag _))

theorem dropHead_chosen (cause : Cause) (n : StreamNo) (e : Port) (id : FrameId) (s : State) :
    Chosen e s (dropHead cause n e id s) :=
  (modLeg_chosen (f := fun l => { l with slot := l.slot.tail }) (fun _ => rfl) s).trans
    ((legDrop_chosen cause n e _).trans (returnRef_chosen id e _))

/-- The probes at a frame start (R166). -/
theorem probeStart_chosen (n : StreamNo) (e : Port) (r : FrameRecord) (w : Window) (g : Nat) (s : State) :
    Chosen e s (probeStart n e r w g s) := by
  have step (c : Capture) (q : Fin 4) (t : State) : Chosen e t (probeCaptures n e c q t) := by
    unfold probeCaptures
    split
    · split
      · exact .of_rest rfl (fun _ => rfl) fun j other => raise_otherSource other _ _ _
      · exact .refl e t
    · exact .refl e t
  have loop (c : Capture) (qs : List (Fin 4)) (t : State) : Chosen e t (forAll qs (probeCaptures n e c) t) := by
    induction qs generalizing t with
    | nil => exact .refl e t
    | cons q qs ih => exact (step c q t).trans (ih _)
  exact loop _ _ s

theorem startBestEffort_chosen (e : Port) (c : ClassNo) (id : FrameId) (s : State) : Chosen e s (startBestEffort e c id s) :=
  (modEgress_chosen e _ s).trans (bumpPort_chosen e (.inr (.inr rfl)) _)

theorem startMotion_chosen (e : Port) (g : Nat) (o : OpenWindow) (d : Desc) (r : FrameRecord) (s : State) :
    Chosen e s (startMotion e g o d r s) :=
  (modLeg_chosen (by intro l; rfl) s).trans ((modEgress_chosen e _ _).trans ((bumpLeg_chosen _ e e .sent _).trans
    ((bumpPort_chosen e (.inl rfl) _).trans (probeStart_chosen _ e r o.window g _))))

theorem startCopy_chosen (e : Port) (o : OpenWindow) (id : FrameId) (rest : List FrameId) (s : State) :
    Chosen e s (startCopy e o id rest s) :=
  (modEgress_chosen e _ s).trans ((bumpLeg_chosen _ e e .copies _).trans (bumpPort_chosen e (.inr (.inl rfl)) _))

theorem chooseBestEffort_chosen (e : Port) (g : Nat) (cs : List ClassNo) (s : State) :
    Chosen e s (chooseBestEffort e g cs s) := by
  induction cs with
  | nil => exact .refl e s
  | cons c cs ih =>
    unfold chooseBestEffort
    split
    · exact startBestEffort_chosen ..
    · exact ih

theorem chooseAgain_chosen (e : Port) (g fuel : Nat) (s : State) : Chosen e s (chooseAgain e g fuel s) := by
  induction fuel generalizing s with
  | zero => exact .refl e s
  | succ fuel ih =>
    unfold chooseAgain
    split
    · exact chooseBestEffort_chosen ..
    · split
      · exact chooseBestEffort_chosen ..
      · split
        · split
          · split
            · exact .refl e s
            · exact (dropHead_chosen ..).trans (ih _)
            · exact startMotion_chosen ..
          · exact .refl e s
        · split
          · exact (modEgress_chosen ..).trans (ih _)
          · split
            · exact startCopy_chosen ..
            · exact (modEgress_chosen ..).trans (ih _)

/-- What a choice of an egress leaves (R112). -/
theorem choose_chosen (e : Port) (s : State) : Chosen e s (choose e s) := by
  unfold choose
  split
  · exact .refl e s
  · split
    · exact .refl e s
    · exact chooseAgain_chosen ..

end Sys2Proof.PortLaws
end

section
/-! SUPPORT. What a choice of the egress does (R112), case by case: nothing, best effort, a motion frame, or the release of a used twin
window without copies. -/

namespace Sys2Proof.PortLaws

open Sys2Proof.Machine Sys2Proof.Safety Sys2Proof.Laws Sys2Proof.CellTime

/-! ### Fit checks and heads -/

theorem fitsBefore_iff (s : State) (e : Port) (len g : Nat) : s.fitsBefore e len g = true ↔ Fits s e len g := by
  unfold State.fitsBefore State.nextOpen Fits
  cases (s.egress[e].timeline.drop s.egress[e].nextWindow).head? with
  | some w => exact decide_eq_true_iff
  | none =>
    have next : s.nextTimeline e = if s.engine.commitDue then s.engine.timelines[e] else s.egress[e].timeline := rfl
    simp only [next]
    cases (if s.engine.commitDue then s.engine.timelines[e] else s.egress[e].timeline).head? with
    | none => simp
    | some w =>
      simp only [Option.map_some, Option.mem_def, Option.some.injEq, forall_eq']
      exact decide_eq_true_iff

theorem ready_stored {s : State} {id : FrameId} {r : FrameRecord} (stored : s.frame id = some r) :
    s.ready id = decide (120 ≤ s.since r.received) := by
  rw [State.ready, stored]
  rfl

theorem headStarts_iff {s : State} {e : Port} {g : Nat} {c : ClassNo} :
    (s.headStarts e g c).isSome ↔ HeadStarts s e c g := by
  unfold State.headStarts HeadStarts
  cases s.egress[e].queues[c].head? with
  | none => simp
  | some id =>
    cases stored : s.frame id with
    | none => simp [State.ready, stored]
    | some r =>
      have len : s.frameLength id = r.len := by rw [State.frameLength, stored]; rfl
      have fits := fitsBefore_iff s e r.len g
      simp [ready_stored stored, stored, len, fits]

theorem headStarts_none {s : State} {e : Port} {g : Nat} {c : ClassNo} (h : ¬HeadStarts s e c g) : s.headStarts e g c = none :=
  Option.not_isSome_iff_eq_none.1 fun k => h (headStarts_iff.1 k)

theorem chooseBestEffort_none {s : State} {e : Port} {g : Nat} {cs : List ClassNo} (h : ∀ c ∈ cs, ¬HeadStarts s e c g) :
    chooseBestEffort e g cs s = s := by
  induction cs with
  | nil => rfl
  | cons c cs ih =>
    rw [chooseBestEffort, headStarts_none (h c (List.mem_cons_self ..))]
    exact ih fun d hd => h d (List.mem_cons_of_mem _ hd)

/-- The head of the highest class that may start does (R116). -/
theorem chooseBestEffort_first {s : State} {e : Port} {g : Nat} {c : ClassNo} {id : FrameId} {above below : List ClassNo}
    (h : ∀ d ∈ above, ¬HeadStarts s e d g) (starts : s.headStarts e g c = some id) :
    chooseBestEffort e g (above ++ c :: below) s = startBestEffort e c id s := by
  induction above with
  | nil => rw [List.nil_append, chooseBestEffort, starts]
  | cons d above ih =>
    rw [List.cons_append, chooseBestEffort, headStarts_none (h d (List.mem_cons_self ..))]
    exact ih fun k hk => h k (List.mem_cons_of_mem _ hk)

/-- The classes from 3 down, those above one before it. -/
theorem classes_split (c : ClassNo) : ∃ above below : List ClassNo, ([3, 2, 1, 0] : List ClassNo) = above ++ c :: below ∧
    ∀ d ∈ above, c < d := by
  fin_cases c
  · exact ⟨[3, 2, 1], [], rfl, by decide⟩
  · exact ⟨[3, 2], [0], rfl, by decide⟩
  · exact ⟨[3], [1, 0], rfl, by decide⟩
  · exact ⟨[], [2, 1, 0], rfl, by decide⟩

/-! ### The choice -/

theorem attempts_pos (s : State) (e : Port) : ∃ fuel, s.attempts e = fuel + 1 := by
  unfold State.attempts
  split
  · exact ⟨0, rfl⟩
  · exact ⟨_, rfl⟩

/-- An egress that may choose does. -/
theorem choose_up {s : State} {e : Port} {v : Speed} (up : s.ports[e].link = .up v) (idle : s.egress[e].wire = none)
    (free : s.ports[e].hold = false) : choose e s = chooseAgain e v.factor (s.attempts e) s := by
  have factor : s.ports[e].link.factor = some v.factor := by rw [up]; rfl
  have off : ¬((s.egress[e].wire.isSome || s.ports[e].hold) = true) := by rw [idle, free]; decide
  unfold choose
  rw [factor]
  exact if_neg off

/-- In best effort's turn the classes are looked at. -/
theorem chooseAgain_bestEffort {s : State} {e : Port} (free : ∀ o ∈ s.egress[e].openWindow, o.released = true) (g fuel : Nat) :
    chooseAgain e g (fuel + 1) s = chooseBestEffort e g [3, 2, 1, 0] s := by
  unfold chooseAgain
  cases opened : s.egress[e].openWindow with
  | none => rfl
  | some o =>
    have released : o.released = true := free o opened
    simp only [released, if_true]

theorem choose_bestEffortTurn {s : State} {e : Port} {v : Speed} (turn : BestEffortTurn s e v) (free : s.ports[e].hold = false) :
    choose e s = chooseBestEffort e v.factor [3, 2, 1, 0] s := by
  obtain ⟨fuel, attempts⟩ := attempts_pos s e
  rw [choose_up turn.up turn.idle free, attempts, chooseAgain_bestEffort turn.free]

/-- A best-effort frame that may start does (R116, R117). -/
theorem choose_bestEffort {s : State} {e : Port} {c : ClassNo} {r : FrameRecord} {rest : List FrameId} {v : Speed}
    (start : BestEffortStart s e c r rest v) (free : s.ports[e].hold = false) : choose e s = startBestEffort e c r.id s := by
  obtain ⟨above, below, split, higher⟩ := classes_split c
  have head : HeadStarts s e c v.factor := ⟨r, by rw [start.queue]; exact start.stored, start.ready, start.fits⟩
  have starts : s.headStarts e v.factor c = some r.id := by
    have some := headStarts_iff.2 head
    unfold State.headStarts at some ⊢
    rw [start.queue] at some ⊢
    simp only [List.head?_cons] at some ⊢
    split at some
    · next h => rw [if_pos h]
    · cases some
  rw [choose_bestEffortTurn start.toBestEffortTurn free, split]
  exact chooseBestEffort_first (fun d hd => start.first d (higher d hd)) starts

/-- What an egress does with the outcome of a try (R104, R112). -/
def afterTry (e : Port) (g fuel : Nat) (o : OpenWindow) (d : Desc) (s : State) : HeadTry → State
  | .nothing => s
  | .drop cause id => chooseAgain e g fuel (dropHead cause o.window.stream e id s)
  | .start r => startMotion e g o d r s

/-- In an open, unreleased primary window the head of the slot is tried. -/
theorem choose_primary {s : State} {e : Port} {v : Speed} {o : OpenWindow} {x : Stream} {l : Leg}
    (up : s.ports[e].link = .up v) (idle : s.egress[e].wire = none) (free : s.ports[e].hold = false)
    (opened : s.egress[e].openWindow = some o) (primary : o.window.kind = .primary) (unreleased : o.released = false)
    (stream : s.streams[o.window.stream] = some x) (leg : s.leg o.window.stream e = some l) : ∃ fuel, choose e s =
      afterTry e v.factor fuel o x.desc s (s.tryHead v.factor o x.desc l.slot) := by
  obtain ⟨fuel, attempts⟩ := attempts_pos s e
  refine ⟨fuel, ?_⟩
  rw [choose_up up idle free, attempts, chooseAgain]
  simp only [opened, unreleased, primary, stream, leg, Bool.false_eq_true, if_false]
  cases s.tryHead v.factor o x.desc l.slot <;> rfl

/-- A motion frame that may start does (R104, R105). -/
theorem choose_motion {s : State} {e : Port} {o : OpenWindow} {x : Stream} {l : Leg} {r : FrameRecord} {rest : List FrameId}
    {v : Speed} (start : MotionStart s e o x l r rest v) (free : s.ports[e].hold = false) :
    choose e s = startMotion e v.factor o x.desc r s := by
  obtain ⟨fuel, run⟩ := choose_primary start.up start.idle free start.opened start.primary start.unreleased start.stream start.leg
  have ready : s.ready r.id = true := (ready_stored start.stored).trans (decide_eq_true start.ready)
  have head : l.slot.head?.bind s.frame = some r := by rw [start.slot]; exact start.stored
  have tried : s.tryHead v.factor o x.desc l.slot = .start r := by
    unfold State.tryHead
    rw [head]
    simp only [start.room, start.within, ready, decide_true, Bool.and_true, Bool.not_true, Bool.false_eq_true, if_false]
    rw [if_neg (Nat.not_lt.2 start.fresh)]
    exact if_neg (Nat.not_lt.2 start.inTime)
  rw [run, tried, afterTry]

/-- What waits in a primary window is left (R103, R104). -/
theorem choose_waits {s : State} {e : Port} {v : Speed} (up : s.ports[e].link = .up v) (idle : s.egress[e].wire = none)
    (free : s.ports[e].hold = false) (waits : MotionWaits s e) : choose e s = s := by
  obtain ⟨o, x, l, opened, primary, unreleased, stream, leg, why⟩ := waits
  obtain ⟨fuel, run⟩ := choose_primary up idle free opened primary unreleased stream leg
  have tried : s.tryHead v.factor o x.desc l.slot = .nothing := by
    unfold State.tryHead
    cases head : l.slot.head?.bind s.frame with
    | none => rfl
    | some r =>
      obtain ⟨id, first, stored⟩ := Option.bind_eq_some_iff.1 head
      have own := (frame_mem stored).2
      refine if_pos ?_
      rcases why with full | late | unready
      · simp [Nat.not_lt.2 full]
      · simp [Nat.not_lt.2 late]
      · have soon := unready id (List.mem_of_head? first) r stored
        have waiting : s.ready r.id = false := by
          rw [own, ready_stored stored]
          exact decide_eq_false (Nat.not_le.2 soon)
        simp [waiting]
  rw [run, tried, afterTry]

/-- Where a choice would start nothing and drop nothing, it leaves all as it is (R112). -/
theorem choose_settled {s : State} {e : Port} (settled : Settled s e) : choose e s = s := by
  cases link : s.ports[e].link with
  | down =>
    have factor : s.ports[e].link.factor = none := by rw [link]; rfl
    unfold choose
    rw [factor]
  | up v =>
    have factor : s.ports[e].link.factor = some v.factor := by rw [link]; rfl
    by_cases idle : s.egress[e].wire = none
    · by_cases free : s.ports[e].hold = false
      · rcases settled with busy | held | down | waits | ⟨u, turn, none⟩
        · exact absurd idle busy
        · rw [free] at held; cases held
        · rw [link] at down; cases down
        · exact choose_waits link idle free waits
        · rw [choose_bestEffortTurn turn free]
          exact chooseBestEffort_none fun c _ => none c
      · unfold choose
        rw [factor]
        exact if_pos (by rw [Bool.of_not_eq_false free, Bool.or_true])
    · unfold choose
      rw [factor]
      exact if_pos (by rw [Option.isSome_iff_ne_none.2 idle, Bool.true_or])

end Sys2Proof.PortLaws
end

section
/-! SUPPORT. What the starts leave on the egress (R105, R117), the release of a used twin window without copies, and the choice of an
egress that holds nothing. -/

namespace Sys2Proof.PortLaws

open Sys2Proof.Machine Sys2Proof.Safety Sys2Proof.Laws Sys2Proof.CellTime

/-! ### Starts -/

theorem startBestEffort_egress (e : Port) (c : ClassNo) (id : FrameId) (s : State) : (startBestEffort e c id s).egress[e] =
    { s.egress[e] with
      queues := Table.upd s.egress[e].queues c List.tail, wire := some ⟨id, s.timer.grain, .bestEffort⟩ } :=
  (upd_get ..).trans (if_pos rfl)

theorem startBestEffort_unit (e : Port) (c : ClassNo) (id : FrameId) (s : State) :
    (startBestEffort e c id s).ports[e] = counting .beSent s.ports[e] :=
  (upd_get ..).trans (if_pos rfl)

/-- The probes at a frame start change themselves and the notices alone. -/
theorem probeStart_rest (n : StreamNo) (e : Port) (r : FrameRecord) (w : Window) (g : Nat) (s : State) :
    { probeStart n e r w g s with probes := s.probes, mgmt := s.mgmt } = s := by
  have step (c : Capture) (q : Fin 4) (t : State) : { probeCaptures n e c q t with probes := t.probes, mgmt := t.mgmt } = t := by
    unfold probeCaptures
    split
    · split <;> rfl
    · rfl
  have loop (c : Capture) (qs : List (Fin 4)) (t : State) :
      { forAll qs (probeCaptures n e c) t with probes := t.probes, mgmt := t.mgmt } = t := by
    induction qs generalizing t with
    | nil => rfl
    | cons q qs ih =>
      exact (congrArg (fun x : State => { x with probes := t.probes, mgmt := t.mgmt }) (ih _)).trans (step c q t)
  exact loop _ _ s

/-- A leg from whose slot the head starts on the wire (R105). -/
def headSent (id : FrameId) (twinned : Bool) (l : Leg) : Leg :=
  { l with slot := l.slot.tail, retained := if twinned then l.retained ++ [id] else l.retained, missStreak := 0, missNotified := false }

theorem headSent_slotOf (n : StreamNo) (e : Port) (id : FrameId) (twinned : Bool) (s : State) :
    (s.modLeg n e (headSent id twinned)).slotOf n e = (s.slotOf n e).tail := by
  have leg : (s.modLeg n e (headSent id twinned)).leg n e = (s.leg n e).map (headSent id twinned) :=
    (modLeg_leg (f := headSent id twinned) (fun _ => rfl) n e s n e).trans (if_pos ⟨rfl, rfl⟩)
  rw [slotOf_eq, leg, slotOf_eq]
  cases s.leg n e <;> rfl

/-- What the start of a motion frame makes of the egress, its port unit and the slot (R105, R106). -/
structure MotionStarted (e : Port) (o : OpenWindow) (d : Desc) (r : FrameRecord) (s t : State) : Prop where
  egress : t.egress[e] = { s.egress[e] with
    wire := some ⟨r.id, s.timer.grain, .motion o.window.stream (d.twin != .off)⟩
    openWindow := some { o with sent := o.sent + 1, released := decide (d.k ≤ o.sent + 1) } }
  unit : t.ports[e] = counting .motionSent s.ports[e]
  slot : t.slotOf o.window.stream e = (s.slotOf o.window.stream e).tail

theorem startMotion_started (e : Port) (g : Nat) (o : OpenWindow) (d : Desc) (r : FrameRecord) (s : State) :
    MotionStarted e o d r s (startMotion e g o d r s) := by
  unfold startMotion
  dsimp only
  generalize sent : bumpPort e .motionSent _ = u
  have rest := probeStart_rest o.window.stream e r o.window g u
  have egress : (probeStart o.window.stream e r o.window g u).egress = u.egress := (congrArg State.egress rest :)
  have ports : (probeStart o.window.stream e r o.window g u).ports = u.ports := (congrArg State.ports rest :)
  have streams : (probeStart o.window.stream e r o.window g u).streams = u.streams := (congrArg State.streams rest :)
  refine ⟨?_, ?_, ?_⟩
  · rw [egress, ← sent]
    exact (upd_get ..).trans (if_pos rfl)
  · rw [ports, ← sent]
    exact (upd_get ..).trans (if_pos rfl)
  · rw [slotOf_congr streams, ← sent]
    exact headSent_slotOf o.window.stream e r.id (d.twin != .off) s

/-! ### Best effort leaves the open window -/

theorem chooseBestEffort_openWindow (e : Port) (g : Nat) (cs : List ClassNo) (s : State) :
    (chooseBestEffort e g cs s).egress[e].openWindow = s.egress[e].openWindow := by
  induction cs with
  | nil => rfl
  | cons c cs ih =>
    rw [chooseBestEffort]
    cases s.headStarts e g c with
    | some id => exact (congrArg Egress.openWindow (startBestEffort_egress e c id s) :)
    | none => exact ih

/-- A window that is released stays so. -/
theorem chooseAgain_released {s : State} {e : Port} {o : OpenWindow} (opened : s.egress[e].openWindow = some o)
    (released : o.released = true) (g fuel : Nat) : (chooseAgain e g fuel s).egress[e].openWindow = some o := by
  cases fuel with
  | zero => exact opened
  | succ fuel =>
    have free : ∀ o ∈ s.egress[e].openWindow, o.released = true := by
      intro o' h
      rw [opened] at h
      cases h
      exact released
    rw [chooseAgain_bestEffort free, chooseBestEffort_openWindow, opened]

/-- The state with the open window of an egress replaced. -/
abbrev withWindow (e : Port) (w : Option OpenWindow) (s : State) : State := s.modEgress e fun x => { x with openWindow := w }

theorem withWindow_openWindow (e : Port) (w : Option OpenWindow) (s : State) : (withWindow e w s).egress[e].openWindow = w := by
  rw [withWindow, State.modEgress_egress, upd_get, if_pos rfl]

theorem withWindow_same (e : Port) (s : State) : withWindow e s.egress[e].openWindow s = s := by
  have same : Table.upd s.egress e (fun x => { x with openWindow := s.egress[e].openWindow }) = s.egress := upd_id rfl
  rw [withWindow, State.modEgress, same]

/-- A used twin window without copies is released first (log entry 21). -/
theorem chooseAgain_spent {s : State} {e : Port} {o : OpenWindow} (opened : s.egress[e].openWindow = some o)
    (twin : o.window.kind = .twin) (unreleased : o.released = false) (spent : o.copies = []) (g fuel : Nat) :
    chooseAgain e g (fuel + 1) s = chooseAgain e g fuel (withWindow e (some { o with released := true }) s) := by
  rw [chooseAgain]
  simp only [opened, unreleased, twin, spent, Bool.false_eq_true, if_false]

theorem choose_spent {s : State} {e : Port} {v : Speed} {o : OpenWindow} (up : s.ports[e].link = .up v)
    (idle : s.egress[e].wire = none) (free : s.ports[e].hold = false) (opened : s.egress[e].openWindow = some o)
    (twin : o.window.kind = .twin) (unreleased : o.released = false) (spent : o.copies = []) :
    (choose e s).egress[e].openWindow = some { o with released := true } := by
  obtain ⟨fuel, attempts⟩ := attempts_pos s e
  rw [choose_up up idle free, attempts, chooseAgain_spent opened twin unreleased spent]
  exact chooseAgain_released (withWindow_openWindow ..) rfl _ _

/-! ### An egress that holds nothing -/

/-- Nothing waits at an egress: its class queues and the slots of its legs are empty, and an open window has no copies. -/
structure Emptied (e : Port) (s : State) : Prop where
  queues : ∀ c : ClassNo, s.egress[e].queues[c] = []
  slots : ∀ n, s.slotOf n e = []
  copies : ∀ o ∈ s.egress[e].openWindow, o.copies = []

theorem Emptied.heads {e : Port} {s : State} (h : Emptied e s) (g : Nat) (c : ClassNo) : ¬HeadStarts s e c g := by
  rintro ⟨r, head, -⟩
  rw [h.queues c] at head
  cases head

theorem Emptied.withWindow {e : Port} {s : State} (h : Emptied e s) {w : Option OpenWindow} (copies : ∀ o ∈ w, o.copies = []) :
    Emptied e (withWindow e w s) := by
  have egress : (PortLaws.withWindow e w s).egress[e] = { s.egress[e] with openWindow := w } := (upd_get ..).trans (if_pos rfl)
  exact ⟨fun c => by rw [egress]; exact h.queues c, h.slots, by rw [egress]; exact copies⟩

/-- A choice of an egress at which nothing waits releases a used twin window at most. -/
theorem chooseAgain_emptied {e : Port} (g fuel : Nat) {s : State} (h : Emptied e s) :
    ∃ w, chooseAgain e g fuel s = withWindow e w s := by
  have stays : ∃ w, s = withWindow e w s := ⟨_, (withWindow_same e s).symm⟩
  have bestEffort : chooseBestEffort e g [3, 2, 1, 0] s = s := chooseBestEffort_none fun c _ => h.heads g c
  induction fuel generalizing s with
  | zero => exact stays
  | succ fuel ih =>
    by_cases turn : ∀ o ∈ s.egress[e].openWindow, o.released = true
    · rw [chooseAgain_bestEffort turn, bestEffort]
      exact stays
    · push Not at turn
      obtain ⟨o, opened, unreleased⟩ := turn
      have off : o.released = false := Bool.eq_false_iff.2 unreleased
      cases kind : o.window.kind with
      | twin =>
        rw [chooseAgain_spent opened kind off (h.copies o opened)]
        have left := h.withWindow (w := some { o with released := true }) (fun o' h' => by cases h'; exact h.copies o opened)
        obtain ⟨w, run⟩ := ih left ⟨_, (withWindow_same e _).symm⟩ (chooseBestEffort_none fun c _ => left.heads g c)
        have twice : withWindow e w (withWindow e (some { o with released := true }) s) = withWindow e w s := by
          simp only [withWindow, State.modEgress, upd_upd]
        exact ⟨w, run.trans twice⟩
      | primary =>
        have run : chooseAgain e g (fuel + 1) s = s := by
          have slot := h.slots o.window.stream
          rw [Option.mem_def] at opened
          rw [chooseAgain]
          simp only [opened, off, kind, Bool.false_eq_true, if_false]
          cases stream : s.streams[o.window.stream] with
          | none => rfl
          | some x =>
            cases leg : s.leg o.window.stream e with
            | none => rfl
            | some l =>
              rw [slotOf_eq, leg, Option.map_some, Option.getD_some] at slot
              have tried : s.tryHead g o x.desc l.slot = .nothing := by
                rw [slot]
                rfl
              simp only [tried]
        rw [run]
        exact stays

theorem choose_emptied {e : Port} {s : State} (h : Emptied e s) : ∃ w, choose e s = withWindow e w s := by
  have stays : ∃ w, s = withWindow e w s := ⟨_, (withWindow_same e s).symm⟩
  unfold choose
  split
  · exact stays
  · split
    · exact stays
    · exact chooseAgain_emptied _ _ h

end Sys2Proof.PortLaws
end

section
/-! SUPPORT. LINK_UP on a DOWN link (R19, R22, R23): the event, the legs woken, and the choice of the egress. -/

namespace Sys2Proof.PortLaws

open Sys2Proof.Machine Sys2Proof.Safety Sys2Proof.Laws Sys2Proof.CellTime

/-! ### States in which an egress chooses alike -/

/-- Two states show an egress the same to choose from (R112): the instant, the schedulers, the timelines, the frames, its link, and
the slots of its legs. -/
structure Alike (e : Port) (s c : State) : Prop where
  timer : c.timer = s.timer
  commitDue : c.engine.commitDue = s.engine.commitDue
  timelines : c.engine.timelines = s.engine.timelines
  egress : c.egress = s.egress
  buffer : c.buffer = s.buffer
  link : c.ports[e].link = s.ports[e].link
  descs : ∀ n : StreamNo, c.streams[n].map (·.desc) = s.streams[n].map (·.desc)
  slots : ∀ n, (c.leg n e).map (·.slot) = (s.leg n e).map (·.slot)

section
variable {e : Port} {s c : State}

theorem Alike.phase (h : Alike e s c) : c.phase = s.phase := by rw [State.phase, h.timer]; rfl

theorem Alike.since (h : Alike e s c) (t : Stamp) : c.since t = s.since t := by rw [State.since, h.timer]; rfl

theorem Alike.frame (h : Alike e s c) (id : FrameId) : c.frame id = s.frame id := by rw [State.frame, h.buffer]; rfl

theorem Alike.fits (h : Alike e s c) (len g : Nat) : Fits c e len g ↔ Fits s e len g := by
  simp only [Fits, h.egress, h.commitDue, h.timelines, h.timer, h.phase]

theorem Alike.heads (h : Alike e s c) (k : ClassNo) (g : Nat) : HeadStarts c e k g ↔ HeadStarts s e k g := by
  have frames : c.frame = s.frame := funext h.frame
  simp only [HeadStarts, h.egress, frames, h.since, h.fits]

theorem Alike.turn (h : Alike e s c) {v : Speed} (turn : BestEffortTurn s e v) : BestEffortTurn c e v :=
  ⟨h.link.trans turn.up, by rw [h.egress]; exact turn.idle, by rw [h.egress]; exact turn.free⟩

theorem Alike.bestEffort (h : Alike e s c) {k : ClassNo} {r : FrameRecord} {rest : List FrameId} {v : Speed}
    (start : BestEffortStart s e k r rest v) : BestEffortStart c e k r rest v where
  toBestEffortTurn := h.turn start.toBestEffortTurn
  queue := by rw [h.egress]; exact start.queue
  stored := (h.frame _).trans start.stored
  ready := by rw [h.since]; exact start.ready
  fits := (h.fits _ _).2 start.fits
  first k' higher head := start.first k' higher ((h.heads k' _).1 head)

/-- The stream and the leg of an open window, seen from the other state. -/
theorem Alike.leg (h : Alike e s c) {n : StreamNo} {x : Stream} {l : Leg} (stream : s.streams[n] = some x)
    (leg : s.leg n e = some l) :
    ∃ y k, c.streams[n] = some y ∧ y.desc = x.desc ∧ c.leg n e = some k ∧ k.slot = l.slot := by
  have desc := h.descs n
  have slot := h.slots n
  rw [stream] at desc
  rw [leg] at slot
  obtain ⟨y, hy, same⟩ := Option.map_eq_some_iff.1 desc
  obtain ⟨k, hk, same'⟩ := Option.map_eq_some_iff.1 slot
  exact ⟨y, k, hy, same, hk, same'⟩

theorem Alike.motion (h : Alike e s c) {o : OpenWindow} {x : Stream} {l : Leg} {r : FrameRecord} {rest : List FrameId} {v : Speed}
    (start : MotionStart s e o x l r rest v) : ∃ y k, y.desc = x.desc ∧ MotionStart c e o y k r rest v := by
  obtain ⟨y, k, stream, desc, leg, slot⟩ := h.leg start.stream start.leg
  exact ⟨y, k, desc,
    { up := h.link.trans start.up
      idle := by rw [h.egress]; exact start.idle
      opened := by rw [h.egress]; exact start.opened
      primary := start.primary
      unreleased := start.unreleased
      stream := stream
      leg := leg
      slot := slot.trans start.slot
      stored := (h.frame _).trans start.stored
      room := by rw [desc]; exact start.room
      within := by rw [h.phase]; exact start.within
      ready := by rw [h.since]; exact start.ready
      fresh := by rw [h.since, desc]; exact start.fresh
      inTime := by rw [h.phase]; exact start.inTime }⟩

theorem Alike.waits (h : Alike e s c) (waits : MotionWaits s e) : MotionWaits c e := by
  obtain ⟨o, x, l, opened, primary, unreleased, stream, leg, why⟩ := waits
  obtain ⟨y, k, stream', desc, leg', slot⟩ := h.leg stream leg
  have frames : c.frame = s.frame := funext h.frame
  exact ⟨o, y, k, by rw [h.egress]; exact opened, primary, unreleased, stream', leg', by
    simp only [desc, slot, h.phase, frames, h.since]; exact why⟩

theorem Alike.settled (h : Alike e s c) (hold : c.ports[e].hold = s.ports[e].hold) (settled : Settled s e) : Settled c e := by
  rcases settled with busy | held | down | waits | ⟨v, turn, none⟩
  · exact .inl (by rw [h.egress]; exact busy)
  · exact .inr (.inl (hold.trans held))
  · exact .inr (.inr (.inl (h.link.trans down)))
  · exact .inr (.inr (.inr (.inl (h.waits waits))))
  · exact .inr (.inr (.inr (.inr ⟨v, h.turn turn, fun k head => none k ((h.heads k _).1 head)⟩)))

end

/-! ### The event of a LINK_UP -/

/-- A leg that a LINK_UP takes from DORMANT, to LIVE at the planned speed and to MISMATCH at the other (R22, R23). -/
def woken (planned : Bool) (l : Leg) : Leg :=
  if l.state = some .dormant then { l with state := some (if planned then .live else .mismatch) } else l

/-- The port unit before a LINK_UP is recorded (R22, R23, R29). -/
def awake (planned : Bool) (u : PortUnit) : PortUnit :=
  { (if planned then u else flagging .speedMismatch u) with restartMarker := false }

/-- The kind of a LINK_UP. -/
def upKind (planned : Bool) : LinkEventKind := if planned then .linkUpPlanned else .linkUpOther

/-- The port unit after a LINK_UP (R19, R22, R23). -/
def upUnit (s : State) (planned : Bool) (v : Speed) (u : PortUnit) : PortUnit :=
  counting .upEvents (recorded ⟨upKind planned, s.timer.grain, s.timer.cycle⟩ (.up v) (awake planned u))

/-- The state in which the egress chooses after a LINK_UP. -/
def wokenState (p : Port) (planned : Bool) (v : Speed) (s : State) : State :=
  linkEvent p (upKind planned) (.up v) ((if planned then modRunningLegs p (woken planned) s
    else setFlag p .speedMismatch (modRunningLegs p (woken planned) s)).modPort p fun u => { u with restartMarker := false })

theorem takeLinkUp_eq (p : Port) (v : Speed) (s : State) :
    takeLinkUp p v s = choose p (wokenState p (decide (v = s.ports[p].planned)) v s) := by
  unfold takeLinkUp wokenState upKind
  by_cases h : v = s.ports[p].planned
  · simp only [h, decide_true, if_true]
    rfl
  · simp only [h, decide_false]
    rfl

/-- Between two states a LINK_UP was recorded and the legs woken, whatever the fault unit and the link did meanwhile. -/
structure Awoken (p : Port) (planned : Bool) (v : Speed) (s c : State) : Prop where
  ports : c.ports = Table.upd s.ports p (upUnit s planned v)
  streams : ∀ n : StreamNo, c.streams[n] = s.streams[n].map (running p (woken planned))
  rest : { c with
    ports := s.ports, streams := s.streams, mgmt := s.mgmt, fault := s.fault, deviceCounters := s.deviceCounters } = s

/-- What a LINK_UP does to the link, and that it makes no report. -/
structure UpNoticed (p : Port) (v : Speed) (s c : State) : Prop where
  mgmt : c.mgmt = raised (srcPort p) s.timer.cycle (.linkState p (.up v) s.ports[p].planned) s.mgmt
  fault : c.fault = s.fault
  deviceCounters : c.deviceCounters = s.deviceCounters

theorem awakened_ports (p : Port) (planned : Bool) (s : State) :
    ((if planned then modRunningLegs p (woken planned) s
      else setFlag p .speedMismatch (modRunningLegs p (woken planned) s)).modPort p fun u => { u with restartMarker := false }).ports =
        Table.upd s.ports p (awake planned) := by
  cases planned with
  | true => rfl
  | false => exact upd_upd s.ports p (flagging .speedMismatch) fun u => { u with restartMarker := false }

theorem wokenState_awoken (p : Port) (planned : Bool) (v : Speed) (s : State) : Awoken p planned v s (wokenState p planned v s) := by
  have ports := awakened_ports p planned s
  refine ⟨?_, fun n => ?_, ?_⟩
  · have timer : ((if planned then modRunningLegs p (woken planned) s
        else setFlag p .speedMismatch (modRunningLegs p (woken planned) s)).modPort p fun u => { u with restartMarker := false }).timer =
          s.timer := by cases planned <;> rfl
    have counter : eventCounter (upKind planned) = .upEvents := by cases planned <;> rfl
    rw [wokenState, linkEvent_ports, ports, upd_upd, timer, counter]
    rfl
  · have streams : (wokenState p planned v s).streams = (modRunningLegs p (woken planned) s).streams := by cases planned <;> rfl
    rw [streams]
    exact modRunningLegs_streams p (woken planned) s n
  · cases planned <;> rfl

theorem wokenState_noticed (p : Port) (planned : Bool) (v : Speed) (s : State) : UpNoticed p v s (wokenState p planned v s) := by
  have ports := awakened_ports p planned s
  refine ⟨?_, ?_, ?_⟩
  · have kept : (Table.upd s.ports p (awake planned))[p].planned = s.ports[p].planned := by
      rw [upd_get, if_pos rfl, awake]
      cases planned <;> rfl
    rw [wokenState, linkEvent_mgmt, ports, kept]
    cases planned <;> rfl
  · cases planned <;> rfl
  · cases planned <;> rfl

end Sys2Proof.PortLaws
end

section
/-! LINK_UP as the statements put it (R19, R22, R23), and the statement on it. -/

namespace Sys2Proof.PortLaws

open Sys2Proof.Machine Sys2Proof.Safety Sys2Proof.Laws Sys2Proof.CellTime

/-! ### What the egress sees of a LINK_UP -/

@[simp] theorem woken_egress (planned : Bool) (l : Leg) : (woken planned l).egress = l.egress := by
  unfold woken; split <;> rfl

theorem awake_keeps {α : Type} (planned : Bool) (u : PortUnit) (view : PortUnit → α)
    (apart : ∀ w m f, view { w with restartMarker := m, flags := f } = view w) : view (awake planned u) = view u := by
  cases planned with
  | true => exact apart u false u.flags
  | false => exact apart u false (flagging .speedMismatch u).flags

/-- What a LINK_UP keeps of the port unit. -/
theorem upUnit_keeps {α : Type} (s : State) (planned : Bool) (v : Speed) (u : PortUnit) (view : PortUnit → α)
    (apart : ∀ w m f l e c, view { w with restartMarker := m, flags := f, link := l, lastEvent := e, counters := c } = view w) :
    view (upUnit s planned v u) = view u := by
  have first := apart (awake planned u) (awake planned u).restartMarker (awake planned u).flags
  refine (first (.up v) (some ⟨upKind planned, s.timer.grain, s.timer.cycle⟩) _).trans (awake_keeps planned u view ?_)
  exact fun w m f => apart w m f w.link w.lastEvent w.counters

theorem upUnit_counters (s : State) (planned : Bool) (v : Speed) (u : PortUnit) :
    (upUnit s planned v u).counters = Table.upd u.counters 18 satInc := by
  cases planned <;> rfl

/-- A leg of a woken stream holds what it held. -/
theorem Awoken.held {α : Type} {p : Port} {planned : Bool} {v : Speed} {s c : State} (h : Awoken p planned v s c) (held : Leg → α)
    (keep : ∀ l, held (woken planned l) = held l) (n : StreamNo) : (c.leg n p).map held = (s.leg n p).map held := by
  have bares : bare c n = bare (modRunningLegs p (woken planned) s) n := by
    rw [bare, h.streams, bare, modRunningLegs_streams]
  rw [leg_congr bares]
  exact modRunningLegs_held (woken_egress planned) keep p p s n

section
variable {p : Port} {planned : Bool} {s c : State}

theorem Awoken.unit {v : Speed} (h : Awoken p planned v s c) : c.ports[p] = upUnit s planned v s.ports[p] := by
  rw [h.ports, upd_get, if_pos rfl]

theorem Awoken.alike {v : Speed} (h : Awoken p planned v s c) : Alike p (withLink s p v) c := by
  have unit : (withLink s p v).ports[p] = { s.ports[p] with link := .up v } := (upd_get ..).trans (if_pos rfl)
  refine
    { timer := (congrArg State.timer h.rest :)
      commitDue := (congrArg (fun x : State => x.engine.commitDue) h.rest :)
      timelines := (congrArg (fun x : State => x.engine.timelines) h.rest :)
      egress := (congrArg State.egress h.rest :)
      buffer := (congrArg State.buffer h.rest :)
      link := by rw [h.unit, unit]; rfl
      descs := fun n => ?_
      slots := h.held (·.slot) fun l => by unfold woken; split <;> rfl }
  rw [h.streams, Option.map_map]
  show _ = s.streams[n].map (·.desc)
  congr 1
  funext x
  simp only [Function.comp, running]
  split <;> rfl

/-- The leg states that a LINK_UP leaves. -/
def upStates (p : Port) (planned : Bool) (x : Stream) : Stage × List (Port × Option LegState) :=
  (x.stage, x.legs.map fun l => (l.egress,
    if l.egress = p ∧ (x.stage = .active ∨ x.stage = .releasing) ∧ l.state = some .dormant then
      some (if planned then .live else .mismatch)
    else l.state))

theorem legStates_woken (p : Port) (planned : Bool) (x : Stream) :
    legStates (running p (woken planned) x) = upStates p planned x :=
  legStates_running_of (P := fun state => state = some .dormant) (fun _ => rfl) p x

theorem legStates_settled (x : Stream) : legStates (settledStream x) = legStates x := by
  simp only [legStates, settledStream, List.map_map]
  rfl

/-! ### A LINK_UP taken -/

/-- What the event of a LINK_UP makes of the flags (R23). -/
theorem upUnit_flags (s : State) (planned : Bool) (v : Speed) (u : PortUnit) (k : Nat) :
    (upUnit s planned v u).flags.getLsbD k = (u.flags.getLsbD k || (u.flagMask.getLsbD k && k == 1 && !planned)) := by
  cases planned with
  | true => simp [upUnit, counting, recorded, awake]
  | false =>
    have bit : Flag.speedMismatch.bit.getLsbD k = (k == 1) := by
      rw [show Flag.speedMismatch.bit = BitVec.twoPow 6 1 from rfl, BitVec.getLsbD_twoPow]
      simp only [Nat.reduceLT, decide_true, Bool.true_and, eq_comm]
      rfl
    simp only [upUnit, counting, recorded, awake, flagging, Bool.false_eq_true, if_false, flags_getLsbD, bit, Bool.not_false,
      Bool.and_true]
    rw [Bool.and_comm]

/-- A LINK_UP, the egress's choice and the reports of the event (R19, R22, R23, R112). -/
theorem cameUp {t : State} (h : Awoken p planned (reported s p planned) s c)
    (after : { t with deviceCounters := (choose p c).deviceCounters, fault := (choose p c).fault, mgmt := (choose p c).mgmt } =
      choose p c)
    (notice : s.mgmt.sources[srcPort p].number ≠ 0 → ∃ n ∈ t.mgmt.sources[srcPort p].pending,
      n.cycle = s.timer.cycle ∧ n.data = .linkState p (.up (reported s p planned)) s.ports[p].planned)
    (device : choose p c = c → t.deviceCounters = s.deviceCounters) : CameUp s t p planned := by
  have chosen := choose_chosen p c
  have ports : t.ports = (choose p c).ports := (congrArg State.ports after :)
  have egress : t.egress = (choose p c).egress := (congrArg State.egress after :)
  have streams : t.streams = (choose p c).streams := (congrArg State.streams after :)
  have alike := h.alike
  have scheduler : c.egress = s.egress := alike.egress
  have link : c.ports[p].link = .up (reported s p planned) := by rw [h.unit]; rfl
  have hold : c.ports[p].hold = s.ports[p].hold := by
    rw [h.unit]; exact upUnit_keeps s planned _ s.ports[p] (·.hold) fun _ _ _ _ _ _ => rfl
  have stays {α : Type} (view : PortUnit → α) (apart : ∀ w a b, view { w with counters := a, flags := b } = view w) :
      view t.ports[p] = view c.ports[p] := by
    rw [ports]
    exact (apart _ _ _).symm.trans (congrArg view chosen.unit)
  refine
    { link := by rw [stays (·.link) fun _ _ _ => rfl, link]
      event := ?_
      counted := ?_
      notice := notice
      marker := ?_
      flags := fun k _ other => ?_
      settings := ?_
      legs := fun n => ?_
      otherPorts := fun e other => ?_
      others := ?_
      settled := fun settled => ?_
      bestEffort := fun k r rest v free start => ?_
      motion := fun o x l r rest v free start => ?_
      spent := fun o free idle opened twin unreleased copies => ?_ }
  · rw [stays (·.lastEvent) fun _ _ _ => rfl, h.unit]
    cases planned <;> rfl
  · have kept := chosen.counters 18 (by decide) (by decide) (by decide)
    rw [ports]
    refine kept.trans ?_
    rw [h.unit, upUnit_counters]
    exact upd_same s.ports[p].counters 18 satInc
  · rw [stays (·.restartMarker) fun _ _ _ => rfl, h.unit]
    cases planned <;> rfl
  · rw [ports, chosen.flags k other, h.unit, upUnit_flags]
  · rw [stays (·.settings) fun _ _ _ => rfl, stays (·.windows) fun _ _ _ => rfl, stays (·.untaggedAllowed) fun _ _ _ => rfl,
      stays (·.receiving) fun _ _ _ => rfl, h.unit]
    cases planned <;> exact ⟨rfl, rfl, rfl, rfl⟩
  · have states : t.streams[n].map legStates = c.streams[n].map legStates := by
      have same := congrArg (Option.map legStates) (chosen.streams n)
      rw [Option.map_map, Option.map_map] at same
      rw [streams]
      simpa only [Function.comp_def, legStates_settled] using same
    refine states.trans ?_
    rw [h.streams, Option.map_map]
    congr 1
    exact funext (legStates_woken p planned)
  · obtain ⟨unit, egress'⟩ := chosen.others e other
    rw [ports, egress, unit, egress', h.ports, upd_get, if_neg other, scheduler]
    exact ⟨rfl, rfl⟩
  · have timer : t.timer = c.timer := (congrArg State.timer after :).trans (congrArg State.timer chosen.rest :)
    have engine : t.engine = c.engine := (congrArg State.engine after :).trans (congrArg State.engine chosen.rest :)
    have addr : t.addr = c.addr := (congrArg State.addr after :).trans (congrArg State.addr chosen.rest :)
    have noise : t.noise = c.noise := (congrArg State.noise after :).trans (congrArg State.noise chosen.rest :)
    have streamCounters : t.streamCounters = c.streamCounters :=
      (congrArg State.streamCounters after :).trans (congrArg State.streamCounters chosen.rest :)
    exact ⟨timer.trans alike.timer, engine.trans (congrArg State.engine h.rest :), addr.trans (congrArg State.addr h.rest :),
      noise.trans (congrArg State.noise h.rest :), streamCounters.trans (congrArg State.streamCounters h.rest :)⟩
  · have unit : (withLink s p (reported s p planned)).ports[p] = { s.ports[p] with link := .up (reported s p planned) } :=
      (upd_get ..).trans (if_pos rfl)
    have still := choose_settled (alike.settled (by rw [unit]; exact hold) settled)
    rw [still] at ports egress streams after
    refine ⟨by rw [egress, scheduler], by rw [ports, h.unit, upUnit_counters], ?_, device still, ?_, ?_, fun n => ?_⟩
    · exact (congrArg State.buffer after :).trans alike.buffer
    · exact (congrArg State.legCounters after :).trans (congrArg State.legCounters h.rest :)
    · exact (congrArg State.probes after :).trans (congrArg State.probes h.rest :)
    · have slot := h.held (·.slot) (fun l => by unfold woken; split <;> rfl) n
      have kept := h.held (·.retained) (fun l => by unfold woken; split <;> rfl) n
      rw [slotOf_congr streams, retainedOf_congr streams, slotOf_eq, slot, retainedOf_eq, kept]
      exact ⟨rfl, rfl⟩
  · have start' := alike.bestEffort start
    have queue : Table.upd s.egress[p].queues k List.tail = Table.upd s.egress[p].queues k fun _ => rest := by
      have head : s.egress[p].queues[k] = r.id :: rest := start.queue
      rw [Table.upd, head]
      rfl
    rw [egress, choose_bestEffort start' (hold.trans free), startBestEffort_egress, scheduler, alike.timer, queue]
    rfl
  · obtain ⟨y, m, desc, start'⟩ := alike.motion start
    have run := choose_motion start' (hold.trans free)
    have started := startMotion_started p v.factor o y.desc r c
    rw [← run] at started
    have slot : c.slotOf o.window.stream p = r.id :: rest := by
      rw [slotOf_eq, start'.leg]
      exact start'.slot
    refine ⟨?_, ?_⟩
    · rw [egress, started.egress, scheduler, alike.timer, desc]
      rfl
    · rw [slotOf_congr streams, started.slot, slot]
      rfl
  · rw [egress]
    exact choose_spent link (by rw [scheduler]; exact idle) (hold.trans free) (by rw [scheduler]; exact opened) twin unreleased
      copies

end

/-! ### The reports of an event -/

@[simp] theorem takeReports_ports (s : State) : (takeReports s).ports = s.ports := (congrArg State.ports (takeReports_only s).rest :)
@[simp] theorem takeReports_streams (s : State) : (takeReports s).streams = s.streams :=
  (congrArg State.streams (takeReports_only s).rest :)
@[simp] theorem takeReports_egress (s : State) : (takeReports s).egress = s.egress := (takeReports_only s).egress
@[simp] theorem takeReports_buffer (s : State) : (takeReports s).buffer = s.buffer :=
  (congrArg State.buffer (takeReports_only s).rest :)
@[simp] theorem takeReports_legCounters (s : State) : (takeReports s).legCounters = s.legCounters :=
  (congrArg State.legCounters (takeReports_only s).rest :)

/-! ### Two events of one report (R19, R176) -/

/-- Of two notices of one kind raised one after the other, the second joins the first. -/
theorem joinPending_twice (c c' : CycleNo) {d d' : NoticeData} (same : d'.kind = d.kind) (xs : List Notice) :
    ∃ a ∈ joinPending c d xs, ∃ b ∈ joinPending c' d' (joinPending c d xs), a.data = d ∧ b.data = d' ∧
      b.repeats = min 255 (a.repeats + 1) := by
  induction xs with
  | nil =>
    refine ⟨⟨1, c, d⟩, by simp [joinPending], ⟨2, c', d'⟩, ?_, rfl, rfl, rfl⟩
    simp [joinPending, same]
  | cons x xs ih =>
    by_cases h : x.data.kind = d.kind
    · refine ⟨⟨min 255 (x.repeats + 1), c, d⟩, ?_, ⟨min 255 (min 255 (x.repeats + 1) + 1), c', d'⟩, ?_, rfl, rfl, rfl⟩
      · simp [joinPending, h]
      · simp [joinPending, h, same]
    · obtain ⟨a, ha, b, hb, first, second, repeats⟩ := ih
      refine ⟨a, ?_, b, ?_, first, second, repeats⟩
      · simp only [joinPending, if_neg h]
        exact List.mem_cons_of_mem _ ha
      · have h' : ¬x.data.kind = d'.kind := by rw [same]; exact h
        simp only [joinPending, if_neg h, if_neg h']
        exact List.mem_cons_of_mem _ hb

/-- Two states of which the second had one raise more at a source that is not routed, and no other report. -/
def OneUnrouted (x y : State) : Prop :=
  y.fault = x.fault ∧ y.mgmt = { x.mgmt with unrouted := satInc x.mgmt.unrouted }

theorem raised_oneMore (src : Fin 12) (cycle : CycleNo) (d : NoticeData) (m : MgmtLink) :
    raised src cycle d { m with unrouted := satInc m.unrouted } =
      { raised src cycle d m with unrouted := satInc (raised src cycle d m).unrouted } := by
  unfold raised
  by_cases off : m.sources[src].number = 0
  · rw [if_pos off, if_pos off]
  · rw [if_neg off, if_neg off]

theorem takeReport_oneUnrouted {x y : State} (h : OneUnrouted x y) (r : Report) : OneUnrouted (takeReport x r) (takeReport y r) := by
  obtain ⟨fault, mgmt⟩ := h
  have same : (bumpDevice (.total r.fields.cause) y).fault = (bumpDevice (.total r.fields.cause) x).fault := fault
  unfold takeReport
  dsimp only
  rw [same]
  split
  · refine ⟨?_, ?_⟩
    · show ({ y.fault with record := some r.fields } : FaultUnit) = { x.fault with record := some r.fields }
      rw [fault]
    · show raised srcFault r.fields.cycle (.firstFault r.fields) y.mgmt = _
      rw [mgmt]
      exact raised_oneMore ..
  · exact ⟨fault, mgmt⟩

/-- Taking the same reports keeps that there was one raise more. -/
theorem takeReports_oneUnrouted {x y : State} (h : OneUnrouted x y) : OneUnrouted (takeReports x) (takeReports y) := by
  have loop (rs : List Report) {x y : State} (h : OneUnrouted x y) : OneUnrouted (rs.foldl takeReport x) (rs.foldl takeReport y) := by
    induction rs generalizing x y with
    | nil => exact h
    | cons r rs ih => exact ih (takeReport_oneUnrouted h r)
  unfold takeReports
  rw [h.1]
  refine loop _ ⟨?_, h.2⟩
  show ({ y.fault with inbox := [] } : FaultUnit) = { x.fault with inbox := [] }
  rw [h.1]

/-! ### The statement -/

theorem reported_planned (s : State) (p : Port) (planned : Bool) :
    decide (reported s p planned = s.ports[p].planned) = planned := by
  unfold reported
  cases planned with
  | true => simp
  | false => cases s.ports[p].planned <;> rfl

theorem exec_linkUp {s : State} (awake : Awake s) (p : Port) (planned : Bool) :
    exec (if planned then .linkUp p else .linkUpOtherSpeed p) s =
      .next (takeReports (phyReport p (.up (reported s p planned)) s)) := by
  cases planned with
  | true => exact event_high awake.high fun s => phyReport p (.up s.ports[p].planned) s
  | false => exact event_high awake.high fun s => phyReport p (.up s.ports[p].planned.other) s

theorem srcPort_ne_srcProbe (p : Port) : srcPort p ≠ srcProbe := by revert p; decide

/-- The notice of a LINK_UP is pending after the reports (R176). -/
theorem upNoticed_pending {p : Port} {v : Speed} {s c : State} (h : UpNoticed p v s c)
    (routed : s.mgmt.sources[srcPort p].number ≠ 0) :
    ∃ n ∈ (takeReports (choose p c)).mgmt.sources[srcPort p].pending,
      n.cycle = s.timer.cycle ∧ n.data = .linkState p (.up v) s.ports[p].planned := by
  rw [(takeReports_only _).sources _ (srcPort_ne_srcFault p), (choose_chosen p c).sources _ (srcPort_ne_srcProbe p), h.mgmt]
  exact raised_mem routed

/-- A LINK_UP on a DOWN link. -/
theorem takeLinkUp_came {p : Port} {planned : Bool} {s : State} (silent : s.fault.inbox = []) :
    CameUp s (takeReports (takeLinkUp p (reported s p planned) s)) p planned := by
  have awoken := wokenState_awoken p planned (reported s p planned) s
  have noticed := wokenState_noticed p planned (reported s p planned) s
  rw [takeLinkUp_eq, reported_planned]
  refine cameUp awoken (takeReports_only _).rest (upNoticed_pending noticed) fun still => ?_
  rw [still, takeReports_none (by rw [noticed.fault]; exact silent)]
  exact noticed.deviceCounters

/-! ### A LINK_UP on a link that is UP at the other speed -/

/-- What a LINK_DOWN leaves for the LINK_UP after it: nothing at the egress, the link DOWN, the settings. -/
theorem takeLinkDown_emptied (p : Port) (s : State) : Emptied p (takeLinkDown p s) ∧ (takeLinkDown p s).egress[p].wire = none ∧
    (∀ n, (takeLinkDown p s).retainedOf n p = []) ∧ (takeLinkDown p s).ports[p].planned = s.ports[p].planned := by
  have h := unlinked_unlinked p s
  have event := takeLinkDown_recorded p s
  have planned : (unlinked p s).ports[p].planned = s.ports[p].planned := (h.lossy.ports p).keeps (·.planned) fun _ => rfl
  generalize takeLinkDown p s = d at *
  generalize unlinked p s = v at *
  have streams : d.streams = v.streams := (congrArg State.streams event.rest :)
  have egress : d.egress = v.egress := (congrArg State.egress event.rest :)
  obtain ⟨k, scheduler⟩ := h.egress
  have here := (congrArg (fun x : Table Egress 8 => x[p]) scheduler).trans ((upd_get ..).trans (if_pos rfl))
  rw [← egress] at here
  refine ⟨⟨fun c => ?_, fun n => ?_, ?_⟩, by rw [here], fun n => ?_, ?_⟩
  · rw [here]
    exact (emptied_get _ _ c).trans (if_pos (by revert c; decide))
  · rw [slotOf_congr streams]
    exact (h.slots n).1
  · rw [here]
    intro o opened
    obtain ⟨o', -, rfl⟩ := Option.map_eq_some_iff.1 opened
    rfl
  · rw [retainedOf_congr streams]
    exact (h.slots n).2
  · rw [event.ports, upd_get, if_pos rfl, downUnit_rest]
    exact planned

/-- The reports of an event may be taken before the LINK_UP is recorded. -/
theorem Awoken.reported {p : Port} {planned : Bool} {v : Speed} {d c : State} (h : Awoken p planned v d c) :
    Awoken p planned v (takeReports d) c := by
  have rest := (takeReports_only d).rest
  have ports : (takeReports d).ports = d.ports := (congrArg State.ports rest :)
  have streams : (takeReports d).streams = d.streams := (congrArg State.streams rest :)
  have timer := (takeReports_only d).timer
  generalize takeReports d = m at *
  refine ⟨?_, fun n => by rw [streams]; exact h.streams n, ?_⟩
  · have unit : upUnit m planned v = upUnit d planned v := by
      funext u
      rw [upUnit, timer, upUnit]
    rw [ports, unit]
    exact h.ports
  · have common := (congrArg (fun x : State => { x with
      ports := m.ports, streams := m.streams, mgmt := m.mgmt, fault := m.fault, deviceCounters := m.deviceCounters }) h.rest :)
    have back := (congrArg (fun x : State => { x with mgmt := m.mgmt, fault := m.fault, deviceCounters := m.deviceCounters }) rest :)
    rw [ports, streams] at common
    rw [ports, streams]
    exact common.trans back.symm

/-- The states of a LINK_DOWN and then a LINK_UP of one report: after the first, and before the egress chooses. -/
structure BothEvents (p : Port) (planned : Bool) (s d c : State) : Prop where
  emptied : Emptied p d
  idle : d.egress[p].wire = none
  retained : ∀ n, d.retainedOf n p = []
  speed : d.ports[p].planned = s.ports[p].planned
  mgmt : d.mgmt = raised (srcPort p) s.timer.cycle (.linkState p .down s.ports[p].planned) s.mgmt
  awoken : Awoken p planned (reported s p planned) d c
  noticed : UpNoticed p (reported s p planned) d c

theorem bothEvents (p : Port) (planned : Bool) (s : State) : BothEvents p planned s (takeLinkDown p s)
    (wokenState p planned (reported s p planned) (takeLinkDown p s)) := by
  obtain ⟨emptied, idle, retained, kept⟩ := takeLinkDown_emptied p s
  refine ⟨emptied, idle, retained, kept, ?_, wokenState_awoken .., wokenState_noticed ..⟩
  have lossy := unlinked_lossy p s
  have unit : (unlinked p s).ports[p].planned = s.ports[p].planned := (lossy.ports p).keeps (·.planned) fun _ => rfl
  rw [(takeLinkDown_recorded p s).mgmt, lossy.timer, lossy.mgmt, unit]

section
variable {p : Port} {planned : Bool} {s d c : State}

/-- The egress is empty, so that its choice starts nothing. -/
theorem BothEvents.choice (h : BothEvents p planned s d c) : ∃ w, choose p c = withWindow p w c := by
  have alike := h.awoken.alike
  have egress : c.egress = d.egress := alike.egress
  refine choose_emptied ⟨fun k => by rw [egress]; exact h.emptied.queues k, fun n => ?_, by rw [egress]; exact h.emptied.copies⟩
  rw [slotOf_eq, alike.slots]
  exact h.emptied.slots n

theorem BothEvents.device (h : BothEvents p planned s d c) :
    (takeReports (choose p c)).deviceCounters = (takeReports d).deviceCounters := by
  obtain ⟨w, choice⟩ := h.choice
  have fault : (choose p c).fault = d.fault := by rw [choice]; exact h.noticed.fault
  have device : (choose p c).deviceCounters = d.deviceCounters := by rw [choice]; exact h.noticed.deviceCounters
  refine Vector.ext fun i hi => ?_
  have counted (x : State) := takeReports_deviceCounters x ⟨i, hi⟩
  refine (counted _).trans (Eq.trans ?_ (counted _).symm)
  rw [fault, device]

theorem BothEvents.came (h : BothEvents p planned s d c) :
    CameUp (takeReports d) (takeReports (choose p c)) p planned := by
  have same : (takeReports d).ports[p].planned = s.ports[p].planned := by
    rw [takeReports_ports]
    exact h.speed
  have speed : reported (takeReports d) p planned = reported s p planned := by rw [reported, same, reported]
  have awoken := h.awoken.reported
  rw [← speed] at awoken
  refine cameUp awoken (takeReports_only _).rest (fun routed => ?_) fun _ => h.device
  rw [(takeReports_only d).sources _ (srcPort_ne_srcFault p)] at routed
  obtain ⟨n, mem, cycle, data⟩ := upNoticed_pending h.noticed routed
  exact ⟨n, mem, cycle.trans (congrArg Timer.cycle (takeReports_only d).timer).symm, by rw [speed, same, data, h.speed]⟩

/-- The second notice joins the first where it is still pending (R176). -/
theorem BothEvents.joined (h : BothEvents p planned s d c) (routed : s.mgmt.sources[srcPort p].number ≠ 0) :
    ∃ a ∈ (takeReports d).mgmt.sources[srcPort p].pending, ∃ b ∈ (takeReports (choose p c)).mgmt.sources[srcPort p].pending,
      a.data = .linkState p .down s.ports[p].planned ∧
      b.data = .linkState p (.up (reported s p planned)) s.ports[p].planned ∧ b.repeats = min 255 (a.repeats + 1) := by
  have routed' : d.mgmt.sources[srcPort p].number ≠ 0 := by rw [h.mgmt, raised_number]; exact routed
  rw [(takeReports_only d).sources _ (srcPort_ne_srcFault p), (takeReports_only _).sources _ (srcPort_ne_srcFault p),
    (choose_chosen p c).sources _ (srcPort_ne_srcProbe p), h.noticed.mgmt, h.speed]
  have first : d.mgmt.sources[srcPort p].pending = joinPending s.timer.cycle (.linkState p .down s.ports[p].planned)
      s.mgmt.sources[srcPort p].pending := by
    rw [h.mgmt, raised, if_neg routed]
    exact (congrArg NoticeSource.pending (upd_same ..) :)
  have second (cycle : CycleNo) (data : NoticeData) : (raised (srcPort p) cycle data d.mgmt).sources[srcPort p].pending =
      joinPending cycle data d.mgmt.sources[srcPort p].pending := by
    rw [raised, if_neg routed']
    exact (congrArg NoticeSource.pending (upd_same ..) :)
  rw [second, first]
  exact joinPending_twice _ _ (by rfl) _

/-- A port's source that is not routed counts one raise more. -/
theorem BothEvents.unrouted (h : BothEvents p planned s d c) (off : s.mgmt.sources[srcPort p].number = 0) :
    (takeReports (choose p c)).mgmt.unrouted = satInc (takeReports d).mgmt.unrouted := by
  obtain ⟨w, choice⟩ := h.choice
  have off' : d.mgmt.sources[srcPort p].number = 0 := by rw [h.mgmt, raised_number]; exact off
  have more : OneUnrouted d (choose p c) := by
    refine ⟨by rw [choice]; exact h.noticed.fault, ?_⟩
    have mgmt : (choose p c).mgmt = c.mgmt := by rw [choice]; rfl
    rw [mgmt, h.noticed.mgmt, raised, if_pos off']
  rw [(takeReports_oneUnrouted more).2]

end

theorem phyReport_other {p : Port} {v : Speed} {s : State} (up : s.ports[p].link ≠ .down) (other : s.ports[p].link ≠ .up v) :
    phyReport p (.up v) s = takeLinkUp p v (takeLinkDown p s) := by
  unfold phyReport
  cases link : s.ports[p].link with
  | down => exact absurd link up
  | up x =>
    have ne : x ≠ v := by rintro rfl; exact other link
    exact if_neg ne

/-- Settles O26. -/
theorem linkUpWakesDormantLegs : Obligations.LinkUpWakesDormantLegs := by
  intro s p planned awake
  have run := exec_linkUp awake p planned
  refine ⟨fun down => ?_, fun same => ?_, fun up other => ?_⟩
  · have report : phyReport p (.up (reported s p planned)) s = takeLinkUp p (reported s p planned) s := by
      unfold phyReport; rw [down]
    rw [report] at run
    exact ⟨_, run, takeLinkUp_came awake.noReports⟩
  · have report : phyReport p (.up (reported s p planned)) s = s := by
      unfold phyReport; rw [same]; exact if_pos rfl
    rw [report, takeReports_none awake.noReports] at run
    exact run
  · have both := bothEvents p planned s
    have taken := takeLinkDown_taken p awake.noReports
    have down := execLinkDown_up awake up
    rw [phyReport_other up other, takeLinkUp_eq, both.speed, reported_planned] at run
    generalize takeLinkDown p s = d at *
    generalize wokenState p planned (reported s p planned) d = c at *
    obtain ⟨w, choice⟩ := both.choice
    have retained (n : StreamNo) := both.awoken.held (·.retained) (fun l => by unfold woken; split <;> rfl) n
    have slots (n : StreamNo) := both.awoken.held (·.slot) (fun l => by unfold woken; split <;> rfl) n
    have streams : (takeReports (choose p c)).streams = c.streams := by rw [takeReports_streams, choice]; rfl
    have egress : (takeReports (choose p c)).egress[p] = { d.egress[p] with openWindow := w } := by
      have same : c.egress = d.egress := (congrArg State.egress both.awoken.rest :)
      rw [takeReports_egress, choice, ← same]
      exact (upd_get ..).trans (if_pos rfl)
    refine ⟨takeReports d, takeReports (choose p c), down, taken, run, both.came, ?_, by rw [egress]; exact both.idle,
      by rw [egress, takeReports_egress], fun n => ⟨?_, ?_⟩, ?_, both.device, ?_, both.joined, both.unrouted⟩
    · rw [takeReports_ports, takeReports_ports, choice]
      show c.ports[p].counters = _
      rw [both.awoken.unit, upUnit_counters]
    · rw [slotOf_congr streams, slotOf_eq, slots]
      exact both.emptied.slots n
    · rw [retainedOf_congr streams, retainedOf_eq, retained]
      exact both.retained n
    · rw [takeReports_buffer, takeReports_buffer, choice]
      exact (congrArg State.buffer both.awoken.rest :)
    · rw [takeReports_legCounters, takeReports_legCounters, choice]
      exact (congrArg State.legCounters both.awoken.rest :)

end Sys2Proof.PortLaws
end

section
/-! SUPPORT. The arbiter of the engine (R85): what it leaves, and what it takes when the two repairs of one port alone wait. -/

namespace Sys2Proof.PortLaws

open Sys2Proof.Machine Sys2Proof.Safety Sys2Proof.Laws Sys2Proof.CellTime

/-! ### What the arbiter leaves -/

/-- Between two states the engine and the stages of the streams changed, and no slot. -/
structure Arbitrated (s t : State) : Prop where
  rest : { t with engine := s.engine, streams := s.streams } = s
  slots : ∀ n e, (t.leg n e).map (·.slot) = (s.leg n e).map (·.slot)

theorem Arbitrated.refl (s : State) : Arbitrated s s := ⟨rfl, fun _ _ => rfl⟩

theorem Arbitrated.trans {s t u : State} (h : Arbitrated s t) (k : Arbitrated t u) : Arbitrated s u :=
  ⟨(congrArg (fun x : State => { x with engine := s.engine, streams := s.streams }) k.rest).trans h.rest,
    fun n e => (k.slots n e).trans (h.slots n e)⟩

theorem modEngine_arbitrated (f : Engine → Engine) (s : State) : Arbitrated s (s.modEngine f) := ⟨rfl, fun _ _ => rfl⟩

theorem modStream_streams (n : StreamNo) (f : Stream → Stream) (s : State) (m : StreamNo) :
    (s.modStream n f).streams[m] = if m = n then s.streams[n].map f else s.streams[m] := by
  have streams : (s.modStream n f).streams = Table.upd s.streams n fun x => x.map f := rfl
  rw [streams, upd_get]

/-- A change of a stream that leaves the slots of its legs. -/
theorem modStream_arbitrated {n : StreamNo} {f : Stream → Stream}
    (h : ∀ x e, ((f x).legs.find? fun l => l.egress == e).map (·.slot) = (x.legs.find? fun l => l.egress == e).map (·.slot))
    (s : State) : Arbitrated s (s.modStream n f) := by
  refine ⟨rfl, fun m e => ?_⟩
  have leg (t : State) : (t.leg m e).map (·.slot) =
      t.streams[m].bind fun x => (x.legs.find? fun l => l.egress == e).map (·.slot) := by
    rw [State.leg]; cases t.streams[m] <;> rfl
  rw [leg, leg, modStream_streams]
  split
  · next same =>
    subst same
    cases s.streams[m] with
    | none => rfl
    | some x => exact h x e
  · rfl

theorem carryRelease_arbitrated (tag : Byte) (n : StreamNo) (s : State) : Arbitrated s (carryRelease tag n s) := by
  refine (modEngine_arbitrated _ s).trans ((modEngine_arbitrated _ _).trans (modStream_arbitrated (fun x e => ?_) _))
  show ((x.legs.map fun l => { l with pendingPl := none }).find? _).map _ = _
  rw [List.find?_map, Option.map_map]
  rfl

theorem arbitrate_arbitrated (fuel : Nat) (s : State) : Arbitrated s (arbitrate fuel s) := by
  induction fuel generalizing s with
  | zero => exact .refl s
  | succ fuel ih =>
    unfold arbitrate
    split
    · exact .refl s
    · split
      · dsimp only
        split
        · exact (modEngine_arbitrated _ s).trans (ih _)
        · exact (modEngine_arbitrated _ s).trans ((modEngine_arbitrated _ _).trans (modEngine_arbitrated _ _))
      · split
        · exact .refl s
        · dsimp only
          split
          · exact ((modEngine_arbitrated _ s).trans (carryRelease_arbitrated _ _ _)).trans (ih _)
          · exact ((modEngine_arbitrated _ s).trans (modStream_arbitrated (f := fun t => { t with stage := .searching }) (fun _ _ => rfl) _)).trans
              ((modEngine_arbitrated _ _).trans (modEngine_arbitrated _ _))

theorem engineTake_arbitrated (s : State) : Arbitrated s (engineTake s) := arbitrate_arbitrated _ s

/-! ### What it takes -/

/-- A busy engine takes nothing. -/
theorem engineTake_busy {s : State} (busy : s.engine.current ≠ none) : engineTake s = s := by
  obtain ⟨fuel, more⟩ : ∃ fuel, 17 + s.engine.waiting.length = fuel + 1 := ⟨16 + s.engine.waiting.length, by omega⟩
  rw [engineTake, more, arbitrate, if_pos (Option.isSome_iff_ne_none.2 busy)]

/-- A free engine with no repair and no entry waiting takes nothing. -/
theorem arbitrate_nothing {s : State} (repairs : s.engine.nextRepair = none) (entries : s.engine.waiting = [])
    (fuel : Nat) : arbitrate fuel s = s := by
  cases fuel with
  | zero => rfl
  | succ fuel =>
    rw [arbitrate, repairs, entries]
    split <;> rfl

/-- A repair with a stream to examine stays current. -/
theorem arbitrate_takes {s : State} (free : s.engine.current = none) {kind : RepairKind} {p : Port}
    (next : s.engine.nextRepair = some (kind, p))
    (work : ((unpost kind p s).repairNext (newRepair kind p (unpost kind p s))) ≠ none) (fuel : Nat) :
    arbitrate (fuel + 1) s = (setCurrent (some (.repair (newRepair kind p (unpost kind p s)))) (unpost kind p s)).modEngine
      fun g => { g with mark := (unpost kind p s).timer.grain } := by
  rw [arbitrate, if_neg (by simp [free]), next]
  exact if_neg (by simp [work])

/-- A repair with no stream to examine ends as it is taken (R89). -/
theorem arbitrate_passes {s : State} (free : s.engine.current = none) {kind : RepairKind} {p : Port}
    (next : s.engine.nextRepair = some (kind, p))
    (idle : ((unpost kind p s).repairNext (newRepair kind p (unpost kind p s))) = none) (fuel : Nat) :
    arbitrate (fuel + 1) s = arbitrate fuel (unpost kind p s) := by
  rw [arbitrate, if_neg (by simp [free]), next]
  exact if_pos (by simp [idle])

/-- Where no other port finds anything, a search finds what one port does. -/
theorem findSome_only {α : Type} {f : Port → Option α} {p : Port} (others : ∀ e, e ≠ p → f e = none) {ps : List Port}
    (mem : p ∈ ps) : ps.findSome? f = f p := by
  induction ps with
  | nil => cases mem
  | cons q ps ih =>
    rw [List.findSome?_cons]
    by_cases h : q = p
    · subst h
      cases found : f q with
      | some x => rfl
      | none =>
        show ps.findSome? f = none
        refine List.findSome?_eq_none_iff.2 fun e _ => ?_
        by_cases h' : e = q
        · rw [h', found]
        · exact others e h'
    · rw [others q h]
      exact ih ((List.mem_cons.1 mem).resolve_left fun e => h e.symm)

theorem nextRepair_only {g : Engine} {p : Port} (others : ∀ e : Port, e ≠ p → g.egressRepairs[e] = false ∧ g.ingressRepairs[e] = false) :
    g.nextRepair = if g.egressRepairs[p] then some (.egress, p) else if g.ingressRepairs[p] then some (.ingress, p) else none := by
  refine findSome_only (p := p) (fun e h => ?_) (List.mem_finRange p)
  obtain ⟨egress, ingress⟩ := others e h
  simp only [egress, ingress, Bool.false_eq_true, if_false]

theorem nextRepair_none {g : Engine} (none : ∀ e : Port, g.egressRepairs[e] = false ∧ g.ingressRepairs[e] = false) :
    g.nextRepair = Option.none := by
  rw [nextRepair_only (p := 0) fun e _ => none e]
  simp only [none, Bool.false_eq_true, if_false]

/-- With nothing waiting the engine takes nothing. -/
theorem engineTake_nothing {s : State} (h : NothingWaits s) : engineTake s = s :=
  arbitrate_nothing (nextRepair_none h.2) h.1 _

/-! ### What a repair examines -/

/-- A repair examines the same in states whose streams agree in stage, key, and the egresses of their legs. -/
theorem repairNext_congr {s t : State} {r r' : RepairRun}
    (streams : ∀ n : StreamNo, t.streams[n].map settledStream = s.streams[n].map settledStream)
    (kind : r'.kind = r.kind) (port : r'.port = r.port) (next : r'.nextStream = r.nextStream) (within : r'.within = r.within) :
    t.repairNext r' = s.repairNext r := by
  have examined : t.nextExamined r.kind r.port r.nextStream = s.nextExamined r.kind r.port r.nextStream := by
    unfold State.nextExamined
    congr 1
    funext n
    have same := streams n
    cases hs : s.streams[n] with
    | none =>
      rw [hs] at same
      rw [Option.map_eq_none_iff.1 same]
    | some x =>
      rw [hs] at same
      obtain ⟨y, hy, equal⟩ := Option.map_eq_some_iff.1 same
      have stage : y.stage = x.stage := (congrArg Stream.stage equal :)
      have key : y.desc = x.desc := (congrArg Stream.desc equal :)
      have any (z : Stream) (p : Port) : (settledStream z).legs.any (fun l => l.egress == p) = z.legs.any fun l => l.egress == p := by
        rw [settledStream, List.any_map]
        rfl
      have legs : y.legs.any (fun l => l.egress == r.port) = x.legs.any fun l => l.egress == r.port := by
        rw [← any, equal, any]
      rw [hy]
      dsimp only
      rw [stage, key, legs]
  have ports (n : StreamNo) : t.legPorts n = s.legPorts n := by
    have view (u : State) : u.legPorts n = ((u.streams[n].map settledStream).map fun z => z.legs.map (·.egress)).getD [] := by
      rw [State.legPorts, Option.map_map]
      congr 2
      funext z
      simp only [Function.comp, settledStream, List.map_map]
      rfl
    rw [view, streams, view]
  unfold State.repairNext
  simp only [kind, port, next, within, examined, ports]

/-! ### Both repairs of one port -/

/-- An engine with both repairs of a port in its internal repair set (R84). -/
def bothPosted (p : Port) (g : Engine) : Engine :=
  { g with egressRepairs := Table.upd g.egressRepairs p fun _ => true, ingressRepairs := Table.upd g.ingressRepairs p fun _ => true }

/-- An engine with the ingress repair of a port in its internal repair set. -/
def ingressPosted (p : Port) (g : Engine) : Engine := { g with ingressRepairs := Table.upd g.ingressRepairs p fun _ => true }

/-- A mark set and cleared again. -/
theorem upd_back {v : Table Bool 8} {p : Port} (off : v[p] = false) :
    Table.upd (Table.upd v p fun _ => true) p (fun _ => false) = v :=
  (upd_upd ..).trans (upd_id off.symm)

theorem unpost_egress {p : Port} {s : State} {g : Engine} (posted : s.engine = bothPosted p g) (off : g.egressRepairs[p] = false) :
    (unpost .egress p s).engine = ingressPosted p g := by
  show ({ s.engine with egressRepairs := Table.upd s.engine.egressRepairs p fun _ => false } : Engine) = _
  rw [posted, ingressPosted]
  simp only [bothPosted, upd_back off]

theorem unpost_ingress {p : Port} {s : State} {g : Engine} (posted : s.engine = ingressPosted p g) (off : g.ingressRepairs[p] = false) :
    (unpost .ingress p s).engine = g := by
  show ({ s.engine with ingressRepairs := Table.upd s.engine.ingressRepairs p fun _ => false } : Engine) = _
  rw [posted]
  simp only [ingressPosted, upd_back off]

/-- What an engine whose free arbiter finds both repairs of a port, and nothing else, takes (R85, R89). -/
structure TakesPosted (p : Port) (g : Engine) (s t : State) : Prop where
  egress : s.repairNext (newRepair .egress p s) ≠ none → t.engine = { ingressPosted p g with
    current := some (.repair (newRepair .egress p s)), mark := s.timer.grain }
  ingress : s.repairNext (newRepair .egress p s) = none → s.repairNext (newRepair .ingress p s) ≠ none → t.engine = { g with
    current := some (.repair (newRepair .ingress p s)), mark := s.timer.grain }
  neither : s.repairNext (newRepair .egress p s) = none → s.repairNext (newRepair .ingress p s) = none → t.engine = g

theorem engineTake_posted {p : Port} {s : State} {g : Engine} (posted : s.engine = bothPosted p g) (free : g.current = none)
    (entries : g.waiting = []) (repairs : ∀ e : Port, g.egressRepairs[e] = false ∧ g.ingressRepairs[e] = false) :
    TakesPosted p g s (engineTake s) := by
  have waiting : s.engine.waiting = [] := by rw [posted]; exact entries
  have idle : s.engine.current = none := by rw [posted]; exact free
  have first : s.engine.nextRepair = some (.egress, p) := by
    rw [posted, nextRepair_only (p := p) fun e h => ?_]
    · exact if_pos (upd_same ..)
    · obtain ⟨egress, ingress⟩ := repairs e
      exact ⟨(upd_other _ _ _ _ h).trans egress, (upd_other _ _ _ _ h).trans ingress⟩
  have run : engineTake s = arbitrate 17 s := by rw [engineTake, waiting]; rfl
  have left := unpost_egress posted (repairs p).1
  have same (u : State) (k : RepairKind) (r : RepairRun) : (unpost k p u).repairNext r = u.repairNext r :=
    repairNext_congr (fun _ => rfl) rfl rfl rfl rfl
  have begins (u : State) (j k : RepairKind) : newRepair k p (unpost j p u) = newRepair k p u := rfl
  rw [run]
  by_cases work : s.repairNext (newRepair .egress p s) = none
  · rw [arbitrate_passes idle first (by rw [same, begins]; exact work)]
    have idle' : (unpost .egress p s).engine.current = none := by rw [left]; exact free
    have next : (unpost .egress p s).engine.nextRepair = some (.ingress, p) := by
      rw [left, nextRepair_only (p := p) fun e h => ?_]
      · refine (if_neg (by simp [ingressPosted, (repairs p).1, -Fin.getElem_fin])).trans (if_pos (upd_same ..))
      · obtain ⟨egress, ingress⟩ := repairs e
        exact ⟨egress, (upd_other _ _ _ _ h).trans ingress⟩
    have left' := unpost_ingress left (repairs p).2
    by_cases work' : s.repairNext (newRepair .ingress p s) = none
    · rw [arbitrate_passes idle' next (by rw [same, begins, same, begins]; exact work'),
        arbitrate_nothing (nextRepair_none (by rw [left']; exact repairs)) (by rw [left']; exact entries)]
      exact ⟨fun h => absurd work h, fun _ h => absurd work' h, fun _ _ => left'⟩
    · rw [arbitrate_takes idle' next (by rw [same, begins, same, begins]; exact work')]
      refine ⟨fun h => absurd work h, fun _ _ => ?_, fun _ h => absurd h work'⟩
      rw [← left']
      rfl
  · rw [arbitrate_takes idle first (by rw [same, begins]; exact work)]
    refine ⟨fun _ => ?_, fun h => absurd h work, fun h => absurd h work⟩
    rw [← left]
    rfl

end Sys2Proof.PortLaws
end

section
/-! SUPPORT. PORT_CONFIG (R25 to R28, R119, R145): its refusals, and what an accepted one does, effect by effect (log entry 34). -/

namespace Sys2Proof.PortLaws

open Sys2Proof.Machine Sys2Proof.Safety Sys2Proof.Laws Sys2Proof.CellTime

/-! ### The refusals (R26) -/

theorem asSpeed_none {v : Nat} (slow : v ≠ 100) (fast : v ≠ 1000) : asSpeed v = none := by
  rw [asSpeed, if_neg slow, if_neg fast]

theorem asSpeed_some {v : Nat} (h : v = 100 ∨ v = 1000) : ∃ x, asSpeed v = some x := by
  rcases h with rfl | rfl
  · exact ⟨.s100, rfl⟩
  · exact ⟨.s1000, rfl⟩

theorem asSpeed_of {v : Nat} {x : Speed} (h : v = (match x with | .s100 => 100 | .s1000 => 1000)) : asSpeed v = some x := by
  cases x <;> subst h <;> rfl

section
variable {q : Request}

theorem runPortConfig_port (wide : 8 ≤ q.b 0) (s : State) : runPortConfig q s = badField q 0 s := by
  rw [runPortConfig, asPort_none wide]

theorem runPortConfig_speed (port : q.b 0 < 8) (none : asSpeed (q.field 1 2) = none) (s : State) :
    runPortConfig q s = badField q 1 s := by
  obtain ⟨p, hp⟩ := exists_asPort port
  rw [runPortConfig, hp, none]

/-- What a PORT_CONFIG does once port and speed are right. -/
def configMarks (q : Request) (p : Port) (x : Speed) (s : State) : State :=
  if !isBit (q.b 3) then badField q 3 s
  else if !isBit (q.b 4) then badField q 4 s
  else if !isBit (q.b 5) then badField q 5 s
  else if s.engine.locked && x != s.ports[p].planned then refuse q .locked s
  else answer q (.portConfigured p (q.settings x (s.currentNeed p)) (x != s.ports[p].planned))
    (applyConfig p (q.settings x (s.currentNeed p)) s)

theorem runPortConfig_eq {p : Port} {x : Speed} (port : asPort (q.b 0) = some p) (speed : asSpeed (q.field 1 2) = some x)
    (s : State) : runPortConfig q s = configMarks q p x s := by
  rw [runPortConfig, port, speed]
  rfl

theorem configMarks_three (bad : 1 < q.b 3) (p : Port) (x : Speed) (s : State) : configMarks q p x s = badField q 3 s :=
  if_pos (by simp [bad])

theorem configMarks_four (three : q.b 3 ≤ 1) (bad : 1 < q.b 4) (p : Port) (x : Speed) (s : State) :
    configMarks q p x s = badField q 4 s :=
  (if_neg (by simp [three])).trans (if_pos (by simp [bad]))

theorem configMarks_five (three : q.b 3 ≤ 1) (four : q.b 4 ≤ 1) (bad : 1 < q.b 5) (p : Port) (x : Speed) (s : State) :
    configMarks q p x s = badField q 5 s :=
  (if_neg (by simp [three])).trans ((if_neg (by simp [four])).trans (if_pos (by simp [bad])))

theorem configMarks_good (three : q.b 3 ≤ 1) (four : q.b 4 ≤ 1) (five : q.b 5 ≤ 1) (p : Port) (x : Speed) (s : State) :
    configMarks q p x s = if s.engine.locked && x != s.ports[p].planned then refuse q .locked s
      else answer q (.portConfigured p (q.settings x (s.currentNeed p)) (x != s.ports[p].planned))
        (applyConfig p (q.settings x (s.currentNeed p)) s) :=
  (if_neg (by simp [three])).trans ((if_neg (by simp [four])).trans (if_neg (by simp [five])))

end

/-! ### The settings and the change of planned speed (R25, R84) -/

/-- The port unit with its new settings, and the flag of a planned speed that the link does not have (R25). -/
def configUnit (c : PortSettings) (u : PortUnit) : PortUnit :=
  if c.planned ≠ u.planned ∧ u.link = .up c.planned.other then flagging .speedMismatch (u.withSettings c) else u.withSettings c

/-- The state with the settings of a port given and a change of planned speed posted. -/
def configPlan (p : Port) (c : PortSettings) (s : State) : State :=
  if c.planned = s.ports[p].planned then s.modPort p (PortUnit.withSettings c)
  else changePlan p (s.modPort p (PortUnit.withSettings c))

/-- The settings are given, and a change of planned speed posts both repairs of the port (R25, R84). -/
structure Replanned (p : Port) (c : PortSettings) (s t : State) : Prop where
  ports : t.ports = Table.upd s.ports p (configUnit c)
  engine : t.engine = if c.planned = s.ports[p].planned then s.engine else bothPosted p s.engine
  rest : { t with ports := s.ports, engine := s.engine } = s

theorem configPlan_replanned (p : Port) (c : PortSettings) (s : State) : Replanned p c s (configPlan p c s) := by
  have upd_congr {f g : PortUnit → PortUnit} (h : f s.ports[p] = g s.ports[p]) : Table.upd s.ports p f = Table.upd s.ports p g := by
    rw [Table.upd, h]; rfl
  unfold configPlan
  by_cases same : c.planned = s.ports[p].planned
  · rw [if_pos same]
    refine ⟨upd_congr ?_, (if_pos same).symm, rfl⟩
    rw [configUnit, if_neg fun h => h.1 same]
  · rw [if_neg same]
    have unit : (s.modPort p (PortUnit.withSettings c)).ports[p] = s.ports[p].withSettings c := (upd_get ..).trans (if_pos rfl)
    have posted : ((s.modPort p (PortUnit.withSettings c)).modEngine (bothPosted p)).ports[p] = s.ports[p].withSettings c := unit
    have link : (s.ports[p].withSettings c).link = s.ports[p].link := rfl
    have planned : (s.ports[p].withSettings c).planned = c.planned := rfl
    have run : changePlan p (s.modPort p (PortUnit.withSettings c)) =
        if s.ports[p].link = .up c.planned.other then
          setFlag p .speedMismatch ((s.modPort p (PortUnit.withSettings c)).modEngine (bothPosted p))
        else (s.modPort p (PortUnit.withSettings c)).modEngine (bothPosted p) := by
      rw [← link, ← planned, ← posted]
      rfl
    rw [run]
    split
    · next mismatch =>
      refine ⟨?_, (if_neg same).symm, rfl⟩
      rw [setFlag_ports]
      refine (upd_upd s.ports p (PortUnit.withSettings c) (flagging .speedMismatch)).trans (upd_congr ?_)
      rw [configUnit, if_pos ⟨same, mismatch⟩]
    · next matching =>
      refine ⟨upd_congr ?_, (if_neg same).symm, rfl⟩
      rw [configUnit, if_neg fun h => matching h.2]

/-! ### Arc-exposed turned on (R145) -/

/-- Arc-exposed turned on at a port during an arc, or not (R145, R147). -/
structure ExposureTaken (p : Port) (during : Bool) (s t : State) : Prop where
  ports : t.ports = if during = true ∧ s.noise[p].state ≠ .disturbed then Table.upd s.ports p entering else s.ports
  noise : t.noise = if during = false then s.noise else
    if s.noise[p].state = .disturbed then Table.upd s.noise p fun m => { m with quiet := 0 }
    else Table.upd s.noise p (changed .disturbed)
  mgmt : t.mgmt = if during = true ∧ s.noise[p].state ≠ .disturbed then
      raised (srcPort p) s.timer.cycle (.noiseState p .disturbed s.noise[p].state .exposedSet s.noise[p].count s.phase) s.mgmt
    else s.mgmt
  rest : { t with ports := s.ports, noise := s.noise, mgmt := s.mgmt } = s

theorem ExposureTaken.none (p : Port) (s : State) : ExposureTaken p false s s :=
  ⟨(if_neg (by simp)).symm, (if_pos rfl).symm, (if_neg (by simp)).symm, rfl⟩

theorem exposedOn_taken (p : Port) (s : State) : ExposureTaken p s.arc.filter.accepted s (exposedOn p s) := by
  unfold exposedOn
  by_cases arc : s.arc.filter.accepted = true
  · rw [if_pos arc, arc]
    by_cases noisy : s.noise[p].state = .disturbed
    · rw [if_pos noisy]
      exact ⟨(if_neg fun h => h.2 noisy).symm, ((if_neg (by simp)).trans (if_pos noisy)).symm, (if_neg fun h => h.2 noisy).symm, rfl⟩
    · rw [if_neg noisy]
      have change := noiseChangeNow_changed p .disturbed .exposedSet s
      exact ⟨change.ports.trans ((if_pos rfl).trans (if_pos ⟨rfl, noisy⟩).symm),
        change.noise.trans ((if_neg (by simp)).trans (if_neg noisy)).symm, change.mgmt.trans (if_pos ⟨rfl, noisy⟩).symm,
        (congrArg (fun x : State => { x with ports := s.ports }) change.rest :)⟩
  · rw [if_neg arc, Bool.eq_false_iff.2 arc]
    exact .none p s

/-! ### The effects one after another -/

/-- The state with arc-exposed turned on, where the request does (R145). -/
def configExposed (p : Port) (c : PortSettings) (old : PortUnit) (s : State) : State :=
  if c.arcExposed && !old.arcExposed then exposedOn p s else s

/-- The state in which the egress has chosen, where the request turns HOLD off (R119). -/
def configChosen (p : Port) (c : PortSettings) (old : PortUnit) (s : State) : State :=
  if old.hold && !c.hold then choose p s else s

theorem applyConfig_eq (p : Port) (c : PortSettings) (s : State) : applyConfig p c s =
    engineTake (configChosen p c s.ports[p] (configExposed p c s.ports[p] (configPlan p c s))) := rfl

/-- The effects of an accepted PORT_CONFIG, in the order of log entry 34: the state after the settings and the plan, after the
exposure, after the egress's choice, and after the engine took what it can. -/
structure Configured (p : Port) (c : PortSettings) (s a b d t : State) : Prop where
  plan : Replanned p c s a
  exposure : ExposureTaken p (c.arcExposed && !s.ports[p].arcExposed && s.arc.filter.accepted) a b
  chosen : Chosen p b d
  choice : (s.ports[p].hold && !c.hold) = true → d = choose p b
  still : (s.ports[p].hold && !c.hold) = false → d = b
  engine : t = engineTake d

theorem applyConfig_configured (p : Port) (c : PortSettings) (s : State) :
    ∃ a b d, Configured p c s a b d (applyConfig p c s) := by
  have plan := configPlan_replanned p c s
  refine ⟨configPlan p c s, configExposed p c s.ports[p] (configPlan p c s),
    configChosen p c s.ports[p] (configExposed p c s.ports[p] (configPlan p c s)), plan, ?_, ?_, fun on => if_pos on,
    fun off => if_neg (by rw [off]; decide), applyConfig_eq p c s⟩
  · have arc : (configPlan p c s).arc = s.arc := (congrArg State.arc plan.rest :)
    have taken := exposedOn_taken p (configPlan p c s)
    rw [arc] at taken
    unfold configExposed
    cases c.arcExposed && !s.ports[p].arcExposed with
    | true => rw [if_pos rfl, Bool.true_and]; exact taken
    | false => rw [if_neg (by simp), Bool.false_and]; exact .none p _
  · unfold configChosen
    split
    · exact choose_chosen p _
    · exact .refl p _

end Sys2Proof.PortLaws
end

section
/-! PORT_CONFIG as the statement puts it, and the statement on it. -/

namespace Sys2Proof.PortLaws

open Sys2Proof.Machine Sys2Proof.Safety Sys2Proof.Laws Sys2Proof.CellTime

/-! ### What the request leaves of the port units -/

theorem configUnit_cases (c : PortSettings) (u : PortUnit) : configUnit c u =
    { u.withSettings c with flags := u.flags |||
        (if c.planned ≠ u.planned ∧ u.link = .up c.planned.other then Flag.speedMismatch.bit else 0) &&& c.flagMask } := by
  unfold configUnit
  split
  · rfl
  · have same : u.flags ||| (0 : BitVec 6) &&& c.flagMask = u.flags := by simp
    rw [same]
    rfl

section
variable {p : Port} {c : PortSettings} {s a b d t : State}

theorem Configured.arbitrated (h : Configured p c s a b d t) : Arbitrated d t := by
  rw [h.engine]; exact engineTake_arbitrated d

theorem Configured.ports (h : Configured p c s a b d t) : t.ports = d.ports := (congrArg State.ports h.arbitrated.rest :)

theorem Configured.planned_unit (h : Configured p c s a b d t) : a.ports[p] = configUnit c s.ports[p] := by
  rw [h.plan.ports, upd_get, if_pos rfl]

/-- The port enters DISTURBED as the request turns arc-exposed on (R145). -/
def entersDisturbed (p : Port) (c : PortSettings) (s : State) : Bool :=
  (c.arcExposed && !s.ports[p].arcExposed && s.arc.filter.accepted) && decide (s.noise[p].state ≠ .disturbed)

theorem Configured.exposed_ports (h : Configured p c s a b d t) :
    b.ports = if entersDisturbed p c s = true then Table.upd a.ports p entering else a.ports := by
  have noise : a.noise = s.noise := (congrArg State.noise h.plan.rest :)
  have ports := h.exposure.ports
  rw [noise] at ports
  simpa only [entersDisturbed, Bool.and_eq_true, decide_eq_true_eq] using ports

theorem Configured.exposed_unit (h : Configured p c s a b d t) :
    b.ports[p] = if entersDisturbed p c s = true then entering (configUnit c s.ports[p]) else configUnit c s.ports[p] := by
  rw [h.exposed_ports, ← h.planned_unit]
  split
  · exact (upd_get ..).trans (if_pos rfl)
  · rfl

/-- All of the port unit but its counters and flags is as the request sets it. -/
theorem Configured.unit (h : Configured p c s a b d t) {α : Type} (view : PortUnit → α)
    (apart : ∀ w x y, view { w with counters := x, flags := y } = view w) : view t.ports[p] = view (s.ports[p].withSettings c) := by
  have entered (u : PortUnit) : view (entering u) = view u := apart u (entering u).counters (entering u).flags
  have config : view (configUnit c s.ports[p]) = view (s.ports[p].withSettings c) := by
    rw [configUnit_cases]
    exact apart _ _ _
  have chosen : view d.ports[p] = view b.ports[p] := (apart _ _ _).symm.trans (congrArg view h.chosen.unit)
  rw [h.ports, chosen, h.exposed_unit]
  split
  · exact (entered _).trans config
  · exact config

/-- The other ports stand. -/
theorem Configured.others (h : Configured p c s a b d t) {e : Port} (other : e ≠ p) : t.ports[e] = s.ports[e] := by
  have planned : a.ports[e] = s.ports[e] := by rw [h.plan.ports, upd_get, if_neg other]
  rw [h.ports, (h.chosen.others e other).1, h.exposed_ports, ← planned]
  split
  · exact (upd_get ..).trans (if_neg other)
  · rfl

/-- The flags that the request sets, by the new mask (R25, R147). -/
theorem Configured.flags (h : Configured p c s a b d t) {k : Nat} (other : k ≠ 3) : t.ports[p].flags.getLsbD k =
    (s.ports[p].flags.getLsbD k ||
      (decide (c.planned ≠ s.ports[p].planned ∧ s.ports[p].link = .up c.planned.other) && k == 1 && c.flagMask.getLsbD k) ||
      (entersDisturbed p c s && k == 2 && c.flagMask.getLsbD k)) := by
  have mismatch : Flag.speedMismatch.bit.getLsbD k = (k == 1) := by
    rw [show Flag.speedMismatch.bit = BitVec.twoPow 6 1 from rfl, BitVec.getLsbD_twoPow]
    simp only [Nat.reduceLT, decide_true, Bool.true_and, eq_comm]
    rfl
  have disturbed : Flag.noiseDisturbed.bit.getLsbD k = (k == 2) := by
    rw [show Flag.noiseDisturbed.bit = BitVec.twoPow 6 2 from rfl, BitVec.getLsbD_twoPow]
    simp only [Nat.reduceLT, decide_true, Bool.true_and, eq_comm]
    rfl
  have config : (configUnit c s.ports[p]).flags.getLsbD k = (s.ports[p].flags.getLsbD k ||
      (decide (c.planned ≠ s.ports[p].planned ∧ s.ports[p].link = .up c.planned.other) && k == 1 && c.flagMask.getLsbD k)) := by
    rw [configUnit_cases]
    simp only [BitVec.getLsbD_or, BitVec.getLsbD_and, getLsbD_ite, mismatch]
  have mask : (configUnit c s.ports[p]).flagMask = c.flagMask := by rw [configUnit_cases]; rfl
  rw [h.ports, h.chosen.flags k other, h.exposed_unit, ← config]
  split
  · next yes =>
    rw [yes]
    refine (flags_getLsbD .noiseDisturbed _ _ k).trans ?_
    rw [disturbed, mask, Bool.true_and]
  · next no => rw [Bool.eq_false_iff.2 no, Bool.false_and, Bool.false_and, Bool.or_false]

/-- The counters of the port before the egress chooses: those before, and the entry of DISTURBED (R147). -/
theorem Configured.exposed_counters (h : Configured p c s a b d t) : b.ports[p].counters =
    if entersDisturbed p c s = true then Table.upd s.ports[p].counters 19 satInc else s.ports[p].counters := by
  have config : (configUnit c s.ports[p]).counters = s.ports[p].counters := by rw [configUnit_cases]; rfl
  rw [h.exposed_unit, ← config]
  split <;> rfl

/-! ### The blocks that stand -/

theorem Configured.timer (h : Configured p c s a b d t) : t.timer = s.timer :=
  (congrArg State.timer h.arbitrated.rest :).trans ((congrArg State.timer h.chosen.rest :).trans
    ((congrArg State.timer h.exposure.rest :).trans (congrArg State.timer h.plan.rest :)))

theorem Configured.addr (h : Configured p c s a b d t) : t.addr = s.addr :=
  (congrArg State.addr h.arbitrated.rest :).trans ((congrArg State.addr h.chosen.rest :).trans
    ((congrArg State.addr h.exposure.rest :).trans (congrArg State.addr h.plan.rest :)))

theorem Configured.noise (h : Configured p c s a b d t) : t.noise =
    if (c.arcExposed && !s.ports[p].arcExposed && s.arc.filter.accepted) = false then s.noise else
      if s.noise[p].state = .disturbed then Table.upd s.noise p fun m => { m with quiet := 0 }
      else Table.upd s.noise p (changed .disturbed) := by
  have first : a.noise = s.noise := (congrArg State.noise h.plan.rest :)
  have noise := h.exposure.noise
  rw [first] at noise
  rw [← noise]
  exact (congrArg State.noise h.arbitrated.rest :).trans (congrArg State.noise h.chosen.rest :)

theorem Configured.noise_others (h : Configured p c s a b d t) {e : Port} (other : e ≠ p) : t.noise[e] = s.noise[e] := by
  rw [h.noise]
  split
  · rfl
  · split
    · exact upd_other _ _ _ _ other
    · exact upd_other _ _ _ _ other

/-- Arc-exposed not turned on during an arc leaves the monitor. -/
theorem Configured.noise_calm (h : Configured p c s a b d t)
    (off : ¬(c.arcExposed && !s.ports[p].arcExposed && s.arc.filter.accepted) = true) : t.noise[p] = s.noise[p] := by
  rw [h.noise, if_pos (Bool.eq_false_iff.2 off)]

/-- A port that is DISTURBED already has its quiet streak at 0 (R145). -/
theorem Configured.noise_quiet (h : Configured p c s a b d t)
    (on : (c.arcExposed && !s.ports[p].arcExposed && s.arc.filter.accepted) = true) (noisy : s.noise[p].state = .disturbed) :
    t.noise[p] = { s.noise[p] with quiet := 0 } := by
  rw [h.noise, if_neg (by rw [on]; decide), if_pos noisy]
  exact (upd_get ..).trans (if_pos rfl)

/-- A port that enters DISTURBED (R145, R147). -/
theorem Configured.noise_enters (h : Configured p c s a b d t) (enters : entersDisturbed p c s = true) :
    t.noise[p] = { s.noise[p] with state := .disturbed, quiet := 0, calm := 0 } := by
  rw [entersDisturbed, Bool.and_eq_true, decide_eq_true_eq] at enters
  rw [h.noise, if_neg (by rw [enters.1]; decide), if_neg enters.2]
  exact (upd_get ..).trans (if_pos rfl)

theorem Configured.counter_enters (h : Configured p c s a b d t) (enters : entersDisturbed p c s = true) :
    t.ports[p].counters[(19 : Fin 21)] = satInc s.ports[p].counters[(19 : Fin 21)] := by
  rw [h.ports, h.chosen.counters 19 (by decide) (by decide) (by decide), h.exposed_counters, if_pos enters]
  exact upd_same ..

/-- The entry of DISTURBED sets its flag, where the new mask has it (R36, R147). -/
theorem Configured.flag_enters (h : Configured p c s a b d t) (enters : entersDisturbed p c s = true) :
    t.ports[p].flags.getLsbD 2 = (s.ports[p].flags.getLsbD 2 || c.flagMask.getLsbD 2) := by
  rw [h.flags (by decide), enters]
  simp

/-- A change of planned speed sets SPEED_MISMATCH where the link is UP at the old one (R25). -/
theorem Configured.flag_mismatch (h : Configured p c s a b d t) (change : c.planned ≠ s.ports[p].planned) :
    t.ports[p].flags.getLsbD 1 = (s.ports[p].flags.getLsbD 1 ||
      (decide (s.ports[p].link = .up s.ports[p].planned) && c.flagMask.getLsbD 1)) := by
  have other : c.planned.other = s.ports[p].planned := by
    generalize c.planned = x, s.ports[p].planned = y at change
    revert change
    cases x <;> cases y <;> decide
  rw [h.flags (by decide), other]
  simp [change, -Fin.getElem_fin]

/-- The notice of the entry of DISTURBED is pending (R147). -/
theorem Configured.notice (h : Configured p c s a b d t) (enters : entersDisturbed p c s = true)
    (routed : s.mgmt.sources[srcPort p].number ≠ 0) : ∃ n ∈ t.mgmt.sources[srcPort p].pending, n.cycle = s.timer.cycle ∧
      n.data = .noiseState p .disturbed s.noise[p].state .exposedSet s.noise[p].count s.phase := by
  have noise : a.noise = s.noise := (congrArg State.noise h.plan.rest :)
  have timer : a.timer = s.timer := (congrArg State.timer h.plan.rest :)
  have mgmt : a.mgmt = s.mgmt := (congrArg State.mgmt h.plan.rest :)
  have phase : a.phase = s.phase := by rw [State.phase, timer]; rfl
  have raises := h.exposure.mgmt
  simp only [entersDisturbed, Bool.and_eq_true, decide_eq_true_eq] at enters
  rw [noise, if_pos ⟨by simpa using enters.1, enters.2⟩, timer, mgmt, phase] at raises
  have last : t.mgmt = d.mgmt := (congrArg State.mgmt h.arbitrated.rest :)
  rw [last, h.chosen.sources _ (srcPort_ne_srcProbe p), raises]
  exact raised_mem routed

end

end Sys2Proof.PortLaws
end

section
/-! SUPPORT. PORT_CONFIG: what the engine and the egress make of it, and the statement on it. -/

namespace Sys2Proof.PortLaws

open Sys2Proof.Machine Sys2Proof.Safety Sys2Proof.Laws Sys2Proof.CellTime

section
variable {p : Port} {c : PortSettings} {s a b d t : State}

/-! ### The egress (R119) -/

/-- The egress chooses from what it could choose from before the request. -/
theorem Configured.alike (h : Configured p c s a b d t) : Alike p s b := by
  have timelines : a.engine.timelines = s.engine.timelines := by rw [h.plan.engine]; split <;> rfl
  have commitDue : a.engine.commitDue = s.engine.commitDue := by rw [h.plan.engine]; split <;> rfl
  have streams : b.streams = s.streams :=
    (congrArg State.streams h.exposure.rest :).trans (congrArg State.streams h.plan.rest :)
  have engine : b.engine = a.engine := (congrArg State.engine h.exposure.rest :)
  have link : (configUnit c s.ports[p]).link = s.ports[p].link := by rw [configUnit_cases]; rfl
  exact
    { timer := (congrArg State.timer h.exposure.rest :).trans (congrArg State.timer h.plan.rest :)
      commitDue := by rw [engine, commitDue]
      timelines := by rw [engine, timelines]
      egress := (congrArg State.egress h.exposure.rest :).trans (congrArg State.egress h.plan.rest :)
      buffer := (congrArg State.buffer h.exposure.rest :).trans (congrArg State.buffer h.plan.rest :)
      link := by rw [h.exposed_unit, ← link]; split <;> rfl
      descs := fun n => by rw [streams]
      slots := fun n => by rw [leg_congr (bare_of_streams streams n)] }

theorem Configured.exposed_hold (h : Configured p c s a b d t) : b.ports[p].hold = c.hold := by
  have hold : (configUnit c s.ports[p]).hold = c.hold := by rw [configUnit_cases]; rfl
  rw [h.exposed_unit, ← hold]
  split <;> rfl

/-- HOLD turned off lets the best-effort frame start that may (R119, R116). -/
theorem Configured.bestEffort (h : Configured p c s a b d t) (held : s.ports[p].hold = true) (free : c.hold = false)
    {k : ClassNo} {r : FrameRecord} {queued : List FrameId} {v : Speed} (start : BestEffortStart s p k r queued v) :
    t.egress[p].wire = some ⟨r.id, s.timer.grain, .bestEffort⟩ ∧ t.egress[p].queues[k] = queued ∧
      t.ports[p].counters[(13 : Fin 21)] = satInc s.ports[p].counters[(13 : Fin 21)] := by
  have run := h.choice (by rw [held, free]; rfl)
  rw [choose_bestEffort (h.alike.bestEffort start) (h.exposed_hold.trans free)] at run
  have egress : t.egress = d.egress := (congrArg State.egress h.arbitrated.rest :)
  have here := startBestEffort_egress p k r.id b
  rw [← run, ← egress] at here
  have same : b.egress = s.egress := h.alike.egress
  refine ⟨?_, ?_, ?_⟩
  · rw [here, h.alike.timer]
  · rw [here, same]
    exact (upd_same ..).trans (congrArg List.tail start.queue)
  · have counters : b.ports[p].counters[(13 : Fin 21)] = s.ports[p].counters[(13 : Fin 21)] := by
      rw [h.exposed_counters]
      split
      · exact upd_other _ _ _ _ (by decide)
      · rfl
    rw [h.ports, run, startBestEffort_unit, ← counters]
    exact upd_same ..

/-- HOLD turned off lets the motion frame start that may (R119, R105). -/
theorem Configured.motion (h : Configured p c s a b d t) (held : s.ports[p].hold = true) (free : c.hold = false)
    {o : OpenWindow} {y : Stream} {l : Leg} {r : FrameRecord} {slot : List FrameId} {v : Speed}
    (start : MotionStart s p o y l r slot v) :
    t.egress[p].wire = some ⟨r.id, s.timer.grain, .motion o.window.stream (y.desc.twin != .off)⟩ ∧
      t.slotOf o.window.stream p = slot ∧
      t.ports[p].counters[(11 : Fin 21)] = satInc s.ports[p].counters[(11 : Fin 21)] := by
  obtain ⟨x, m, desc, start'⟩ := h.alike.motion start
  have run := h.choice (by rw [held, free]; rfl)
  rw [choose_motion start' (h.exposed_hold.trans free)] at run
  have started := startMotion_started p v.factor o x.desc r b
  rw [← run] at started
  have egress : t.egress = d.egress := (congrArg State.egress h.arbitrated.rest :)
  refine ⟨?_, ?_, ?_⟩
  · rw [egress, started.egress, h.alike.timer, desc]
  · have before : b.slotOf o.window.stream p = r.id :: slot := by
      rw [slotOf_eq, start'.leg]
      exact start'.slot
    rw [slotOf_eq, h.arbitrated.slots, ← slotOf_eq, started.slot, before]
    rfl
  · have counters : b.ports[p].counters[(11 : Fin 21)] = s.ports[p].counters[(11 : Fin 21)] := by
      rw [h.exposed_counters]
      split
      · exact upd_other _ _ _ _ (by decide)
      · rfl
    rw [h.ports, started.unit, ← counters]
    exact upd_same ..

/-! ### The engine (R84, R85) -/

/-- A request that changes neither plan, HOLD nor arc-exposed leaves all but the port unit, where the engine has nothing to
take. -/
theorem Configured.quiet (h : Configured p c s a b d t) (plan : c.planned = s.ports[p].planned)
    (hold : (s.ports[p].hold && !c.hold) = false) (exposed : (c.arcExposed && !s.ports[p].arcExposed) = false)
    (rests : s.engine.current ≠ none ∨ NothingWaits s) :
    { t with ports := s.ports } = s ∧ t.ports[p] = s.ports[p].withSettings c := by
  have quiet : b = a := by
    have exposure := h.exposure
    rw [exposed, Bool.false_and] at exposure
    have ports : b.ports = a.ports := exposure.ports.trans (if_neg (by simp))
    have noise : b.noise = a.noise := exposure.noise.trans (if_pos rfl)
    have mgmt : b.mgmt = a.mgmt := exposure.mgmt.trans (if_neg (by simp))
    have rest := exposure.rest
    rw [← ports, ← noise, ← mgmt] at rest
    exact rest
  have engine : a.engine = s.engine := h.plan.engine.trans (if_pos plan)
  have idle : engineTake a = a := by
    rcases rests with busy | nothing
    · exact engineTake_busy (by rw [engine]; exact busy)
    · exact engineTake_nothing (by unfold NothingWaits; rw [engine]; exact nothing)
  have last : t = a := by rw [h.engine, h.still hold, quiet, idle]
  rw [last]
  refine ⟨?_, ?_⟩
  · have rest := h.plan.rest
    rw [← engine] at rest
    exact rest
  · rw [h.planned_unit, configUnit, if_neg fun k => k.1 plan]

theorem Configured.chosen_engine (h : Configured p c s a b d t) (plan : c.planned ≠ s.ports[p].planned) :
    d.engine = bothPosted p s.engine :=
  (congrArg State.engine h.chosen.rest :).trans ((congrArg State.engine h.exposure.rest :).trans
    (h.plan.engine.trans (if_neg plan)))

/-- A busy engine keeps both repairs posted (R84). -/
theorem Configured.busy (h : Configured p c s a b d t) (plan : c.planned ≠ s.ports[p].planned) (busy : s.engine.current ≠ none) :
    t.engine = bothPosted p s.engine := by
  have engine := h.chosen_engine plan
  rw [h.engine, engineTake_busy (by rw [engine]; exact busy), engine]

/-- The streams that a repair examines are those before the request. -/
theorem Configured.streams (h : Configured p c s a b d t) (n : StreamNo) :
    d.streams[n].map settledStream = s.streams[n].map settledStream := by
  have streams : b.streams = s.streams :=
    (congrArg State.streams h.exposure.rest :).trans (congrArg State.streams h.plan.rest :)
  rw [h.chosen.streams, streams]

/-- A repair that begins after the request. -/
def begun (p : Port) (s t : State) (k : RepairKind) : RepairRun :=
  { kind := k, port := p, planM := s.timer.nextN.getD s.timer.n * 1000, speeds := t.ports.map (·.planned)
    nextStream := 0, within := none, aside := [], results := [], examined := false }

theorem Configured.begins (h : Configured p c s a b d t) (k : RepairKind) : newRepair k p d = begun p s t k := by
  have timer : d.timer = s.timer := (congrArg State.timer h.arbitrated.rest :).symm.trans h.timer
  rw [newRepair, begun, State.planM, State.plannedSpeeds, timer, h.ports]

/-- A free engine takes the repairs, the egress repair first (R85, R89). -/
theorem Configured.takes (h : Configured p c s a b d t) (plan : c.planned ≠ s.ports[p].planned) (free : s.engine.current = none)
    (nothing : NothingWaits s) :
    (s.repairNext (begun p s t .egress) ≠ none → t.engine = { ingressPosted p s.engine with
      current := some (.repair (begun p s t .egress)), mark := s.timer.grain }) ∧
    (s.repairNext (begun p s t .egress) = none → s.repairNext (begun p s t .ingress) ≠ none → t.engine = { s.engine with
      current := some (.repair (begun p s t .ingress)), mark := s.timer.grain }) ∧
    (s.repairNext (begun p s t .egress) = none → s.repairNext (begun p s t .ingress) = none → t.engine = s.engine) := by
  have takes := engineTake_posted (h.chosen_engine plan) free nothing.1 nothing.2
  have same (k : RepairKind) : d.repairNext (newRepair k p d) = s.repairNext (begun p s t k) := by
    rw [h.begins]
    exact repairNext_congr h.streams rfl rfl rfl rfl
  have timer : d.timer = s.timer := (congrArg State.timer h.arbitrated.rest :).symm.trans h.timer
  rw [← h.engine] at takes
  obtain ⟨egress, ingress, neither⟩ := takes
  rw [same, timer, h.begins] at egress
  rw [same, same, timer, h.begins] at ingress
  rw [same, same] at neither
  exact ⟨egress, ingress, neither⟩

end

/-! ### The request and its reply -/

/-- The settings that a request gives a port. -/
abbrev given (q : Request) (p : Port) (x : Speed) (s : State) : PortSettings := q.settings x (s.currentNeed p)

/-- The state after an accepted PORT_CONFIG. -/
def portConfigured (q : Request) (rest : List Request) (p : Port) (x : Speed) (s : State) : State :=
  takeReports (answer q (.portConfigured p (given q p x s) (x != s.ports[p].planned)) (applyConfig p (given q p x s) (took rest s)))

section
variable {s : State} {q : Request} {rest : List Request}

theorem exec_portConfig (offer : Offers s q rest) (kind : q.kind = 0x06) (len : q.payload.length = 18) {p : Port} {x : Speed}
    (port : q.b 0 = p.val) (speed : asSpeed (q.field 1 2) = some x) (three : q.b 3 ≤ 1) (four : q.b 4 ≤ 1) (five : q.b 5 ≤ 1)
    (open_ : s.engine.locked = false ∨ x = s.ports[p].planned) :
    exec .portConfig s = .next (portConfigured q rest p x s) := by
  have run := request_run offer kind len runPortConfig
  have marks : configMarks q p x (took rest s) = answer q (.portConfigured p (given q p x s) (x != s.ports[p].planned))
      (applyConfig p (given q p x s) (took rest s)) := by
    refine (configMarks_good three four five p x _).trans (if_neg ?_)
    show ¬((s.engine.locked && x != s.ports[p].planned) = true)
    rcases open_ with free | same
    · simp [free]
    · simp [same]
  rw [runPortConfig_eq (asPort_of port) speed, marks] at run
  exact run

theorem exec_portConfig_badField (offer : Offers s q rest) (kind : q.kind = 0x06) (len : q.payload.length = 18) {offset : Nat}
    (refused : runPortConfig q (took rest s) = badField q offset (took rest s)) :
    exec .portConfig s = .next (replied q rest (.badField offset) s) :=
  request_badField offer kind len refused

theorem exec_portConfig_mark (offer : Offers s q rest) (kind : q.kind = 0x06) (len : q.payload.length = 18) {offset : Nat}
    (port : q.b 0 < 8) (speed : q.field 1 2 = 100 ∨ q.field 1 2 = 1000)
    (refused : ∀ p x t, configMarks q p x t = badField q offset t) :
    exec .portConfig s = .next (replied q rest (.badField offset) s) := by
  obtain ⟨p, hp⟩ := exists_asPort port
  obtain ⟨x, hx⟩ := asSpeed_some speed
  exact exec_portConfig_badField offer kind len ((runPortConfig_eq hp hx _).trans (refused p x _))

theorem exec_portConfig_locked (offer : Offers s q rest) (kind : q.kind = 0x06) (len : q.payload.length = 18) {p : Port} {x : Speed}
    (port : q.b 0 = p.val) (speed : asSpeed (q.field 1 2) = some x) (three : q.b 3 ≤ 1) (four : q.b 4 ≤ 1) (five : q.b 5 ≤ 1)
    (locked : s.engine.locked = true) (change : x ≠ s.ports[p].planned) :
    exec .portConfig s = .next (replied q rest (.plain .locked) s) := by
  have refused : runPortConfig q (took rest s) = refuse q .locked (took rest s) := by
    rw [runPortConfig_eq (asPort_of port) speed, configMarks_good three four five]
    refine if_pos ?_
    show (s.engine.locked && x != s.ports[p].planned) = true
    rw [locked, Bool.true_and]
    exact bne_iff_ne.2 change
  have run := request_next (run := runPortConfig) offer kind len (by rw [refused]; exact offer.noReports)
  rw [refused] at run
  exact run

end

/-- What the reply and the reports leave of an accepted request's effects. -/
structure Answered (q : Request) (u t : State) (r : Reply) : Prop where
  only : FaultUnitOnly (answer q r u) t
  ports : t.ports = u.ports
  outbound : t.mgmt.outbound = u.mgmt.outbound ++ [⟨u.mgmt.serial, .reply (replyKind q.kind) q.tag r⟩]
  inbound : t.mgmt.inbound = u.mgmt.inbound
  sources : ∀ p : Port, t.mgmt.sources[srcPort p] = u.mgmt.sources[srcPort p]
  silent : u.fault.inbox = [] → t = answer q r u

theorem answered (q : Request) (u : State) (r : Reply) : Answered q u (takeReports (answer q r u)) r where
  only := takeReports_only _
  ports := takeReports_ports _
  outbound := (takeReports_keeps _).outbound
  inbound := (takeReports_keeps _).inbound
  sources p := (takeReports_only _).sources _ (srcPort_ne_srcFault p)
  silent quiet := takeReports_none (s := answer q r u) quiet

/-- An event in which a request is taken shows every egress the same. -/
theorem took_alike (e : Port) (rest : List Request) (s : State) : Alike e s (took rest s) :=
  ⟨rfl, rfl, rfl, rfl, rfl, rfl, fun _ => rfl, fun _ => rfl⟩

/-! ### The clamps (R27) -/

theorem clamp_byte {v : Nat} (small : v < 256) : clamp 1 255 v = max 1 v := by
  rw [clamp, Nat.min_eq_right (by omega)]

/-- The settings that a request gives, as the statement puts them. -/
theorem given_settings (q : Request) (p : Port) (x : Speed) (s : State) : given q p x s =
    { planned := x, ingressEnable := q.b 3 == 1, hold := q.b 4 == 1, arcExposed := q.b 5 == 1
      defaultClass := min 3 (q.b 6), beLimit := max 64 (min 1536 (q.field 7 2)), mu := min 255 (q.field 9 2)
      tau := min 4095 (q.field 11 2)
      kappa := max (max 10 (min 90 (q.b 13)))
        (ceilDiv (100 * max (reservedTime s.egress[p].timeline) (reservedTime s.engine.timelines[p])) (s.timer.n * 1000))
      thetaW := max 1 (q.b 14), thetaD := max (max 1 (q.b 15)) (max 1 (q.b 14)), coolDown := max 1 (q.b 16)
      flagMask := BitVec.ofNat 6 (q.b 17) } := by
  have low (v w : Nat) : clamp 0 v w = min v w := Nat.zero_max _
  simp only [given, Request.settings, clamp_byte (Request.b_lt q _), low]
  rfl

/-! ### The statement -/

theorem bit_off {v : Nat} (h : v = 0) : (v == 1) = false := by subst h; rfl

theorem bit_on {v : Nat} (h : v = 1) : (v == 1) = true := by subst h; rfl

/-- What an accepted PORT_CONFIG does, from the state with the request taken. -/
theorem portConfigured_configured (q : Request) (rest : List Request) (p : Port) (x : Speed) (s : State) :
    ∃ a b d u, Configured p (given q p x s) (took rest s) a b d u ∧ Kept (took rest s) u ∧
      Answered q u (portConfigured q rest p x s) (.portConfigured p (given q p x s) (x != s.ports[p].planned)) := by
  obtain ⟨a, b, d, h⟩ := applyConfig_configured p (given q p x s) (took rest s)
  exact ⟨a, b, d, _, h, applyConfig_keeps p (given q p x s) _, answered q _ _⟩

/-- A request turns arc-exposed on during an arc (R145). -/
theorem during_iff (q : Request) (p : Port) (x : Speed) (s : State) :
    ((given q p x s).arcExposed && !s.ports[p].arcExposed && s.arc.filter.accepted) = true ↔
      s.ports[p].arcExposed = false ∧ q.b 5 = 1 ∧ s.arc.filter.accepted = true := by
  have given : (given q p x s).arcExposed = (q.b 5 == 1) := rfl
  rw [given]
  simp only [Bool.and_eq_true, beq_iff_eq, Bool.not_eq_true']
  tauto

/-- A request that turns arc-exposed on during an arc takes a port to DISTURBED that was not (R145). -/
theorem enters_of {q : Request} {p : Port} {x : Speed} {s : State}
    (arc : s.ports[p].arcExposed = false ∧ q.b 5 = 1 ∧ s.arc.filter.accepted = true) (still : s.noise[p].state ≠ .disturbed) :
    entersDisturbed p (given q p x s) s = true := by
  rw [entersDisturbed, (during_iff q p x s).2 arc, Bool.true_and]
  exact decide_eq_true still

theorem speed_bne (x y : Speed) : (x != y) = decide (x ≠ y) := by
  cases x <;> cases y <;> rfl

end Sys2Proof.PortLaws
end

section
/-! The statement on PORT_CONFIG (R25 to R27, R84, R85, R119, R145). -/

namespace Sys2Proof.PortLaws

open Sys2Proof.Machine Sys2Proof.Safety Sys2Proof.Laws Sys2Proof.CellTime

/-- Settles O22. -/
theorem portConfig : Obligations.PortConfig := by
  constructor
  · intro s q rest offer kind len
    refine ⟨fun wide => ?_, fun port slow fast => ?_, fun port speed bad => ?_, fun port speed three bad => ?_,
      fun port speed three four bad => ?_, fun p x port speed three four five locked change => ?_⟩
    · exact exec_portConfig_badField offer kind len (runPortConfig_port wide _)
    · exact exec_portConfig_badField offer kind len (runPortConfig_speed port (asSpeed_none slow fast) _)
    · exact exec_portConfig_mark offer kind len port speed (configMarks_three bad)
    · exact exec_portConfig_mark offer kind len port speed (configMarks_four three bad)
    · exact exec_portConfig_mark offer kind len port speed (configMarks_five three four bad)
    · exact exec_portConfig_locked offer kind len port (asSpeed_of speed) three four five locked change
  · intro s q rest p x offer kind len port speed three four five open_ mask exposed
    have run := exec_portConfig offer kind len port (asSpeed_of speed) three four five open_
    obtain ⟨a, b, d, u, h, kept, reply⟩ := portConfigured_configured q rest p x s
    generalize portConfigured q rest p x s = t at *
    have view {α : Type} (view : PortUnit → α) (apart : ∀ w a b, view { w with counters := a, flags := b } = view w) :
        view t.ports[p] = view (s.ports[p].withSettings (given q p x s)) := by
      rw [reply.ports]; exact h.unit view apart
    have settings : t.ports[p].settings = given q p x s := view (·.settings) fun _ _ _ => rfl
    have fields := settings.trans (given_settings q p x s)
    have noise : t.noise = u.noise := reply.only.noise
    refine ⟨t, run, ⟨congrArg PortSettings.planned fields, congrArg PortSettings.ingressEnable fields,
      congrArg PortSettings.hold fields, congrArg PortSettings.arcExposed fields, congrArg PortSettings.defaultClass fields,
      congrArg PortSettings.beLimit fields, congrArg PortSettings.mu fields, congrArg PortSettings.tau fields,
      congrArg PortSettings.kappa fields, congrArg PortSettings.thetaW fields, congrArg PortSettings.thetaD fields,
      congrArg PortSettings.coolDown fields, congrArg PortSettings.flagMask fields, view (·.link) fun _ _ _ => rfl,
      view (·.windows) fun _ _ _ => rfl, view (·.untaggedAllowed) fun _ _ _ => rfl, view (·.receiving) fun _ _ _ => rfl⟩,
      fun e other => ?_, ?_, ?_, ?_, ?_, fun same hold arc rests => ?_, fun change => ⟨?_, fun busy => ?_, fun free nothing => ?_⟩,
      fun e other => ?_, fun calm => ?_, fun arc noisy => ?_, fun arc still => ⟨?_, ?_, ?_, fun routed => ?_⟩,
      fun held free => ⟨fun k r queued v start => ?_, fun o y l r slot v start => ?_⟩⟩
    · rw [reply.ports]; exact h.others other
    · exact reply.inbound.trans kept.inbound
    · rw [reply.outbound, kept.outbound, kept.serial, kind, settings, speed_bne]
      rfl
    · exact reply.only.timer.trans h.timer
    · exact (congrArg State.addr reply.only.rest :).trans h.addr
    · have calm : ((given q p x s).arcExposed && !s.ports[p].arcExposed) = false := by
        rcases arc with exposed | off
        · rw [exposed, Bool.not_true, Bool.and_false]
        · exact Bool.and_eq_false_iff.2 (.inl (bit_off off))
      have still : (s.ports[p].hold && !(given q p x s).hold) = false := by
        rcases hold with free | on
        · rw [free, Bool.false_and]
        · exact Bool.and_eq_false_iff.2 (.inr (by rw [Bool.not_eq_false']; exact bit_on on))
      obtain ⟨all, unit⟩ := h.quiet same still calm rests
      have inbox : u.fault.inbox = [] := (congrArg (fun v : State => v.fault.inbox) all :).trans offer.noReports
      have here : t.ports[p] = s.ports[p].withSettings (given q p x s) := by rw [reply.ports]; exact unit
      rw [here, reply.silent inbox]
      exact ⟨(congrArg (fun v : State => { v with mgmt := s.mgmt }) all :), rfl, rfl, rfl, rfl⟩
    · exact (congrArg (fun v : Table PortUnit 8 => v[p].flags.getLsbD 1) reply.ports).trans (h.flag_mismatch change)
    · exact (congrArg State.engine reply.only.rest :).trans (h.busy change busy)
    · have engine : t.engine = u.engine := (congrArg State.engine reply.only.rest :)
      have takes := h.takes change free nothing
      have same (k : RepairKind) : begun p (took rest s) u k = begun p s t k := by rw [begun, begun, reply.ports]; rfl
      rw [← engine, same, same] at takes
      exact takes
    · exact (congrArg (fun v : Table Monitor 8 => v[e]) noise).trans (h.noise_others other)
    · exact (congrArg (fun v : Table Monitor 8 => v[p]) noise).trans
        (h.noise_calm fun on => calm ((during_iff q p x s).1 on))
    · exact (congrArg (fun v : Table Monitor 8 => v[p]) noise).trans (h.noise_quiet ((during_iff q p x s).2 arc) noisy)
    · exact (congrArg (fun v : Table Monitor 8 => v[p]) noise).trans (h.noise_enters (enters_of arc still))
    · exact (congrArg (fun v : Table PortUnit 8 => v[p].counters[(19 : Fin 21)]) reply.ports).trans
        (h.counter_enters (enters_of arc still))
    · exact (congrArg (fun v : Table PortUnit 8 => v[p].flags.getLsbD 2) reply.ports).trans
        (h.flag_enters (enters_of arc still))
    · have notice := h.notice (enters_of arc still) routed
      rw [← reply.sources] at notice
      exact notice
    · obtain ⟨wire, queue, sent⟩ := h.bestEffort held (bit_off free) ((took_alike p rest s).bestEffort start)
      have egress : t.egress = u.egress := reply.only.egress
      rw [egress, reply.ports]
      exact ⟨wire, queue, sent⟩
    · obtain ⟨y', l', desc, start'⟩ := (took_alike p rest s).motion start
      obtain ⟨wire, left, sent⟩ := h.motion held (bit_off free) start'
      have egress : t.egress = u.egress := reply.only.egress
      have streams : t.streams = u.streams := (congrArg State.streams reply.only.rest :)
      rw [egress, reply.ports, slotOf_congr streams]
      rw [desc] at wire
      exact ⟨wire, left, sent⟩

end Sys2Proof.PortLaws
end

section
/-! SUPPORT. The commit of one leg (R47, R48): its pending placement is consumed, and a leg that leaves LIVE drops its slot. -/

namespace Sys2Proof.PortLaws

open Sys2Proof.Machine Sys2Proof.Safety Sys2Proof.Laws Sys2Proof.CellTime

/-! ### What becomes of a leg -/

/-- The state that a leg of an ACTIVE stream takes at the commit (R47, R48). -/
def became (u : PortUnit) (l : Leg) : Option LegState :=
  match l.pendingPl with
  | none => l.state
  | some (.place _) => some (legStateBy u)
  | some (.suspend ..) => some .suspended

/-- A leg leaves LIVE at the commit. -/
def leaving (u : PortUnit) (l : Leg) : Bool := l.state == some .live && became u l != some .live

/-- The placement that a leg has after the commit (R47). -/
def placedAs (l : Leg) : Option Placement :=
  match l.pendingPl with
  | none => l.placement
  | some (.place p) => some p
  | some (.suspend ..) => none

/-- The cause of the drops of a leg that leaves LIVE (R48). -/
def leavingCause (u : PortUnit) (l : Leg) : Cause := ((became u l).map stateCause).getD .linkDown

/-- The counter of those drops (R49). -/
def leavingCounter (u : PortUnit) (l : Leg) : LegCounter :=
  match became u l with
  | some .mismatch => .mismatch
  | some .suspended => .suspended
  | _ => .linkDown

theorem leavingCause_counter (u : PortUnit) (l : Leg) : (leavingCause u l).legCounter = some (leavingCounter u l) := by
  unfold leavingCause leavingCounter
  cases became u l with
  | none => rfl
  | some x => cases x <;> rfl

/-- A leg with its state and placement of the commit taken, its slot still as it was. -/
def taking (u : PortUnit) (l k : Leg) : Leg := { k with state := became u l, placement := placedAs l, pendingPl := none }

/-- The commit of a leg, where one is pending: the state and placement are taken, and a leg that leaves LIVE is emptied. -/
theorem commitLeg_pending {n : StreamNo} {l : Leg} (pending : l.pendingPl ≠ none) (s : State) : commitLeg n l s =
    if leaving s.ports[l.egress] l then
      letGo n l.egress (dropSlot (leavingCause s.ports[l.egress] l) n l.egress
        ((s.modLeg n l.egress fun k => { k with placement := placedAs l }).modLeg n l.egress fun k =>
          { k with state := became s.ports[l.egress] l, pendingPl := none }))
    else (s.modLeg n l.egress fun k => { k with placement := placedAs l }).modLeg n l.egress fun k =>
      { k with state := became s.ports[l.egress] l, pendingPl := none } := by
  have live (x : LegState) : (l.state == some .live && some x != some .live) = true ↔ l.state = some .live ∧ x ≠ .live := by
    simp
  unfold commitLeg commitState leaving leavingCause became placedAs
  cases h : l.pendingPl with
  | none => exact absurd h pending
  | some x =>
    cases x with
    | place p => simp only [live]; rfl
    | suspend why kind port => simp only [live]; rfl

theorem commitLeg_none {n : StreamNo} {l : Leg} (none : l.pendingPl = none) (s : State) : commitLeg n l s = s := by
  rw [commitLeg, none]

theorem leaving_none {u : PortUnit} {l : Leg} (none : l.pendingPl = none) : leaving u l = false := by
  rw [leaving, became, none]
  cases h : l.state == some .live <;> simp_all

/-! ### What it counts -/

/-- What the commit of a leg counts (R48, R49, R124). -/
def legTally (s : State) (n : StreamNo) (l : Leg) : Tally :=
  if leaving s.ports[l.egress] l then
    (slotTally (leavingCause s.ports[l.egress] l) (leavingCounter s.ports[l.egress] l) n l.egress (s.slotOf n l.egress)).add
      (.returning (s.retainedOf n l.egress))
  else .none

theorem modLeg_held {α : Type} {f : Leg → Leg} (egress : ∀ l, (f l).egress = l.egress) {held : Leg → α} (keep : ∀ l, held (f l) = held l)
    (n : StreamNo) (e : Port) (s : State) (m : StreamNo) (p : Port) :
    ((s.modLeg n e f).leg m p).map held = (s.leg m p).map held := by
  rw [modLeg_leg egress]
  split
  · next same =>
    obtain ⟨rfl, rfl⟩ := same
    rw [Option.map_map]
    congr 1
    exact funext keep
  · rfl

/-- A slot dropped and its retained frames let go (R46, R48). -/
theorem emptyLeg_lossy {cause : Cause} {c : LegCounter} (h : cause.legCounter = some c) (n : StreamNo) (e : Port) (s : State) :
    Lossy s (letGo n e (dropSlot cause n e s)) ((slotTally cause c n e (s.slotOf n e)).add (.returning (s.retainedOf n e))) := by
  have kept : (dropSlot cause n e s).retainedOf n e = s.retainedOf n e := by
    rw [retainedOf_eq, dropSlot_leg, if_pos ⟨rfl, rfl⟩, Option.map_map, retainedOf_eq]
    rfl
  have second := letGo_lossy n e (dropSlot cause n e s)
  rw [kept] at second
  exact (dropSlot_lossy h n e s).trans second

theorem commitLeg_lossy (n : StreamNo) (l : Leg) (s : State) : Lossy s (commitLeg n l s) (legTally s n l) := by
  by_cases pending : l.pendingPl = none
  · rw [commitLeg_none pending, legTally, leaving_none pending]
    exact .quiet rfl fun _ => rfl
  · rw [commitLeg_pending pending, legTally]
    generalize became s.ports[l.egress] l = new
    have first := (modLeg_lossy n l.egress (fun k => { k with placement := placedAs l }) s).trans
      (modLeg_lossy n l.egress (fun k => { k with state := new, pendingPl := none }) _)
    have twice {held : Leg → List FrameId} (h1 : ∀ k : Leg, held { k with placement := placedAs l } = held k)
        (h2 : ∀ k : Leg, held { k with state := new, pendingPl := none } = held k) :
        (((s.modLeg n l.egress fun k => { k with placement := placedAs l }).modLeg n l.egress fun k =>
          { k with state := new, pendingPl := none }).leg n l.egress).map held = (s.leg n l.egress).map held :=
      (modLeg_held (f := fun k => { k with state := new, pendingPl := none }) (fun _ => rfl) h2 n l.egress _ n l.egress).trans
        (modLeg_held (f := fun k => { k with placement := placedAs l }) (fun _ => rfl) h1 n l.egress s n l.egress)
    have slot : ((s.modLeg n l.egress fun k => { k with placement := placedAs l }).modLeg n l.egress fun k =>
        { k with state := new, pendingPl := none }).slotOf n l.egress = s.slotOf n l.egress := by
      rw [slotOf_eq, slotOf_eq, twice (held := (·.slot)) (fun _ => rfl) fun _ => rfl]
    have kept : ((s.modLeg n l.egress fun k => { k with placement := placedAs l }).modLeg n l.egress fun k =>
        { k with state := new, pendingPl := none }).retainedOf n l.egress = s.retainedOf n l.egress := by
      rw [retainedOf_eq, retainedOf_eq, twice (held := (·.retained)) (fun _ => rfl) fun _ => rfl]
    rw [Tally.none_add] at first
    split
    · have all := first.trans (emptyLeg_lossy (leavingCause_counter s.ports[l.egress] l) n l.egress _)
      rw [slot, kept, Tally.none_add] at all
      exact all
    · exact first

/-! ### What it leaves of the streams -/

/-- A leg after the commit of its like. -/
def committed (u : PortUnit) (l k : Leg) : Leg :=
  if l.pendingPl = none then k
  else if leaving u l then noRetained (noSlot (taking u l k)) else taking u l k

@[simp] theorem committed_egress (u : PortUnit) (l k : Leg) : (committed u l k).egress = k.egress := by
  unfold committed
  split
  · rfl
  · split <;> rfl

theorem dropSlot_bare_other (cause : Cause) {n m : StreamNo} (h : m ≠ n) (e : Port) (s : State) :
    bare (dropSlot cause n e s) m = bare s m := by
  rw [dropSlot_bare, if_neg fun k => h k.1]

theorem letGo_bare_other {n m : StreamNo} (h : m ≠ n) (e : Port) (s : State) : bare (letGo n e s) m = bare s m := by
  rw [letGo_bare, if_neg fun k => h k.1]

theorem modLeg_bare_other {n m : StreamNo} (h : m ≠ n) (e : Port) (f : Leg → Leg) (s : State) :
    bare (s.modLeg n e f) m = bare s m := by
  rw [modLeg_bare, if_neg h]

/-- The commit of a leg leaves the other streams. -/
theorem commitLeg_other {n m : StreamNo} (h : m ≠ n) (l : Leg) (s : State) : bare (commitLeg n l s) m = bare s m := by
  by_cases pending : l.pendingPl = none
  · rw [commitLeg_none pending]
  · rw [commitLeg_pending pending]
    split
    · rw [letGo_bare_other h, dropSlot_bare_other _ h, modLeg_bare_other h, modLeg_bare_other h]
    · rw [modLeg_bare_other h, modLeg_bare_other h]

/-- No two legs of a stream are on one egress. -/
def LegsApart (x : Stream) : Prop := (x.legs.map (·.egress)).Nodup

theorem onLegs_apart {e : Port} {f : Leg → Leg} (h : ∀ l, (f l).egress = l.egress) {x : Stream} (apart : LegsApart x) :
    LegsApart (onLegs e f x) := by
  have same : (onLegs e f x).legs.map (·.egress) = x.legs.map (·.egress) := by
    simp only [onLegs, List.map_map]
    refine List.map_congr_left fun l _ => ?_
    simp only [Function.comp]
    split <;> simp [h]
  rw [LegsApart, same]
  exact apart

/-- Where no two legs share an egress, the one there is found. -/
theorem find_apart {x : Stream} (apart : LegsApart x) {l : Leg} (mem : l ∈ x.legs) :
    x.legs.find? (fun k => k.egress == l.egress) = some l := by
  cases found : x.legs.find? fun k => k.egress == l.egress with
  | none => exact absurd (List.find?_eq_none.1 found l mem) (by simp)
  | some k =>
    have egress : k.egress = l.egress := by simpa using List.find?_some found
    rw [List.inj_on_of_nodup_map apart (List.mem_of_find?_eq_some found) mem egress]

/-- A change of the legs on an egress that leaves the one there leaves the stream. -/
theorem onLegs_same {x : Stream} (apart : LegsApart x) {e : Port} {f : Leg → Leg}
    (h : ∀ l, (x.legs.find? fun k => k.egress == e) = some l → f l = l) : onLegs e f x = x := by
  have legs : (x.legs.map fun l => if l.egress == e then f l else l) = x.legs := by
    refine (List.map_congr_left fun l mem => ?_).trans (List.map_id _)
    by_cases here : l.egress = e
    · subst here
      rw [if_pos (beq_self_eq_true _)]
      exact h l (find_apart apart mem)
    · simp [here]
  rw [onLegs, legs]

/-- The streams after a list of a leg was emptied, no two legs of the stream being on one egress. -/
theorem bare_emptied {s t : State} {n : StreamNo} {e : Port} {f : Leg → Leg} {held : Leg → List FrameId}
    (empty : ∀ l, held l = [] → f l = l) (apart : ∀ x, bare s n = some x → LegsApart x)
    (h : bare t n = if ((s.leg n e).map held).getD [] ≠ [] then (bare s n).map (onLegs e f) else bare s n) :
    bare t n = (bare s n).map (onLegs e f) := by
  rw [h]
  split
  · rfl
  · next none =>
    rw [Decidable.not_not] at none
    cases stream : bare s n with
    | none => rfl
    | some x =>
      refine congrArg some (onLegs_same (apart x stream) fun l found => empty l ?_).symm
      rw [leg_eq_bare, stream, Option.bind_some, found] at none
      exact none

theorem dropSlot_bare_apart (cause : Cause) {n : StreamNo} (e : Port) {s : State} (apart : ∀ x, bare s n = some x → LegsApart x) :
    bare (dropSlot cause n e s) n = (bare s n).map (onLegs e noSlot) := by
  refine bare_emptied (held := (·.slot)) (fun l h => by cases l; cases h; rfl) apart ?_
  rw [dropSlot_bare]
  simp only [true_and]
  rfl

theorem letGo_bare_apart {n : StreamNo} (e : Port) {s : State} (apart : ∀ x, bare s n = some x → LegsApart x) :
    bare (letGo n e s) n = (bare s n).map (onLegs e noRetained) := by
  refine bare_emptied (held := (·.retained)) (fun l h => by cases l; cases h; rfl) apart ?_
  rw [letGo_bare]
  simp only [true_and]
  rfl

/-- The stream after the commit of one of its legs (R47, R48). -/
theorem commitLeg_bare {n : StreamNo} (l : Leg) {s : State} (apart : ∀ x, bare s n = some x → LegsApart x) :
    bare (commitLeg n l s) n = (bare s n).map (onLegs l.egress (committed s.ports[l.egress] l)) := by
  by_cases pending : l.pendingPl = none
  · have same : onLegs l.egress (committed s.ports[l.egress] l) = id := by
      funext x
      have whole : committed s.ports[l.egress] l = fun k => k := funext fun k => if_pos pending
      rw [whole]
      simp [onLegs]
    rw [commitLeg_none pending, same, Option.map_id]
    rfl
  · have taken (u : PortUnit) : bare ((s.modLeg n l.egress fun k => { k with placement := placedAs l }).modLeg n l.egress fun k =>
        { k with state := became u l, pendingPl := none }) n = (bare s n).map (onLegs l.egress (taking u l)) := by
      rw [modLeg_bare, if_pos rfl, modLeg_bare, if_pos rfl, Option.map_map]
      congr 1
      funext x
      exact onLegs_onLegs (f := fun k => { k with placement := placedAs l }) (fun _ => rfl) l.egress x
    have still {t : State} {f : Leg → Leg} (egress : ∀ k, (f k).egress = k.egress)
        (h : bare t n = (bare s n).map (onLegs l.egress f)) : ∀ x, bare t n = some x → LegsApart x := by
      intro x hx
      rw [h] at hx
      obtain ⟨y, hy, rfl⟩ := Option.map_eq_some_iff.1 hx
      exact onLegs_apart egress (apart y hy)
    have taken' := taken s.ports[l.egress]
    rw [commitLeg_pending pending]
    split
    · next leaves =>
      have dropped := dropSlot_bare_apart (leavingCause s.ports[l.egress] l) l.egress (still (f := taking s.ports[l.egress] l) (fun _ => rfl) taken')
      rw [taken', Option.map_map] at dropped
      have both : onLegs l.egress noSlot ∘ onLegs l.egress (taking s.ports[l.egress] l) =
          onLegs l.egress (noSlot ∘ taking s.ports[l.egress] l) :=
        funext fun x => onLegs_onLegs (f := taking s.ports[l.egress] l) (fun _ => rfl) l.egress x
      rw [both] at dropped
      rw [letGo_bare_apart l.egress (still (f := noSlot ∘ taking s.ports[l.egress] l) (fun _ => rfl) dropped), dropped, Option.map_map]
      congr 1
      funext x
      refine (onLegs_onLegs (f := noSlot ∘ taking s.ports[l.egress] l) (fun _ => rfl) l.egress x).trans ?_
      congr 1
      funext k
      simp only [Function.comp, committed, if_neg pending, leaves, if_true]
    · next stays =>
      rw [taken']
      congr 1
      funext x
      congr 1
      funext k
      rw [committed, if_neg pending, if_neg stays]

end Sys2Proof.PortLaws
end

section
/-! SUPPORT. The commit of one stream (R44, R45, R46, R47): what it counts, and that it leaves the other streams. -/

namespace Sys2Proof.PortLaws

open Sys2Proof.Machine Sys2Proof.Safety Sys2Proof.Laws Sys2Proof.CellTime

/-! ### What stands beside a stream -/

/-- A change beside a stream: the figures of one, none of them the stream's own, which stands. -/
structure Beside (n : StreamNo) (s t : State) : Prop where
  tallied : ∃ a, Tallied s t a ∧ ∀ e i, a.leg n e i = 0
  bare : bare t n = bare s n

theorem Beside.refl (n : StreamNo) (s : State) : Beside n s s :=
  ⟨⟨.none, (Lossy.quiet (s := s) (t := s) rfl fun _ => rfl).toTallied, fun _ _ => rfl⟩, rfl⟩

theorem Beside.trans {n : StreamNo} {s t u : State} (h : Beside n s t) (k : Beside n t u) : Beside n s u := by
  obtain ⟨⟨a, first, zero⟩, same⟩ := h
  obtain ⟨⟨b, second, zero'⟩, same'⟩ := k
  exact ⟨⟨a.add b, first.trans second, fun e i => Nat.add_eq_zero_iff.2 ⟨zero e i, zero' e i⟩⟩, same'.trans same⟩

theorem Beside.forAll {α : Type} {n : StreamNo} {f : α → State → State} {xs : List α}
    (h : ∀ x ∈ xs, ∀ s, Beside n s (f x s)) (s : State) : Beside n s (forAll xs f s) := by
  induction xs generalizing s with
  | nil => exact .refl n s
  | cons x xs ih =>
    exact (h x List.mem_cons_self s).trans (ih (fun y hy => h y (List.mem_cons_of_mem x hy)) (f x s))

/-- What the state of a link, its planned speed and its flag mask are after figures were counted. -/
theorem Tallied.stateBy {s t : State} {a : Tally} (h : Tallied s t a) (e : Port) :
    legStateBy t.ports[e] = legStateBy s.ports[e] := (h.ports e).keeps (fun u => legStateBy u) fun _ => rfl

theorem Beside.stateBy {n : StreamNo} {s t : State} (h : Beside n s t) (e : Port) :
    legStateBy t.ports[e] = legStateBy s.ports[e] := by
  obtain ⟨⟨a, tallied, -⟩, -⟩ := h
  exact tallied.stateBy e

theorem Beside.timer {n : StreamNo} {s t : State} (h : Beside n s t) : t.timer = s.timer := by
  obtain ⟨⟨a, tallied, -⟩, -⟩ := h
  exact tallied.timer

theorem Beside.legCounters {n : StreamNo} {s t : State} (h : Beside n s t) (e : Port) :
    t.legCounters[legIndex n e] = s.legCounters[legIndex n e] := by
  obtain ⟨⟨a, tallied, zero⟩, -⟩ := h
  refine Vector.ext fun i hi => ?_
  have figure := tallied.legs n e ⟨i, hi⟩
  rw [zero] at figure
  exact figure

/-- A flag that stands in a mask stays once it is set. -/
theorem Beside.flag {n : StreamNo} {s t : State} (h : Beside n s t) (e : Port) (k : Nat) :
    t.ports[e].flagMask = s.ports[e].flagMask ∧ ∃ b : Bool,
      t.ports[e].flags.getLsbD k = (s.ports[e].flags.getLsbD k || b && s.ports[e].flagMask.getLsbD k) := by
  obtain ⟨⟨a, tallied, -⟩, -⟩ := h
  refine ⟨(tallied.ports e).mask, (a.flags e).getLsbD k, ?_⟩
  rw [(tallied.ports e).flags, BitVec.getLsbD_or, BitVec.getLsbD_and]

/-! ### The commit of a leg, beside the others -/

theorem became_congr {u v : PortUnit} (h : legStateBy v = legStateBy u) (l : Leg) : became v l = became u l := by
  unfold became
  rw [h]

theorem leaving_congr {u v : PortUnit} (h : legStateBy v = legStateBy u) (l : Leg) : leaving v l = leaving u l := by
  unfold leaving
  rw [became_congr h]

theorem leavingCause_congr {u v : PortUnit} (h : legStateBy v = legStateBy u) (l : Leg) :
    leavingCause v l = leavingCause u l := by
  unfold leavingCause
  rw [became_congr h]

theorem leavingCounter_congr {u v : PortUnit} (h : legStateBy v = legStateBy u) (l : Leg) :
    leavingCounter v l = leavingCounter u l := by
  unfold leavingCounter
  rw [became_congr h]

theorem committed_congr {u v : PortUnit} (h : legStateBy v = legStateBy u) (l : Leg) : committed v l = committed u l := by
  funext k
  unfold committed taking
  rw [leaving_congr h, became_congr h]

/-- The commit of a leg leaves the legs on the other egresses. -/
theorem commitLeg_leg {l : Leg} {p : Port} (h : p ≠ l.egress) (n m : StreamNo) (s : State) :
    (commitLeg n l s).leg m p = s.leg m p := by
  have off (m : StreamNo) : ¬(m = n ∧ p = l.egress) := fun k => h k.2
  have first (f : Leg → Leg) (egress : ∀ k, (f k).egress = k.egress) (t : State) :
      (t.modLeg n l.egress f).leg m p = t.leg m p := (modLeg_leg egress n l.egress t m p).trans (if_neg (off m))
  by_cases pending : l.pendingPl = none
  · rw [commitLeg_none pending]
  · have taken : ((s.modLeg n l.egress fun k => { k with placement := placedAs l }).modLeg n l.egress fun k =>
        { k with state := became s.ports[l.egress] l, pendingPl := none }).leg m p = s.leg m p :=
      (first (fun k => { k with state := became s.ports[l.egress] l, pendingPl := none }) (fun _ => rfl) _).trans
        (first (fun k => { k with placement := placedAs l }) (fun _ => rfl) s)
    rw [commitLeg_pending pending]
    split
    · rw [letGo_leg, if_neg (off m), dropSlot_leg, if_neg (off m), taken]
    · exact taken

/-- The figures of a leg are the same after the commit of one on another egress. -/
theorem legTally_commitLeg {l k : Leg} (h : k.egress ≠ l.egress) (n : StreamNo) (s : State) :
    legTally (commitLeg n l s) n k = legTally s n k := by
  have state := (commitLeg_lossy n l s).stateBy k.egress
  unfold legTally
  rw [leaving_congr state, leavingCause_congr state, leavingCounter_congr state, slotOf_eq, retainedOf_eq, commitLeg_leg h]
  rfl

theorem slotTally_leg_other {n m : StreamNo} (h : m ≠ n) (cause : Cause) (c : LegCounter) (e : Port) (ids : List FrameId) (p : Port)
    (i : Fin 13) : (slotTally cause c n e ids).leg m p i = 0 := if_neg fun k => h k.1

theorem emptyLeg_beside {cause : Cause} {c : LegCounter} (h : cause.legCounter = some c) {n m : StreamNo} (other : m ≠ n)
    (e : Port) (s : State) : Beside m s (letGo n e (dropSlot cause n e s)) :=
  ⟨⟨_, (emptyLeg_lossy h n e s).toTallied, fun p i => slotTally_leg_other other cause c e _ p i⟩,
    (letGo_bare_other other e _).trans (dropSlot_bare_other cause other e s)⟩

theorem commitLeg_beside {n m : StreamNo} (other : m ≠ n) (l : Leg) (s : State) : Beside m s (commitLeg n l s) := by
  refine ⟨⟨_, (commitLeg_lossy n l s).toTallied, fun p i => ?_⟩, commitLeg_other other l s⟩
  unfold legTally
  split
  · exact slotTally_leg_other other (leavingCause s.ports[l.egress] l) _ _ _ p i
  · rfl

/-! ### A RELEASING stream becomes FREE -/

/-- The stream itself becomes FREE, and nothing is counted. -/
def Tally.freeing (n : StreamNo) : Tally := { Tally.none with freed := fun m => m == n }

/-- The probes of a stream that becomes FREE are cancelled, and nothing else changes. -/
theorem probesFreed_rest (cycle : CycleNo) (n : StreamNo) (qs : List (Fin 4)) (s : State) :
    { forAll qs (probeFreed cycle n) s with probes := s.probes } = s := by
  have one (q : Fin 4) (s : State) : { probeFreed cycle n q s with probes := s.probes } = s := by
    unfold probeFreed
    split
    · split <;> rfl
    · rfl
  induction qs generalizing s with
  | nil => rfl
  | cons q qs ih =>
    exact (congrArg (fun x : State => { x with probes := s.probes }) (ih (probeFreed cycle n q s))).trans (one q s)

/-- A stream whose legs are empty becomes FREE (R46). -/
def freed (n : StreamNo) (s : State) : State := forAll allProbes (probeFreed s.timer.cycle n) ((orphanFrames n s).setStream n none)

theorem freed_streams (n : StreamNo) (s : State) : (freed n s).streams = Table.upd s.streams n fun _ => none :=
  (congrArg State.streams (probesFreed_rest s.timer.cycle n allProbes ((orphanFrames n s).setStream n none)) :)

theorem freed_tallied (n : StreamNo) (s : State) : Tallied s (freed n s) (.freeing n) := by
  have rest := probesFreed_rest s.timer.cycle n allProbes ((orphanFrames n s).setStream n none)
  have buffer : (freed n s).buffer = (orphanFrames n s).buffer := (congrArg State.buffer rest :)
  have ports : (freed n s).ports = s.ports := (congrArg State.ports rest :)
  have legs : (freed n s).legCounters = s.legCounters := (congrArg State.legCounters rest :)
  have fault : (freed n s).fault = s.fault := (congrArg State.fault rest :)
  exact ⟨(congrArg (fun x : State => { x with
      ports := s.ports, streams := s.streams, legCounters := s.legCounters, egress := s.egress, buffer := s.buffer
      fault := s.fault, probes := s.probes }) rest :),
    returned_congr buffer (orphanFrames_returned n s), fun e => by rw [ports]; exact .refl _,
    fun m e i => by rw [legs]; rfl, fun i => by rw [fault]; rfl,
    fun none => absurd (none n) (by simp [Tally.freeing])⟩

theorem freed_bare (n : StreamNo) (s : State) (m : StreamNo) : bare (freed n s) m = if m = n then none else bare s m := by
  rw [bare, freed_streams, upd_get]
  split <;> rfl

theorem freed_beside {n m : StreamNo} (other : m ≠ n) (s : State) : Beside m s (freed n s) :=
  ⟨⟨_, freed_tallied n s, fun _ _ => rfl⟩, (freed_bare n s m).trans (if_neg other)⟩

theorem freeReleasing_eq (n : StreamNo) (x : Stream) (s : State) : freeReleasing n x s =
    freed n (forAll x.legs (fun l t => letGo n l.egress (dropSlot .released n l.egress t)) s) := rfl

/-! ### The commit of a stream, by its stage -/

/-- A PLACED stream that became ACTIVE (R45). -/
def activated (s : State) (x : Stream) : Stream :=
  { x with
    stage := .active
    alive := 0
    firstActive := some s.timer.cycle
    releaseQueued := false
    legs := x.legs.map (activateLeg s) }

theorem commitStream_placed {s : State} {n : StreamNo} {x : Stream} (h : s.streams[n] = some x) (stage : x.stage = .placed) :
    commitStream n s = s.setStream n (some (activated s x)) := by
  rw [commitStream, h]
  simp only [stage]
  rfl

theorem commitStream_active {s : State} {n : StreamNo} {x : Stream} (h : s.streams[n] = some x) (stage : x.stage = .active) :
    commitStream n s = forAll x.legs (commitLeg n) s := by
  rw [commitStream, h]
  simp only [stage]

theorem commitStream_releasing {s : State} {n : StreamNo} {x : Stream} (h : s.streams[n] = some x)
    (stage : x.stage = .releasing) : commitStream n s = freeReleasing n x s := by
  rw [commitStream, h]
  simp only [stage]

theorem commitStream_waiting {s : State} {n : StreamNo}
    (h : ∀ x, s.streams[n] = some x → x.stage = .queued ∨ x.stage = .searching) : commitStream n s = s := by
  unfold commitStream
  cases found : s.streams[n] with
  | none => rfl
  | some x => rcases h x found with stage | stage <;> simp only [stage]

theorem setStream_tallied (n : StreamNo) (x : Option Stream) (s : State) : Tallied s (s.setStream n x) .none :=
  ⟨rfl, returned_of_buffer rfl, fun _ => .refl _, fun _ _ _ => rfl, fun _ => rfl, fun _ => rfl⟩

theorem setStream_bare_other {n m : StreamNo} (other : m ≠ n) (x : Option Stream) (s : State) :
    bare (s.setStream n x) m = bare s m := by
  exact congrArg (Option.map _) ((upd_get _ _ _ _).trans (if_neg other))

/-- The commit of a stream leaves every other (R44). -/
theorem commitStream_beside {n m : StreamNo} (other : m ≠ n) (s : State) : Beside m s (commitStream n s) := by
  cases found : s.streams[n] with
  | none => rw [commitStream_waiting fun x h => by rw [found] at h; cases h]; exact .refl m s
  | some x =>
    cases stage : x.stage with
    | placed =>
      rw [commitStream_placed found stage]
      exact ⟨⟨_, setStream_tallied n _ s, fun _ _ => rfl⟩, setStream_bare_other other _ s⟩
    | active =>
      rw [commitStream_active found stage]
      exact .forAll (fun l _ t => commitLeg_beside other l t) s
    | releasing =>
      rw [commitStream_releasing found stage, freeReleasing_eq]
      exact (Beside.forAll (fun l _ t => emptyLeg_beside rfl other l.egress t) s).trans (freed_beside other _)
    | queued | searching =>
      rw [commitStream_waiting fun y h => by rw [found] at h; cases h; simp [stage]]
      exact .refl m s

end Sys2Proof.PortLaws
end

section
/-! SUPPORT. The commit of the streams (R45, R46, R47, R48): what becomes of each, and what all of them count. -/

namespace Sys2Proof.PortLaws

open Sys2Proof.Machine Sys2Proof.Safety Sys2Proof.Laws Sys2Proof.CellTime

/-! ### What a stream counts -/

/-- What a leg that is emptied counts (R49, R124). -/
def emptyFigures (cause : Cause) (c : LegCounter) (n : StreamNo) (l : Leg) : Tally :=
  (slotTally cause c n l.egress l.slot).add (.returning l.retained)

/-- What a leg of an ACTIVE stream counts at the commit (R48). -/
def legFigures (u : PortUnit) (n : StreamNo) (l : Leg) : Tally :=
  if leaving u l then emptyFigures (leavingCause u l) (leavingCounter u l) n l else .none

/-- What a stream counts at the commit (R46, R48). -/
def streamTally (s : State) (n : StreamNo) : Tally :=
  (bare s n).elim .none fun x =>
    match x.stage with
    | .active => .sum (x.legs.map fun l => legFigures s.ports[l.egress] n l)
    | .releasing => (Tally.sum (x.legs.map (emptyFigures .released .released n))).add (.freeing n)
    | _ => .none

theorem streamTally_beside {m : StreamNo} {s t : State} (h : Beside m s t) : streamTally t m = streamTally s m := by
  have legs (l : Leg) : legFigures t.ports[l.egress] m l = legFigures s.ports[l.egress] m l := by
    have state := h.stateBy l.egress
    rw [legFigures, leaving_congr state, leavingCause_congr state, leavingCounter_congr state, legFigures]
  rw [streamTally, h.bare, streamTally]
  simp only [legs]

theorem bare_of_stream {s : State} {n : StreamNo} {x : Stream} (h : s.streams[n] = some x) :
    bare s n = some { x with alive := 0 } := by
  rw [bare, h]; rfl

/-- No two legs of a stream being on one egress, each is the leg there. -/
theorem leg_of_mem {s : State} {n : StreamNo} {x : Stream} (h : s.streams[n] = some x) (apart : LegsApart x) {l : Leg}
    (mem : l ∈ x.legs) : s.leg n l.egress = some l := by
  rw [leg_eq_bare, bare_of_stream h, Option.bind_some]
  exact find_apart apart mem

theorem apart_pairwise {x : Stream} (apart : LegsApart x) : x.legs.Pairwise fun l k => k.egress ≠ l.egress :=
  (List.pairwise_map.1 apart).imp fun ne => ne.symm

theorem legTally_eq {s : State} {n : StreamNo} {l : Leg} (leg : s.leg n l.egress = some l) :
    legTally s n l = legFigures s.ports[l.egress] n l := by
  rw [legTally, slotOf_eq, retainedOf_eq, leg]
  rfl

/-- What the legs of an ACTIVE stream count. -/
theorem commitActive_lossy {s : State} {n : StreamNo} {x : Stream} (h : s.streams[n] = some x) (apart : LegsApart x) :
    Lossy s (forAll x.legs (commitLeg n) s) (.sum (x.legs.map fun l => legFigures s.ports[l.egress] n l)) := by
  have run := forAll_lossy (a := fun s l => legTally s n l) (commitLeg_lossy n)
    ((apart_pairwise apart).imp fun ne s => legTally_commitLeg ne n s) s
  rwa [List.map_congr_left fun l mem => legTally_eq (leg_of_mem h apart mem)] at run

/-- The slot and the twin-retained frames of a leg of a RELEASING stream leave (R46). -/
def emptyLeg (n : StreamNo) (l : Leg) (s : State) : State := letGo n l.egress (dropSlot .released n l.egress s)

theorem emptyLeg_leg {l : Leg} {p : Port} (h : p ≠ l.egress) (n m : StreamNo) (s : State) :
    (emptyLeg n l s).leg m p = s.leg m p := by
  have off (m : StreamNo) : ¬(m = n ∧ p = l.egress) := fun k => h k.2
  rw [emptyLeg, letGo_leg, if_neg (off m), dropSlot_leg, if_neg (off m)]

/-- What the legs of a RELEASING stream count. -/
theorem emptyReleasing_lossy {s : State} {n : StreamNo} {x : Stream} (h : s.streams[n] = some x) (apart : LegsApart x) :
    Lossy s (forAll x.legs (emptyLeg n) s) (.sum (x.legs.map (emptyFigures .released .released n))) := by
  have run := forAll_lossy (f := emptyLeg n)
    (a := fun s l => (slotTally .released .released n l.egress (s.slotOf n l.egress)).add (.returning (s.retainedOf n l.egress)))
    (fun l t => emptyLeg_lossy rfl n l.egress t)
    ((apart_pairwise apart).imp fun ne s => by
      simp only [slotOf_eq, retainedOf_eq, emptyLeg_leg ne]) s
  have same (l : Leg) (mem : l ∈ x.legs) : (slotTally .released .released n l.egress (s.slotOf n l.egress)).add
      (.returning (s.retainedOf n l.egress)) = emptyFigures .released .released n l := by
    rw [slotOf_eq, retainedOf_eq, leg_of_mem h apart mem]
    rfl
  rwa [List.map_congr_left same] at run

/-- What the commit of a stream counts (R46, R48). -/
theorem commitStream_tallied {s : State} {n : StreamNo} (apart : ∀ x, s.streams[n] = some x → LegsApart x) :
    Tallied s (commitStream n s) (streamTally s n) := by
  have nothing : Tallied s s .none := (Lossy.quiet (s := s) (t := s) rfl fun _ => rfl).toTallied
  cases found : s.streams[n] with
  | none =>
    have still : commitStream n s = s := commitStream_waiting fun x h => by rw [found] at h; cases h
    have none : streamTally s n = .none := by rw [streamTally, bare, found]; rfl
    rw [still, none]
    exact nothing
  | some x =>
    have record := bare_of_stream found
    rw [streamTally, record, Option.elim]
    cases stage : x.stage with
    | placed =>
      rw [commitStream_placed found stage]
      exact setStream_tallied n _ s
    | active =>
      rw [commitStream_active found stage]
      exact (commitActive_lossy found (apart x found)).toTallied
    | releasing =>
      rw [commitStream_releasing found stage]
      exact (emptyReleasing_lossy found (apart x found)).toTallied.trans (freed_tallied n _)
    | queued | searching =>
      rw [commitStream_waiting fun y h => by rw [found] at h; cases h; simp [stage]]
      exact nothing

/-- What the commit of some streams counts. -/
theorem forAll_commitStream_tallied {ns : List StreamNo} (once : ns.Nodup) {s : State}
    (apart : ∀ n ∈ ns, ∀ x, s.streams[n] = some x → LegsApart x) :
    Tallied s (forAll ns commitStream s) (.sum (ns.map (streamTally s))) := by
  induction ns generalizing s with
  | nil => exact (Lossy.quiet (s := s) (t := s) rfl fun _ => rfl).toTallied
  | cons n ns ih =>
    obtain ⟨new, once⟩ := List.nodup_cons.1 once
    have beside (m : StreamNo) (mem : m ∈ ns) : Beside m s (commitStream n s) :=
      commitStream_beside (by rintro rfl; exact new mem) s
    have rest := ih once (s := commitStream n s) fun m mem x hx => by
      have same := (bare_of_stream hx).symm.trans (beside m mem).bare
      obtain ⟨y, hy, legs⟩ := Option.map_eq_some_iff.1 same.symm
      have still := apart m (List.mem_cons_of_mem n mem) y hy
      have equal : y.legs = x.legs := (congrArg Stream.legs legs :)
      rwa [LegsApart, equal] at still
    rw [List.map_congr_left fun m mem => streamTally_beside (beside m mem)] at rest
    exact (commitStream_tallied (apart n List.mem_cons_self)).trans rest

/-! ### What becomes of an ACTIVE stream -/

/-- The legs on each egress of a list changed, one after another. -/
theorem foldl_onLegs (g : Leg → Leg → Leg) (ls : List Leg) (x : Stream) :
    ls.foldl (fun y l => onLegs l.egress (g l) y) x = { x with
      legs := x.legs.map fun k => ls.foldl (fun k l => if k.egress == l.egress then g l k else k) k } := by
  induction ls generalizing x with
  | nil => simp
  | cons l ls ih =>
    rw [List.foldl_cons, ih, onLegs]
    simp only [List.map_map, Function.comp_def, List.foldl_cons]

theorem foldl_other {g : Leg → Leg → Leg} {ls : List Leg} {k : Leg} (h : ∀ l ∈ ls, k.egress ≠ l.egress) :
    ls.foldl (fun k l => if k.egress == l.egress then g l k else k) k = k := by
  induction ls with
  | nil => rfl
  | cons l ls ih =>
    rw [List.foldl_cons, if_neg (by simpa using h l List.mem_cons_self)]
    exact ih fun m mem => h m (List.mem_cons_of_mem l mem)

/-- No two legs being on one egress, each is changed once, as its own. -/
theorem foldl_own {g : Leg → Leg → Leg} (egress : ∀ l k, (g l k).egress = k.egress) {ls : List Leg}
    (apart : (ls.map (·.egress)).Nodup) {k : Leg} (mem : k ∈ ls) :
    ls.foldl (fun k l => if k.egress == l.egress then g l k else k) k = g k k := by
  induction ls with
  | nil => cases mem
  | cons l ls ih =>
    obtain ⟨new, apart⟩ := List.nodup_cons.1 apart
    have off (m : Leg) (hm : m ∈ ls) : m.egress ≠ l.egress := fun e => new (List.mem_map.2 ⟨m, hm, e⟩)
    rw [List.foldl_cons]
    rcases List.mem_cons.1 mem with rfl | later
    · rw [if_pos (beq_self_eq_true _)]
      exact foldl_other fun m hm => by rw [egress]; exact (off m hm).symm
    · rw [if_neg (by simpa using off k later)]
      exact ih apart later

/-- An ACTIVE stream after some of its legs took what was pending. -/
theorem forAll_commitLeg_bare (n : StreamNo) (ls : List Leg) {s : State} (apart : ∀ x, bare s n = some x → LegsApart x) :
    bare (forAll ls (commitLeg n) s) n =
      (bare s n).map (ls.foldl fun y l => onLegs l.egress (committed s.ports[l.egress] l) y) := by
  induction ls generalizing s with
  | nil => cases h : bare s n <;> simp [forAll, h]
  | cons l ls ih =>
    have first := commitLeg_bare l apart
    have same (k : Leg) : committed (commitLeg n l s).ports[k.egress] k = committed s.ports[k.egress] k :=
      committed_congr ((commitLeg_lossy n l s).stateBy k.egress) k
    have rest := ih (s := commitLeg n l s) fun x hx => by
      rw [first] at hx
      obtain ⟨y, hy, rfl⟩ := Option.map_eq_some_iff.1 hx
      exact onLegs_apart (committed_egress _ l) (apart y hy)
    refine rest.trans ?_
    rw [first, Option.map_map]
    simp only [same]
    rfl

/-- What an ACTIVE stream becomes at the commit (R47, R48). -/
theorem commitStream_active_bare {s : State} {n : StreamNo} {x : Stream} (h : s.streams[n] = some x) (stage : x.stage = .active)
    (apart : LegsApart x) : bare (commitStream n s) n =
      some { x with alive := 0, legs := x.legs.map fun l => committed s.ports[l.egress] l l } := by
  have record := bare_of_stream h
  have run := forAll_commitLeg_bare n x.legs (s := s) fun y hy => by
    rw [record] at hy
    cases hy
    exact apart
  rw [commitStream_active h stage, run, record, Option.map_some,
    foldl_onLegs fun l => committed s.ports[l.egress] l]
  refine congrArg (fun ls => some { x with alive := 0, legs := ls }) (List.map_congr_left fun l mem => ?_)
  exact foldl_own (g := fun l => committed s.ports[l.egress] l) (fun l k => committed_egress _ l k) apart mem

theorem commitStream_releasing_bare {s : State} {n : StreamNo} {x : Stream} (h : s.streams[n] = some x)
    (stage : x.stage = .releasing) : bare (commitStream n s) n = none := by
  rw [commitStream_releasing h stage, freeReleasing_eq, freed_bare, if_pos rfl]

theorem commitStream_placed_bare {s : State} {n : StreamNo} {x : Stream} (h : s.streams[n] = some x)
    (stage : x.stage = .placed) : bare (commitStream n s) n = some (activated s x) := by
  rw [commitStream_placed h stage]
  exact congrArg (Option.map _) ((upd_get _ _ _ _).trans (if_pos rfl))

/-- One stream among all: those before it and behind it stand beside it. -/
theorem commitStreams_split (n : StreamNo) (s : State) : ∃ u, Beside n s u ∧
    Beside n (commitStream n u) (forAll allStreams commitStream s) := by
  obtain ⟨pre, post, split⟩ := List.append_of_mem (mem_allStreams n)
  have once : (pre ++ n :: post).Nodup := split ▸ List.nodup_finRange 128
  obtain ⟨-, behind, before⟩ := List.nodup_append.1 once
  have run : forAll allStreams commitStream s = forAll post commitStream (commitStream n (forAll pre commitStream s)) := by
    rw [split, forAll, List.foldl_append]
    rfl
  refine ⟨forAll pre commitStream s, .forAll (fun m mem t => commitStream_beside (before m mem n List.mem_cons_self).symm t) s, ?_⟩
  rw [run]
  exact .forAll (fun m mem t => commitStream_beside (by rintro rfl; exact (List.nodup_cons.1 behind).1 mem) t) _

end Sys2Proof.PortLaws
end

section
/-! SUPPORT. The cycle start before and behind the engine's part of it (R3): what the commit finds, and what its outcome keeps. -/

namespace Sys2Proof.PortLaws

open Sys2Proof.Machine Sys2Proof.Safety Sys2Proof.Laws Sys2Proof.CellTime

/-! ### Behind the engine -/

/-- A step behind the engine's in a cycle start: of the port units only the counters change, and the timelines, the notices
of the engine and the reports made stand. -/
structure Trailing (u t : State) : Prop where
  rest : { t with
    ports := u.ports, egress := u.egress, noise := u.noise, probes := u.probes, addr := u.addr
    deviceCounters := u.deviceCounters, mgmt := u.mgmt } = u
  ports : ∀ e : Port, { t.ports[e] with counters := u.ports[e].counters } = u.ports[e]
  timelines : ∀ e : Port, t.egress[e].timeline = u.egress[e].timeline
  source : t.mgmt.sources[srcEngine] = u.mgmt.sources[srcEngine]
  released : t.deviceCounters[(15 : Fin 28)] = u.deviceCounters[(15 : Fin 28)]

theorem Trailing.trans {s t u : State} (h : Trailing s t) (k : Trailing t u) : Trailing s u where
  rest := (congrArg (fun x : State => { x with
    ports := s.ports, egress := s.egress, noise := s.noise, probes := s.probes, addr := s.addr
    deviceCounters := s.deviceCounters, mgmt := s.mgmt }) k.rest).trans h.rest
  ports e := (congrArg (fun x : PortUnit => { x with counters := s.ports[e].counters }) (k.ports e)).trans (h.ports e)
  timelines e := (k.timelines e).trans (h.timelines e)
  source := k.source.trans h.source
  released := k.released.trans h.released

/-- A step that leaves the ports, the egresses, the links and the device counters. -/
theorem Trailing.plain {u t : State} (rest : { t with noise := u.noise, probes := u.probes, addr := u.addr } = u) :
    Trailing u t := by
  have ports : t.ports = u.ports := (congrArg State.ports rest :)
  have egress : t.egress = u.egress := (congrArg State.egress rest :)
  have mgmt : t.mgmt = u.mgmt := (congrArg State.mgmt rest :)
  have device : t.deviceCounters = u.deviceCounters := (congrArg State.deviceCounters rest :)
  exact ⟨(congrArg (fun x : State => { x with
      ports := u.ports, egress := u.egress, deviceCounters := u.deviceCounters, mgmt := u.mgmt }) rest :),
    fun e => by rw [ports], fun e => by rw [egress], by rw [mgmt], by rw [device]⟩

theorem Trailing.refl (u : State) : Trailing u u := .plain rfl

theorem raise_trailing {src : Fin 12} (h : srcEngine ≠ src) (cycle : CycleNo) (d : NoticeData) (s : State) :
    Trailing s (raise src cycle d s) :=
  ⟨rfl, fun _ => rfl, fun _ => rfl, raise_otherSource h cycle d s, rfl⟩

theorem forAll_trailing {α : Type} {f : α → State → State} (h : ∀ x s, Trailing s (f x s)) (xs : List α) (s : State) :
    Trailing s (forAll xs f s) := by
  induction xs generalizing s with
  | nil => exact .refl s
  | cons x xs ih => exact (h x s).trans (ih _)

theorem startPasses_trailing (s : State) : Trailing s (startPasses s) := by
  have rest (ps : List Port) (t : State) : { forAll ps (fun e => State.modEgress e newPass) t with egress := t.egress } = t := by
    induction ps generalizing t with
    | nil => rfl
    | cons p ps ih => exact congrArg (fun x : State => { x with egress := t.egress }) (ih (t.modEgress p newPass))
  have same : { startPasses s with egress := s.egress } = s := rest allPorts s
  have ports : (startPasses s).ports = s.ports := (congrArg State.ports same :)
  have mgmt : (startPasses s).mgmt = s.mgmt := (congrArg State.mgmt same :)
  have device : (startPasses s).deviceCounters = s.deviceCounters := (congrArg State.deviceCounters same :)
  exact ⟨(congrArg (fun x : State => { x with
      ports := s.ports, noise := s.noise, probes := s.probes, addr := s.addr, deviceCounters := s.deviceCounters
      mgmt := s.mgmt }) same :), fun e => by rw [ports], fun e => by rw [startPasses_egress]; rfl, by rw [mgmt], by rw [device]⟩

theorem srcEngine_ne_srcPort (p : Port) : srcEngine ≠ srcPort p := by revert p; decide

theorem bumpPort_trailing (p : Port) (c : PortCounter) (s : State) : Trailing s (bumpPort p c s) := by
  refine ⟨rfl, fun e => ?_, fun _ => rfl, rfl, rfl⟩
  have unit : (bumpPort p c s).ports[e] = if e = p then counting c s.ports[p] else s.ports[e] :=
    upd_get ..
  rw [unit]
  split
  · next h => subst h; rfl
  · rfl

/-- A monitor that comes down: the entry to DISTURBED alone sets a flag (R147). -/
theorem noiseChange_trailing {new : NoiseState} (h : new ≠ .disturbed) (p : Port) (cause : NoiseCause) (count : Nat)
    (cycle : CycleNo) (phase : Nat) (s : State) : Trailing s (noiseChange p new cause count cycle phase s) := by
  unfold noiseChange
  dsimp only
  rw [if_neg h]
  exact (Trailing.plain rfl).trans (raise_trailing (srcEngine_ne_srcPort p) cycle _ _)

theorem noiseCycle_trailing (cycle : CycleNo) (p : Port) (s : State) : Trailing s (noiseCycle cycle p s) := by
  have noise (f : Monitor → Monitor) (t : State) : Trailing t (t.modNoise p f) := .plain rfl
  have check : Trailing s (noiseCheck cycle p s) := by
    unfold noiseCheck
    refine Trailing.trans ?_ (noise _ _)
    cases s.noise[p].state with
    | clean => exact .refl s
    | watch =>
      dsimp only
      split
      · exact noiseChange_trailing (by decide) ..
      · exact noise _ s
    | disturbed =>
      dsimp only
      refine (bumpPort_trailing p .disturbedCycles s).trans ?_
      split
      · exact noiseChange_trailing (by decide) ..
      · exact noise _ _
  unfold noiseCycle
  refine Trailing.trans ?_ (noise _ _)
  split
  · exact .refl s
  · exact check

theorem probeCount_trailing (cycle : CycleNo) (q : Fin 4) (s : State) : Trailing s (probeCount cycle q s) := by
  have set (x : Probe) : Trailing s (s.setProbe q x) := .plain rfl
  unfold probeCount
  split
  · split
    · exact (set _).trans (raise_trailing (by decide) ..)
    · exact set _
  · exact .refl s

theorem ageCycle_trailing (s : State) : Trailing s (ageCycle s) := by
  have addr (f : AddrTable → AddrTable) (t : State) : Trailing t (t.modAddr f) := .plain rfl
  unfold ageCycle
  refine Trailing.trans ?_ (addr _ _)
  split
  · exact .refl s
  · unfold ageTable
    split
    · exact addr _ s
    · split
      · exact ⟨rfl, fun _ => rfl, fun _ => rfl, rfl, upd_other _ _ _ _ (by decide)⟩
      · exact addr _ s

/-- The steps of a cycle start behind the passes (R3). -/
def cycleTail (a : State) : State :=
  let b := forAll allPorts (noiseCycle a.timer.cycle) a
  ageCycle (forAll allProbes (probeCount b.timer.cycle) b)

theorem cycleTail_trailing (a : State) : Trailing a (cycleTail a) := by
  have monitors := forAll_trailing (noiseCycle_trailing a.timer.cycle) allPorts a
  unfold cycleTail
  generalize forAll allPorts (noiseCycle a.timer.cycle) a = b at monitors
  exact (monitors.trans (forAll_trailing (probeCount_trailing b.timer.cycle) allProbes b)).trans (ageCycle_trailing _)

/-! ### Before the engine -/

/-- The state that the engine's part of a cycle start begins from: the check is made, and the next cycle has begun. -/
def nextBegun (s : State) : State := (endCheck s).modTimer timerCycle

theorem cycleStart_trailing (s : State) : Trailing (engineCycle (nextBegun s)) (cycleStart s) := by
  have passes := startPasses_trailing (engineCycle (nextBegun s))
  have steps : cycleStart s = cycleTail (startPasses (engineCycle (nextBegun s))) := by
    unfold cycleStart cycleTail nextBegun
    dsimp only
  rw [steps]
  exact passes.trans (cycleTail_trailing _)

/-- What the engine finds as the next cycle has begun. -/
structure Begun (s w : State) : Prop where
  rest : { w with timer := s.timer, fault := s.fault, deviceCounters := s.deviceCounters, mgmt := s.mgmt } = s
  cycle : w.timer.cycle = s.timer.cycle + 1
  device : w.deviceCounters = s.deviceCounters
  number : w.mgmt.sources[srcEngine].number = s.mgmt.sources[srcEngine].number
  released : reportsOf 15 w.fault.inbox = 0

theorem nextBegun_begun {s : State} (silent : s.fault.inbox = []) : Begun s (nextBegun s) := by
  have checked := endCheck_endChecked s
  have cycle : (endCheck s).timer.cycle = s.timer.cycle := (congrArg Timer.cycle checked.others :)
  have only := endCheck_syncOnly s
  refine ⟨?_, ?_, checked.device, ?_, ?_⟩
  · exact (congrArg (fun x : State => { x with timer := s.timer }) only :)
  · show (endCheck s).timer.cycle + 1 = _
    rw [cycle]
  · show (endCheck s).mgmt.sources[srcEngine].number = _
    by_cases h : Missed s.timer
    · rw [endCheck_missed h]
      unfold changeSync
      split
      · rfl
      · exact congrArg (·.number) (raise_otherSource (j := srcEngine) (src := srcSync) (by decide) ..)
    · rw [endCheck_unmissed h]
  · show reportsOf 15 (endCheck s).fault.inbox = 0
    by_cases h : Missed s.timer
    · rw [endCheck_inbox h silent]
      rfl
    · rw [endCheck_unmissed h, silent]
      rfl

/-- CYCLE_START, where it is due. -/
theorem exec_cycleStart_due {s : State} (awake : Awake s) (due : s.timer.endE ≤ s.phase) :
    exec .cycleStart s = .next (takeReports (cycleStart s)) := by
  rw [exec_cycleStart_eq, event_high awake.high, if_pos (by simpa [State.cycleDue] using due)]

/-- The outcome of a cycle start against what the engine's part of it made. -/
structure Outcome (u t : State) : Prop where
  rest : { t with
    ports := u.ports, egress := u.egress, noise := u.noise, probes := u.probes, addr := u.addr
    deviceCounters := u.deviceCounters, mgmt := u.mgmt, fault := u.fault } = u
  ports : ∀ e : Port, { t.ports[e] with counters := u.ports[e].counters } = u.ports[e]
  timelines : ∀ e : Port, t.egress[e].timeline = u.egress[e].timeline
  source : t.mgmt.sources[srcEngine] = u.mgmt.sources[srcEngine]
  released : t.deviceCounters[(15 : Fin 28)] = satAdd u.deviceCounters[(15 : Fin 28)] (reportsOf 15 u.fault.inbox)

theorem cycleStart_outcome (s : State) : Outcome (engineCycle (nextBegun s)) (takeReports (cycleStart s)) := by
  have trailing := cycleStart_trailing s
  generalize engineCycle (nextBegun s) = u at trailing
  generalize cycleStart s = c at trailing
  have only := takeReports_only c
  have inbox : c.fault = u.fault := (congrArg State.fault trailing.rest :)
  refine ⟨?_, fun e => ?_, fun e => ?_, ?_, ?_⟩
  · exact (congrArg (fun x : State => { x with
      ports := u.ports, egress := u.egress, noise := u.noise, probes := u.probes, addr := u.addr
      deviceCounters := u.deviceCounters, mgmt := u.mgmt, fault := u.fault }) only.rest).trans
        (congrArg (fun x : State => { x with fault := u.fault }) trailing.rest)
  · rw [takeReports_ports]; exact trailing.ports e
  · rw [takeReports_egress]; exact trailing.timelines e
  · exact (only.sources srcEngine (by decide)).trans trailing.source
  · rw [takeReports_deviceCounters, trailing.released, inbox]

end Sys2Proof.PortLaws
end

section
/-! SUPPORT. The commit (R91) as a whole: the timelines, the engine's record, the streams' settling, and the notices of
suspensions (R93). -/

namespace Sys2Proof.PortLaws

open Sys2Proof.Machine Sys2Proof.Safety Sys2Proof.Laws Sys2Proof.CellTime

/-! ### The active timelines -/

/-- One egress takes the pending timeline as its active one (R91). -/
def copyTimeline (e : Port) (s : State) : State := s.modEgress e fun x => { x with timeline := s.engine.timelines[e] }

/-- Every egress takes the pending timeline as its active one (R91). -/
def copied (s : State) : State := forAll allPorts copyTimeline s

theorem copyTimelines_rest (ps : List Port) (s : State) : { forAll ps copyTimeline s with egress := s.egress } = s := by
  induction ps generalizing s with
  | nil => rfl
  | cons p ps ih => exact congrArg (fun x : State => { x with egress := s.egress }) (ih (copyTimeline p s))

theorem copyTimelines_timeline (ps : List Port) (s : State) (e : Port) :
    (forAll ps copyTimeline s).egress[e].timeline =
      if e ∈ ps then s.engine.timelines[e] else s.egress[e].timeline := by
  induction ps generalizing s with
  | nil => rfl
  | cons p ps ih =>
    have first : (copyTimeline p s).egress[e] = if e = p then { s.egress[p] with timeline := s.engine.timelines[p] } else s.egress[e] :=
      upd_get ..
    refine (ih (copyTimeline p s)).trans ?_
    rw [first]
    by_cases here : e = p
    · subst here
      simp [copyTimeline]
    · simp [here, copyTimeline]

theorem copied_rest (s : State) : { copied s with egress := s.egress } = s := copyTimelines_rest allPorts s

theorem copied_timeline (s : State) (e : Port) : (copied s).egress[e].timeline = s.engine.timelines[e] :=
  (copyTimelines_timeline allPorts s e).trans (if_pos (mem_allPorts e))

/-! ### The streams -/

/-- The state with its streams settled by the commit. -/
def settled (s : State) : State := forAll allStreams commitStream (copied s)

theorem commitLeg_egress (n : StreamNo) (l : Leg) (s : State) : (commitLeg n l s).egress = s.egress := by
  by_cases pending : l.pendingPl = none
  · rw [commitLeg_none pending]
  · rw [commitLeg_pending pending]
    split
    · rw [letGo_egress, dropSlot_egress]; rfl
    · rfl

theorem commitStream_egress (n : StreamNo) (s : State) : (commitStream n s).egress = s.egress := by
  cases found : s.streams[n] with
  | none => rw [commitStream_waiting fun x h => by rw [found] at h; cases h]
  | some x =>
    cases stage : x.stage with
    | placed => rw [commitStream_placed found stage]; rfl
    | active =>
      rw [commitStream_active found stage]
      exact forAll_egress (commitLeg_egress n) _ s
    | releasing =>
      have legs (l : Leg) (t : State) : (letGo n l.egress (dropSlot .released n l.egress t)).egress = t.egress := by
        rw [letGo_egress, dropSlot_egress]
      have last (t : State) : (freed n t).egress = t.egress :=
        (congrArg State.egress (probesFreed_rest t.timer.cycle n allProbes ((orphanFrames n t).setStream n none)) :)
      rw [commitStream_releasing found stage, freeReleasing_eq, last]
      exact forAll_egress legs _ s
    | queued | searching =>
      rw [commitStream_waiting fun y h => by rw [found] at h; cases h; simp [stage]]

/-- The commit of a stream counts something; what, the legs of the stream say where no two are on one egress. -/
theorem commitStream_counts (n : StreamNo) (s : State) : ∃ a, Tallied s (commitStream n s) a := by
  have other : n + 1 ≠ n := by simp
  obtain ⟨⟨a, tallied, -⟩, -⟩ := commitStream_beside other s
  exact ⟨a, tallied⟩

theorem forAll_counts {α : Type} {f : α → State → State} (h : ∀ x s, ∃ a, Tallied s (f x s) a) (xs : List α) (s : State) :
    ∃ a, Tallied s (forAll xs f s) a := by
  induction xs generalizing s with
  | nil => exact ⟨_, (Beside.refl 0 s).tallied.choose_spec.1⟩
  | cons x xs ih =>
    obtain ⟨a, first⟩ := h x s
    obtain ⟨b, rest⟩ := ih (f x s)
    exact ⟨_, first.trans rest⟩

theorem settled_counts (s : State) : ∃ a, Tallied (copied s) (settled s) a :=
  forAll_counts commitStream_counts allStreams (copied s)

theorem settled_egress (s : State) : (settled s).egress = (copied s).egress :=
  forAll_egress commitStream_egress allStreams (copied s)

/-! ### The notices (R93) -/

/-- The LEG_SUSPENDED notice that a leg raises at the commit (R93). -/
def suspension (n : StreamNo) (l : Leg) : Option NoticeData :=
  match l.pendingPl with
  | some (.suspend why kind p) => some (.legSuspended n l.egress why kind p)
  | _ => none

/-- The LEG_SUSPENDED notices that one stream raises at the commit (R93). -/
def streamSuspensions (s : State) (n : StreamNo) : List NoticeData :=
  match s.streams[n] with
  | none => []
  | some t =>
    if t.stage = .placed ∨ t.stage = .active then
      t.legs.filterMap (suspension n)
    else []

theorem suspensions_eq (s : State) : s.suspensions = allStreams.flatMap (streamSuspensions s) := rfl

/-- A leg is to be suspended. -/
def ToSuspend (l : Leg) : Prop := ∃ why k p, l.pendingPl = some (.suspend why k p)

/-- The legs of a stream none of which is to be suspended raise no notice. -/
theorem filterMap_suspensions_nil (n : StreamNo) {ls : List Leg} (none : ∀ l ∈ ls, ¬ToSuspend l) :
    ls.filterMap (suspension n) = [] := by
  refine List.filterMap_eq_nil_iff.2 fun l mem => ?_
  unfold suspension
  cases pending : l.pendingPl with
  | none => rfl
  | some x =>
    cases x with
    | place p => rfl
    | suspend why kind p => exact absurd ⟨why, kind, p, pending⟩ (none l mem)

theorem streamSuspensions_nil {s : State} {n : StreamNo}
    (h : ∀ x, s.streams[n] = some x → (x.stage = .placed ∨ x.stage = .active) → ∀ l ∈ x.legs, ¬ToSuspend l) :
    streamSuspensions s n = [] := by
  unfold streamSuspensions
  cases found : s.streams[n] with
  | none => rfl
  | some x =>
    dsimp only
    split
    · next stage => exact filterMap_suspensions_nil n (h x found stage)
    · rfl

/-- The last suspension, in stream number and egress, raises the last notice. -/
theorem suspensions_last {s : State} {n : StreamNo} {x : Stream} {front back : List Leg} {l : Leg} {why k p}
    (found : s.streams[n] = some x) (stage : x.stage = .placed ∨ x.stage = .active) (legs : x.legs = front ++ l :: back)
    (pending : l.pendingPl = some (.suspend why k p)) (behind : ∀ z ∈ back, ¬ToSuspend z)
    (above : ∀ m : StreamNo, n < m → ∀ y, s.streams[m] = some y → (y.stage = .placed ∨ y.stage = .active) →
      ∀ z ∈ y.legs, ¬ToSuspend z) : ∃ ds, s.suspensions = ds ++ [.legSuspended n l.egress why k p] := by
  obtain ⟨pre, post, split⟩ := List.append_of_mem (mem_allStreams n)
  have sorted : (pre ++ n :: post).Pairwise (· < ·) := split ▸ (List.sortedLT_finRange 128).pairwise
  have later : post.flatMap (streamSuspensions s) = [] := List.flatMap_eq_nil_iff.2 fun m mem =>
    streamSuspensions_nil (above m ((List.pairwise_cons.1 (List.pairwise_append.1 sorted).2.1).1 m mem))
  have this : suspension n l = some (.legSuspended n l.egress why k p) := by rw [suspension, pending]
  have own : streamSuspensions s n = front.filterMap (suspension n) ++ [.legSuspended n l.egress why k p] := by
    unfold streamSuspensions
    rw [found]
    dsimp only
    rw [if_pos stage, legs, List.filterMap_append, List.filterMap_cons_some this, filterMap_suspensions_nil n behind]
  refine ⟨pre.flatMap (streamSuspensions s) ++ front.filterMap (suspension n), ?_⟩
  rw [suspensions_eq, split, List.flatMap_append, List.flatMap_cons, later, own, List.append_nil, List.append_assoc]

theorem forAll_raise_rest (src : Fin 12) (cycle : CycleNo) (ds : List NoticeData) (s : State) :
    { forAll ds (raise src cycle) s with mgmt := s.mgmt } = s := by
  induction ds generalizing s with
  | nil => rfl
  | cons d ds ih => exact congrArg (fun x : State => { x with mgmt := s.mgmt }) (ih (raise src cycle d s))

theorem forAll_raise_number (src : Fin 12) (cycle : CycleNo) (ds : List NoticeData) (s : State) :
    (forAll ds (raise src cycle) s).mgmt.sources[src].number = s.mgmt.sources[src].number := by
  induction ds generalizing s with
  | nil => rfl
  | cons d ds ih => exact (ih _).trans (raised_number src cycle d s.mgmt src)

/-- Of several notices raised at a source, the last is pending (R176). -/
theorem forAll_raise_last {src : Fin 12} {s : State} (routed : s.mgmt.sources[src].number ≠ 0) (cycle : CycleNo)
    (ds : List NoticeData) (d : NoticeData) :
    ∃ w ∈ (forAll (ds ++ [d]) (raise src cycle) s).mgmt.sources[src].pending, w.cycle = cycle ∧ w.data = d := by
  have split : forAll (ds ++ [d]) (raise src cycle) s = raise src cycle d (forAll ds (raise src cycle) s) := by
    rw [forAll, List.foldl_append]; rfl
  rw [split]
  exact raise_pending (by rw [forAll_raise_number]; exact routed) cycle d

/-! ### The whole -/

/-- The engine's record of a commit (R91, R92). -/
def committedEngine (d : State) (cycle : CycleNo) (g : Engine) : Engine :=
  { g with
    finished := g.finished ++ g.deferred.map (deferredReply d), deferred := []
    lastCommit := some cycle, commitDue := false }

/-- What the commit makes of a state: its streams settled, its notices raised, and the engine's record made. -/
structure CommitMade (s t : State) : Prop where
  rest : { t with engine := (settled s).engine, mgmt := (settled s).mgmt } = settled s
  engine : t.engine = committedEngine (settled s) s.timer.cycle s.engine
  notice : s.mgmt.sources[srcEngine].number ≠ 0 → ∀ ds d, s.suspensions = ds ++ [d] →
    ∃ w ∈ t.mgmt.sources[srcEngine].pending, w.cycle = s.timer.cycle ∧ w.data = d

/-- The DEFERRED entries are finished (R92). -/
def finishing (d : State) : State :=
  d.modEngine fun g => { g with finished := g.finished ++ g.deferred.map (deferredReply d), deferred := [] }

/-- The mark of a commit (R91). -/
def commitMarked (u : State) : State := u.modEngine fun g => { g with lastCommit := some u.timer.cycle, commitDue := false }

/-- The commit from the point where the streams are settled. -/
def commitEnd (notices : List NoticeData) (d : State) : State :=
  commitMarked (forAll notices (raise srcEngine d.timer.cycle) (finishing d))

theorem commit_eq (s : State) : commit s = commitEnd s.suspensions (settled s) := by
  unfold commit commitEnd settled copied copyTimeline commitMarked finishing
  dsimp only [State.modEngine_timer]

/-- What the end of a commit makes of a state whose streams are settled. -/
structure CommitEnded (notices : List NoticeData) (d t : State) : Prop where
  rest : { t with engine := d.engine, mgmt := d.mgmt } = d
  engine : t.engine = committedEngine d d.timer.cycle d.engine
  notice : d.mgmt.sources[srcEngine].number ≠ 0 → ∀ ds last, notices = ds ++ [last] →
    ∃ w ∈ t.mgmt.sources[srcEngine].pending, w.cycle = d.timer.cycle ∧ w.data = last

theorem commitEnd_ended (notices : List NoticeData) (d : State) : CommitEnded notices d (commitEnd notices d) := by
  have rest := forAll_raise_rest srcEngine d.timer.cycle notices (finishing d)
  have raised (routed : d.mgmt.sources[srcEngine].number ≠ 0) (ds : List NoticeData) (last : NoticeData) :=
    forAll_raise_last (s := finishing d) routed d.timer.cycle ds last
  unfold commitEnd
  refine ⟨?_, ?_, fun routed ds last same => by rw [same]; exact raised routed ds last⟩
  · exact congrArg (fun x : State => { x with engine := d.engine }) rest
  · generalize forAll notices (raise srcEngine d.timer.cycle) (finishing d) = u at rest
    have engine : u.engine = (finishing d).engine := (congrArg State.engine rest :)
    have timer : u.timer = d.timer := (congrArg State.timer rest :)
    rw [commitMarked, State.modEngine_engine, engine, timer]
    rfl

theorem commit_made (s : State) : CommitMade s (commit s) := by
  obtain ⟨a, tallied⟩ := settled_counts s
  have copy := copied_rest s
  have timer : (settled s).timer = s.timer := tallied.timer.trans (congrArg State.timer copy :)
  have engine : (settled s).engine = s.engine := tallied.engine.trans (congrArg State.engine copy :)
  have mgmt : (settled s).mgmt = s.mgmt := tallied.mgmt.trans (congrArg State.mgmt copy :)
  have ended := commitEnd_ended s.suspensions (settled s)
  rw [← commit_eq] at ended
  refine ⟨ended.rest, ?_, fun routed ds last same => ?_⟩
  · rw [ended.engine, timer, engine]
  · have pending := ended.notice (by rw [mgmt]; exact routed) ds last same
    rwa [timer] at pending

end Sys2Proof.PortLaws
end

section
/-! SUPPORT. What a repair examines (R89) through a commit, and the operation that the commit guard does not hold (R86). -/

namespace Sys2Proof.PortLaws

open Sys2Proof.Machine Sys2Proof.Safety Sys2Proof.Laws Sys2Proof.CellTime

/-! ### What a repair examines -/

/-- What a repair finds of a stream: of one that is PLACED or ACTIVE, its description and the egresses of its legs (R89). -/
def served (x : Stream) : Option (Desc × List Port) :=
  if x.stage = .placed ∨ x.stage = .active then some (x.desc, x.legs.map (·.egress)) else none

/-- A repair of this kind and port examines a stream of this view (R89). -/
def examines (kind : RepairKind) (p : Port) (v : Desc × List Port) : Bool :=
  match kind with
  | .egress => v.2.any (· == p)
  | .ingress => v.1.key.ingress == p

theorem nextExamined_eq (s : State) (kind : RepairKind) (p : Port) (next : Nat) : s.nextExamined kind p next =
    allStreams.find? fun n => decide (next ≤ n.val) && (s.streams[n].bind served).any (examines kind p) := by
  unfold State.nextExamined
  congr 1
  funext n
  congr 1
  cases s.streams[n] with
  | none => rfl
  | some x =>
    dsimp only [Option.bind]
    have run : (x.stage == .placed || x.stage == .active) = decide (x.stage = .placed ∨ x.stage = .active) := by
      rw [Bool.eq_iff_iff]; simp
    rw [run]
    unfold served
    by_cases stage : x.stage = .placed ∨ x.stage = .active
    · rw [if_pos stage]
      cases kind with
      | egress => simp [stage, examines, List.any_map, Function.comp_def]
      | ingress => simp [stage, examines]
    · simp [stage]

theorem legPorts_served {s : State} {n : StreamNo} {v : Desc × List Port} (h : s.streams[n].bind served = some v) :
    s.legPorts n = v.2 := by
  unfold State.legPorts
  cases found : s.streams[n] with
  | none => rw [found] at h; cases h
  | some x =>
    rw [found, Option.bind_some, served] at h
    split at h
    · cases h; rfl
    · cases h

/-- A repair examines the same in states whose streams it finds the same. -/
theorem repairNext_served {s t : State} (h : ∀ n : StreamNo, t.streams[n].bind served = s.streams[n].bind served)
    (r : RepairRun) : t.repairNext r = s.repairNext r := by
  have examined : t.nextExamined r.kind r.port r.nextStream = s.nextExamined r.kind r.port r.nextStream := by
    simp only [nextExamined_eq, h]
  unfold State.repairNext
  rw [examined]
  cases next : s.nextExamined r.kind r.port r.nextStream with
  | none => rfl
  | some n =>
    rw [nextExamined_eq] at next
    have found := List.find?_some next
    rw [Bool.and_eq_true, Option.any_eq_true] at found
    obtain ⟨-, v, view, -⟩ := found
    dsimp only
    rw [legPorts_served view, legPorts_served ((h n).trans view)]

/-! ### The view through a commit -/

theorem served_bare (s : State) (n : StreamNo) : s.streams[n].bind served = (bare s n).bind served := by
  rw [bare]
  cases s.streams[n] <;> rfl

theorem served_onLegs {f : Leg → Leg} (h : ∀ l, (f l).egress = l.egress) (e : Port) (x : Stream) :
    served (onLegs e f x) = served x := by
  unfold served onLegs
  dsimp only
  rw [List.map_map]
  have same : ((fun l : Leg => l.egress) ∘ fun l => if l.egress == e then f l else l) = fun l => l.egress := by
    funext l
    simp only [Function.comp]
    split
    · exact h l
    · rfl
  rw [same]

/-- A change of the legs on an egress leaves what a repair finds. -/
theorem served_map_onLegs {f : Leg → Leg} (h : ∀ l, (f l).egress = l.egress) (e : Port) (x : Option Stream) :
    (x.map (onLegs e f)).bind served = x.bind served := by
  cases x with
  | none => rfl
  | some x => exact served_onLegs h e x

theorem modLeg_served {f : Leg → Leg} (h : ∀ l, (f l).egress = l.egress) (n : StreamNo) (e : Port) (s : State) (m : StreamNo) :
    (bare (s.modLeg n e f) m).bind served = (bare s m).bind served := by
  rw [modLeg_bare]
  split
  · next same => subst same; exact served_map_onLegs h e _
  · rfl

theorem emptyLeg_served (cause : Cause) (n : StreamNo) (e : Port) (s : State) (m : StreamNo) :
    (bare (letGo n e (dropSlot cause n e s)) m).bind served = (bare s m).bind served := by
  have dropped : (bare (dropSlot cause n e s) m).bind served = (bare s m).bind served := by
    rw [dropSlot_bare]
    split
    · next same => obtain ⟨rfl, -⟩ := same; exact served_map_onLegs (f := noSlot) (fun _ => rfl) e _
    · rfl
  rw [letGo_bare, ← dropped]
  split
  · next same => obtain ⟨rfl, -⟩ := same; exact served_map_onLegs (f := noRetained) (fun _ => rfl) e _
  · rfl

theorem commitLeg_served (n : StreamNo) (l : Leg) (s : State) (m : StreamNo) :
    (bare (commitLeg n l s) m).bind served = (bare s m).bind served := by
  by_cases pending : l.pendingPl = none
  · rw [commitLeg_none pending]
  · have taken (state : Option LegState) : (bare ((s.modLeg n l.egress fun k => { k with placement := placedAs l }).modLeg n l.egress
        fun k => { k with state := state, pendingPl := none }) m).bind served = (bare s m).bind served :=
      (modLeg_served (f := fun k => { k with state := state, pendingPl := none }) (fun _ => rfl) n l.egress _ m).trans
        (modLeg_served (f := fun k => { k with placement := placedAs l }) (fun _ => rfl) n l.egress s m)
    rw [commitLeg_pending pending]
    split
    · rw [emptyLeg_served, taken]
    · exact taken _

theorem activateLeg_egress (s : State) (l : Leg) : (activateLeg s l).egress = l.egress := by
  unfold activateLeg
  split <;> rfl

theorem served_activated (s : State) {x : Stream} (stage : x.stage = .placed) : served (activated s x) = served x := by
  have legs : (activated s x).legs.map (·.egress) = x.legs.map (·.egress) := by
    simp only [activated, List.map_map, Function.comp_def, activateLeg_egress]
  rw [served, legs, served, stage]
  rfl

/-- The commit of a stream leaves what a repair finds of it: a PLACED stream becomes ACTIVE, and a RELEASING one was not
examined (R44, R89). -/
theorem commitStream_served (n : StreamNo) (s : State) (m : StreamNo) :
    (bare (commitStream n s) m).bind served = (bare s m).bind served := by
  by_cases other : m = n
  · subst other
    cases found : s.streams[m] with
    | none => rw [commitStream_waiting fun x h => by rw [found] at h; cases h]
    | some x =>
      cases stage : x.stage with
      | placed =>
        rw [commitStream_placed_bare found stage, ← served_bare, found]
        exact served_activated s stage
      | active =>
        rw [commitStream_active found stage]
        have loop (ls : List Leg) (t : State) : (bare (forAll ls (commitLeg m) t) m).bind served = (bare t m).bind served := by
          induction ls generalizing t with
          | nil => rfl
          | cons l ls ih => exact (ih _).trans (commitLeg_served m l t m)
        exact loop _ s
      | releasing =>
        rw [commitStream_releasing_bare found stage, ← served_bare, found]
        simp [served, stage]
      | queued | searching =>
        rw [commitStream_waiting fun y h => by rw [found] at h; cases h; simp [stage]]
  · rw [(commitStream_beside other s).bare]

theorem settled_served (s : State) (n : StreamNo) :
    (settled s).streams[n].bind served = s.streams[n].bind served := by
  have loop (ns : List StreamNo) (t : State) : (bare (forAll ns commitStream t) n).bind served = (bare t n).bind served := by
    induction ns generalizing t with
    | nil => rfl
    | cons m ns ih => exact (ih _).trans (commitStream_served m t n)
  have streams : (copied s).streams = s.streams := (congrArg State.streams (copied_rest s) :)
  rw [served_bare, settled, loop, bare_of_streams streams, ← served_bare]

theorem CommitMade.streams {s t : State} (h : CommitMade s t) : t.streams = (settled s).streams :=
  (congrArg State.streams h.rest :)

theorem commit_repairNext (s : State) (r : RepairRun) : (commit s).repairNext r = s.repairNext r :=
  repairNext_served (fun n => by rw [(commit_made s).streams]; exact settled_served s n) r

/-! ### An operation that the commit guard does not hold -/

/-- An operation with a step still to take runs on (R77). -/
theorem endHeld_running {s : State} (place : ∀ r, s.engine.current = some (.place r) → r.verdict ≠ none ∨ r.todo ≠ [])
    (repair : ∀ r, s.engine.current = some (.repair r) → s.repairNext r ≠ none) : endHeld s = s := by
  unfold endHeld
  cases current : s.engine.current with
  | none => rfl
  | some x =>
    cases x with
    | place r =>
      refine if_neg fun held => ?_
      rw [Bool.and_eq_true, Option.isNone_iff_eq_none, List.isEmpty_iff] at held
      rcases place r current with h | h
      · exact h held.1
      · exact h held.2
    | repair r => exact if_neg fun held => repair r current (Option.isNone_iff_eq_none.1 held)

end Sys2Proof.PortLaws
end

section
/-! SUPPORT. What the commit of all streams makes of each (R45, R46, R47, R48), and what it counts of each. -/

namespace Sys2Proof.PortLaws

open Sys2Proof.Machine Sys2Proof.Safety Sys2Proof.Laws Sys2Proof.CellTime

/-! ### Figures of a leg -/

/-- Of a figure that the legs on the other egresses have none of, the sum is the leg's own. -/
theorem sum_own {ls : List Leg} (apart : (ls.map (·.egress)).Nodup) {l : Leg} (mem : l ∈ ls) {f : Leg → Nat}
    (off : ∀ z, z.egress ≠ l.egress → f z = 0) : (ls.map f).sum = f l := by
  induction ls with
  | nil => cases mem
  | cons k ks ih =>
    obtain ⟨new, apart⟩ := List.nodup_cons.1 apart
    rw [List.map_cons, List.sum_cons]
    rcases List.mem_cons.1 mem with rfl | later
    · have others : (ks.map f).sum = 0 := by
        refine List.sum_eq_zero_iff.2 fun c hc => ?_
        obtain ⟨z, hz, rfl⟩ := List.mem_map.1 hc
        exact off z fun e => new (List.mem_map.2 ⟨z, hz, e⟩)
      rw [others, Nat.add_zero]
    · rw [ih apart later, off k fun e => new (List.mem_map.2 ⟨l, later, e.symm⟩), Nat.zero_add]

theorem emptyFigures_leg (cause : Cause) (c : LegCounter) (n : StreamNo) (l : Leg) (i : Fin 13) :
    (emptyFigures cause c n l).leg n l.egress i = if i = c.index then l.slot.length else 0 := by
  simp [emptyFigures, slotTally, Tally.add, Tally.returning, Tally.none]

theorem emptyFigures_leg_off (cause : Cause) (c : LegCounter) (n : StreamNo) {l : Leg} {e : Port} (h : l.egress ≠ e) (i : Fin 13) :
    (emptyFigures cause c n l).leg n e i = 0 := by
  simp [emptyFigures, slotTally, Tally.add, Tally.returning, Tally.none, h.symm]

theorem legFigures_leg_off (s : State) (n : StreamNo) {l : Leg} {e : Port} (h : l.egress ≠ e) (i : Fin 13) :
    (legFigures s.ports[l.egress] n l).leg n e i = 0 := by
  unfold legFigures
  split
  · exact emptyFigures_leg_off _ _ n h i
  · rfl

/-- What a leg of an ACTIVE stream counts. -/
theorem legFigures_leg (u : PortUnit) (n : StreamNo) (l : Leg) (i : Fin 13) : (legFigures u n l).leg n l.egress i =
    if leaving u l = true ∧ i = (leavingCounter u l).index then l.slot.length else 0 := by
  unfold legFigures
  by_cases h : leaving u l = true
  · rw [if_pos h, emptyFigures_leg]; simp [h]
  · rw [if_neg h, if_neg fun k => h k.1]; rfl

/-- A leg's counters, of which one at most has counted. -/
theorem Tallied.legCounter {s t : State} {a : Tally} (h : Tallied s t a) {n : StreamNo} {e : Port} {k : Fin 13} {count : Nat}
    (figure : ∀ i, a.leg n e i = if i = k then count else 0) :
    t.legCounters[legIndex n e] = Table.upd s.legCounters[legIndex n e] k fun c => satAdd c count := by
  refine Vector.ext fun i hi => ?_
  have one := h.legs n e ⟨i, hi⟩
  rw [figure] at one
  refine Eq.trans one ?_
  show _ = (Table.upd s.legCounters[legIndex n e] k _)[(⟨i, hi⟩ : Fin 13)]
  rw [upd_get]
  split
  · next here => rw [here]
  · rfl

theorem Tallied.legCounter_none {s t : State} {a : Tally} (h : Tallied s t a) {n : StreamNo} {e : Port}
    (figure : ∀ i, a.leg n e i = 0) : t.legCounters[legIndex n e] = s.legCounters[legIndex n e] := by
  refine Vector.ext fun i hi => ?_
  have one := h.legs n e ⟨i, hi⟩
  rw [figure] at one
  exact one

/-! ### One stream among all -/

/-- The state once the commit has settled every stream. -/
abbrev allCommitted (b : State) : State := forAll allStreams commitStream b

theorem stream_of_bare {s t : State} {n : StreamNo} (h : bare t n = bare s n) {x : Stream} (found : s.streams[n] = some x) :
    ∃ y, t.streams[n] = some y ∧ { y with alive := x.alive } = x := by
  rw [bare_of_stream found] at h
  obtain ⟨y, hy, same⟩ := Option.map_eq_some_iff.1 h
  exact ⟨y, hy, (congrArg (fun z : Stream => { z with alive := x.alive }) same :)⟩

theorem stage_of_same {x y : Stream} (h : { y with alive := x.alive } = x) : y.stage = x.stage := (congrArg Stream.stage h :)

theorem activateLeg_congr {s t : State} (h : ∀ e : Port, legStateBy t.ports[e] = legStateBy s.ports[e]) (l : Leg) :
    activateLeg t l = activateLeg s l := by
  unfold activateLeg
  rw [h]

/-- A PLACED stream becomes ACTIVE (R45). -/
theorem allCommitted_placed {b : State} {n : StreamNo} {x : Stream} (found : b.streams[n] = some x) (stage : x.stage = .placed) :
    ∃ y, (allCommitted b).streams[n] = some y ∧ { y with alive := 0 } = activated b x := by
  obtain ⟨u, before, after⟩ := commitStreams_split n b
  obtain ⟨x', found', same⟩ := stream_of_bare before.bare found
  have stage' : x'.stage = .placed := (stage_of_same same).trans stage
  have view := after.bare.trans (commitStream_placed_bare found' stage')
  obtain ⟨y, hy, record⟩ := Option.map_eq_some_iff.1 view
  refine ⟨y, hy, record.trans ?_⟩
  have desc : x'.desc = x.desc := (congrArg Stream.desc same :)
  have legs : x'.legs = x.legs := (congrArg Stream.legs same :)
  have activates : activateLeg u = activateLeg b := funext (activateLeg_congr before.stateBy)
  rw [activated, activates, before.timer, legs, desc, activated]

/-- A RELEASING stream becomes FREE (R46). -/
theorem allCommitted_releasing {b : State} {n : StreamNo} {x : Stream} (found : b.streams[n] = some x)
    (stage : x.stage = .releasing) : (allCommitted b).streams[n] = none := by
  obtain ⟨u, before, after⟩ := commitStreams_split n b
  obtain ⟨x', found', same⟩ := stream_of_bare before.bare found
  have stage' : x'.stage = .releasing := (stage_of_same same).trans stage
  exact Option.map_eq_none_iff.1 (after.bare.trans (commitStream_releasing_bare found' stage'))

/-- A stream that waits for the engine stands through the commit. -/
theorem allCommitted_waiting {b : State} {n : StreamNo} {x : Stream} (found : b.streams[n] = some x)
    (stage : x.stage = .queued ∨ x.stage = .searching) :
    ∃ y, (allCommitted b).streams[n] = some y ∧ { y with alive := x.alive } = x := by
  obtain ⟨u, before, after⟩ := commitStreams_split n b
  obtain ⟨x', found', same⟩ := stream_of_bare before.bare found
  have stage' := stage_of_same same
  rw [commitStream_waiting fun y hy => by rw [found'] at hy; cases hy; rw [stage']; exact stage] at after
  exact stream_of_bare (after.bare.trans before.bare) found

theorem apart_of_bare {s t : State} {n : StreamNo} (h : bare t n = bare s n) {x : Stream} (found : s.streams[n] = some x)
    (apart : LegsApart x) : ∀ y, t.streams[n] = some y → LegsApart y := by
  intro y hy
  obtain ⟨z, hz, same⟩ := stream_of_bare h found
  rw [hz] at hy
  cases hy
  have legs : y.legs = x.legs := (congrArg Stream.legs same :)
  rwa [LegsApart, legs]

/-- An ACTIVE stream's legs take what was pending (R47, R48). -/
theorem allCommitted_active {b : State} {n : StreamNo} {x : Stream} (found : b.streams[n] = some x) (stage : x.stage = .active)
    (apart : LegsApart x) : ∃ y, (allCommitted b).streams[n] = some y ∧
      { y with alive := x.alive } = { x with legs := x.legs.map fun l => committed b.ports[l.egress] l l } := by
  obtain ⟨u, before, after⟩ := commitStreams_split n b
  obtain ⟨x', found', same⟩ := stream_of_bare before.bare found
  have stage' : x'.stage = .active := (stage_of_same same).trans stage
  have view := after.bare.trans (commitStream_active_bare found' stage' (apart_of_bare before.bare found apart x' found'))
  obtain ⟨y, hy, record⟩ := Option.map_eq_some_iff.1 view
  have legs : x'.legs = x.legs := (congrArg Stream.legs same :)
  have takes (l : Leg) : committed u.ports[l.egress] l l = committed b.ports[l.egress] l l := by
    rw [committed_congr (before.stateBy l.egress)]
  simp only [legs, takes] at record
  refine ⟨y, hy, (congrArg (fun z : Stream => { z with alive := x.alive }) record).trans ?_⟩
  exact congrArg (fun z : Stream => { z with legs := x.legs.map fun l : Leg => committed b.ports[l.egress] l l }) same

/-- What the commit of all streams counts of one, whose legs are apart. -/
structure OwnFigures (b d : State) (n : StreamNo) (a : Tally) : Prop where
  legCounter : ∀ (e : Port) (k : Fin 13) (count : Nat), (∀ i, a.leg n e i = if i = k then count else 0) →
    d.legCounters[legIndex n e] = Table.upd b.legCounters[legIndex n e] k fun c => satAdd c count
  silent : ∀ e : Port, (∀ i, a.leg n e i = 0) → d.legCounters[legIndex n e] = b.legCounters[legIndex n e]
  flag : ∀ (e : Port) (k : Nat), (a.flags e).getLsbD k = true →
    d.ports[e].flags.getLsbD k = (b.ports[e].flags.getLsbD k || b.ports[e].flagMask.getLsbD k)

theorem allCommitted_figures {b : State} {n : StreamNo} {x : Stream} (found : b.streams[n] = some x) (apart : LegsApart x) :
    OwnFigures b (allCommitted b) n (streamTally b n) := by
  obtain ⟨u, before, after⟩ := commitStreams_split n b
  have own := commitStream_tallied (s := u) (n := n) (apart_of_bare before.bare found apart)
  rw [streamTally_beside before] at own
  refine ⟨fun e k count figure => ?_, fun e none => ?_, fun e k set => ?_⟩
  · rw [after.legCounters, own.legCounter figure, before.legCounters]
  · rw [after.legCounters, own.legCounter_none none, before.legCounters]
  · obtain ⟨mask, f, first⟩ := before.flag e k
    obtain ⟨-, g, last⟩ := after.flag e k
    have counted := own.ports e
    rw [last, counted.flags, counted.mask, BitVec.getLsbD_or, BitVec.getLsbD_and, set, first, mask]
    cases b.ports[e].flags.getLsbD k <;> cases b.ports[e].flagMask.getLsbD k <;> cases f <;> cases g <;> rfl

theorem streamTally_active {b : State} {n : StreamNo} {x : Stream} (found : b.streams[n] = some x) (stage : x.stage = .active) :
    streamTally b n = .sum (x.legs.map fun l => legFigures b.ports[l.egress] n l) := by
  rw [streamTally, bare_of_stream found, Option.elim]
  simp only [stage]

theorem streamTally_releasing {b : State} {n : StreamNo} {x : Stream} (found : b.streams[n] = some x)
    (stage : x.stage = .releasing) :
    streamTally b n = (Tally.sum (x.legs.map (emptyFigures .released .released n))).add (.freeing n) := by
  rw [streamTally, bare_of_stream found, Option.elim]
  simp only [stage]

theorem streamTally_other {b : State} {n : StreamNo} {x : Stream} (found : b.streams[n] = some x)
    (active : x.stage ≠ .active) (releasing : x.stage ≠ .releasing) : streamTally b n = .none := by
  rw [streamTally, bare_of_stream found, Option.elim]
  cases stage : x.stage with
  | active => exact absurd stage active
  | releasing => exact absurd stage releasing
  | placed | queued | searching => rfl

/-- What a leg of an ACTIVE stream has counted. -/
theorem streamTally_active_leg {b : State} {n : StreamNo} {x : Stream} (found : b.streams[n] = some x) (stage : x.stage = .active)
    (apart : LegsApart x) {l : Leg} (mem : l ∈ x.legs) (i : Fin 13) : (streamTally b n).leg n l.egress i =
      if leaving b.ports[l.egress] l = true ∧ i = (leavingCounter b.ports[l.egress] l).index then l.slot.length else 0 := by
  rw [streamTally_active found stage, Tally.sum_leg, List.map_map]
  exact (sum_own apart mem fun z other => legFigures_leg_off b n other i).trans (legFigures_leg _ n l i)

theorem streamTally_releasing_leg {b : State} {n : StreamNo} {x : Stream} (found : b.streams[n] = some x)
    (stage : x.stage = .releasing) (apart : LegsApart x) {l : Leg} (mem : l ∈ x.legs) (i : Fin 13) :
    (streamTally b n).leg n l.egress i = if i = 12 then l.slot.length else 0 := by
  have figure : (streamTally b n).leg n l.egress i = (Tally.sum (x.legs.map (emptyFigures .released .released n))).leg n l.egress i := by
    rw [streamTally_releasing found stage]
    exact Nat.add_zero _
  rw [figure, Tally.sum_leg, List.map_map]
  exact (sum_own apart mem fun z other => emptyFigures_leg_off _ _ n other i).trans (emptyFigures_leg .released .released n l i)

/-- A frame dropped with a RELEASING stream sets MOTION_DROP (R36, R46). -/
theorem streamTally_releasing_flag {b : State} {n : StreamNo} {x : Stream} (found : b.streams[n] = some x)
    (stage : x.stage = .releasing) {l : Leg} (mem : l ∈ x.legs) (held : l.slot ≠ []) :
    ((streamTally b n).flags l.egress).getLsbD 3 = true := by
  have sum : ((Tally.sum (x.legs.map (emptyFigures .released .released n))).flags l.egress).getLsbD 3 = true := by
    rw [Tally.sum_flags, List.any_eq_true]
    refine ⟨_, List.mem_map_of_mem mem, ?_⟩
    simp [emptyFigures, slotTally, Tally.add, Tally.returning, Tally.none, held, motionDrop_getLsbD]
  rw [streamTally_releasing found stage]
  refine BitVec.getLsbD_or.trans ?_
  rw [sum]
  rfl

end Sys2Proof.PortLaws
end

section
/-! SUPPORT. What the commit counts of all streams together (R46, R48, R124), and the cycle start that makes it (R3, R91). -/

namespace Sys2Proof.PortLaws

open Sys2Proof.Machine Sys2Proof.Safety Sys2Proof.Laws Sys2Proof.CellTime

/-! ### All streams -/

/-- The legs of a stream that the commit empties (R46, R48). -/
def emptiedLegs (ports : Table PortUnit 8) (x : Stream) : List Leg :=
  match x.stage with
  | .releasing => x.legs
  | .active => x.legs.filter fun l => leaving ports[l.egress] l
  | _ => []

/-- The frames dropped with a RELEASING stream (R46). -/
def releasedFrames (x : Stream) : Nat := if x.stage = .releasing then (x.legs.map fun l => l.slot.length).sum else 0

/-- The streams that are not FREE, in order. -/
def records (s : State) : List Stream := (List.finRange 128).filterMap fun n => s.streams[n]

theorem flatMap_filterMap_elim {α β γ : Type} (f : α → Option β) (g : β → List γ) (xs : List α) :
    (xs.filterMap f).flatMap g = xs.flatMap fun x => (f x).elim [] g := by
  induction xs with
  | nil => rfl
  | cons x xs ih => cases h : f x <;> simp [h, ih]

theorem sum_filterMap_elim {α β : Type} (f : α → Option β) (g : β → Nat) (xs : List α) :
    ((xs.filterMap f).map g).sum = (xs.map fun x => (f x).elim 0 g).sum := by
  induction xs with
  | nil => rfl
  | cons x xs ih => cases h : f x <;> simp [h, ih]

theorem legFigures_ids (u : PortUnit) (n : StreamNo) (l : Leg) :
    (legFigures u n l).ids = if leaving u l then l.slot ++ l.retained else [] := by
  unfold legFigures
  split <;> rfl

theorem flatMap_filter_ite {α β : Type} (p : α → Bool) (g : α → List β) (xs : List α) :
    (xs.filter p).flatMap g = xs.flatMap fun x => if p x then g x else [] := by
  induction xs with
  | nil => rfl
  | cons x xs ih => cases h : p x <;> simp [h, ih]

theorem streamTally_ids (b : State) (n : StreamNo) : (streamTally b n).ids =
    (b.streams[n]).elim [] fun x => (emptiedLegs b.ports x).flatMap fun l => l.slot ++ l.retained := by
  cases found : b.streams[n] with
  | none => rw [streamTally, bare, found]; rfl
  | some x =>
    rw [Option.elim, emptiedLegs]
    cases stage : x.stage with
    | active =>
      rw [streamTally_active found stage, Tally.sum_ids, List.flatMap_map]
      simp only [legFigures_ids, flatMap_filter_ite]
    | releasing =>
      rw [streamTally_releasing found stage]
      refine (List.append_nil _).trans ?_
      rw [Tally.sum_ids, List.flatMap_map]
      rfl
    | placed | queued | searching =>
      rw [streamTally_other found (by simp [stage]) (by simp [stage])]
      rfl

/-- The frames that the commit returns (R46, R48). -/
theorem streamTallies_ids (b : State) : (Tally.sum (allStreams.map (streamTally b))).ids =
    (records b).flatMap fun x => (emptiedLegs b.ports x).flatMap fun l => l.slot ++ l.retained := by
  rw [Tally.sum_ids, List.flatMap_map, records, flatMap_filterMap_elim]
  exact List.flatMap_congr fun n _ => streamTally_ids b n

/-- No frame that leaves with a leg's state is dropped as RELEASED (R48). -/
theorem leavingCause_total (u : PortUnit) (l : Leg) : (DeviceCounter.total (leavingCause u l)).index ≠ 15 := by
  unfold leavingCause
  cases became u l with
  | none => decide
  | some x => cases x <;> decide

theorem emptyFigures_reports (cause : Cause) (c : LegCounter) (n : StreamNo) (l : Leg) (i : Fin 28) :
    (emptyFigures cause c n l).reports i = if i = (DeviceCounter.total cause).index then l.slot.length else 0 := rfl

theorem streamTally_reports (b : State) (n : StreamNo) :
    (streamTally b n).reports 15 = (b.streams[n]).elim 0 releasedFrames := by
  cases found : b.streams[n] with
  | none => rw [streamTally, bare, found]; rfl
  | some x =>
    rw [Option.elim, releasedFrames]
    cases stage : x.stage with
    | active =>
      rw [streamTally_active found stage, Tally.sum_reports, List.map_map]
      refine List.sum_eq_zero_iff.2 fun c hc => ?_
      obtain ⟨l, -, rfl⟩ := List.mem_map.1 hc
      simp only [Function.comp, legFigures]
      split
      · rw [emptyFigures_reports, if_neg (leavingCause_total _ l).symm]
      · rfl
    | releasing =>
      rw [streamTally_releasing found stage]
      refine (Nat.add_zero _).trans ?_
      rw [Tally.sum_reports, List.map_map, if_pos rfl]
      congr 1
    | placed | queued | searching =>
      rw [streamTally_other found (by simp [stage]) (by simp [stage])]
      rfl

theorem streamTallies_reports (b : State) :
    (Tally.sum (allStreams.map (streamTally b))).reports 15 = ((records b).map releasedFrames).sum := by
  rw [Tally.sum_reports, List.map_map, records, sum_filterMap_elim]
  congr 1
  exact List.map_congr_left fun n _ => streamTally_reports b n

theorem sum_not_freed {as : List Tally} (h : ∀ a ∈ as, ∀ m, a.freed m = false) (m : StreamNo) :
    (Tally.sum as).freed m = false := by
  rw [Tally.sum_freed, List.any_eq_false]
  exact fun a mem => by rw [h a mem m]; simp

theorem streamTally_freed (b : State) (n m : StreamNo) :
    (streamTally b n).freed m = (m == n && b.streams[n].any fun x => x.stage == .releasing) := by
  cases found : b.streams[n] with
  | none => rw [streamTally, bare, found]; simp [Tally.none]
  | some x =>
    rw [Option.any_some]
    cases stage : x.stage with
    | active =>
      rw [streamTally_active found stage, sum_not_freed fun a mem k => ?_]
      · exact (Bool.and_false _).symm
      · obtain ⟨l, -, rfl⟩ := List.mem_map.1 mem
        unfold legFigures
        split <;> rfl
    | releasing =>
      have legs : (Tally.sum (x.legs.map (emptyFigures .released .released n))).freed m = false :=
        sum_not_freed (fun a mem k => by obtain ⟨l, -, rfl⟩ := List.mem_map.1 mem; rfl) m
      rw [streamTally_releasing found stage]
      show ((Tally.sum _).freed m || m == n) = _
      rw [legs]
      simp
    | placed | queued | searching =>
      rw [streamTally_other found (by simp [stage]) (by simp [stage])]
      exact (Bool.and_false _).symm

/-- The streams that become FREE (R46). -/
theorem streamTallies_freed (b : State) : (Tally.sum (allStreams.map (streamTally b))).freed =
    fun n => b.streams[n].any fun x => x.stage == .releasing := by
  funext n
  rw [Tally.sum_freed, List.any_map, Bool.eq_iff_iff, List.any_eq_true]
  simp only [Function.comp, streamTally_freed, Bool.and_eq_true, beq_iff_eq]
  constructor
  · rintro ⟨m, -, rfl, h⟩
    exact h
  · exact fun h => ⟨n, mem_allStreams n, rfl, h⟩

/-! ### The cycle start that commits -/

/-- The state in which the commit settles the streams: the next cycle has begun, and the timelines are active. -/
structure Onset (s b : State) : Prop where
  rest : { b with
    timer := s.timer, fault := s.fault, deviceCounters := s.deviceCounters, mgmt := s.mgmt, egress := s.egress } = s
  cycle : b.timer.cycle = s.timer.cycle + 1
  device : b.deviceCounters = s.deviceCounters
  released : reportsOf 15 b.fault.inbox = 0

theorem Begun.onset {s w : State} (h : Begun s w) : Onset s (copied w) := by
  have copy := copied_rest w
  have timer : (copied w).timer = w.timer := (congrArg State.timer copy :)
  have fault : (copied w).fault = w.fault := (congrArg State.fault copy :)
  have device : (copied w).deviceCounters = w.deviceCounters := (congrArg State.deviceCounters copy :)
  refine ⟨?_, by rw [timer, h.cycle], device.trans h.device, by rw [fault, h.released]⟩
  have egress : w.egress = s.egress := (congrArg State.egress h.rest :)
  refine (congrArg (fun x : State => { x with
    timer := s.timer, fault := s.fault, deviceCounters := s.deviceCounters, mgmt := s.mgmt, egress := s.egress }) copy).trans ?_
  exact (congrArg (fun x : State => { x with egress := s.egress }) h.rest)

theorem Begun.engine {s w : State} (h : Begun s w) : w.engine = s.engine := (congrArg State.engine h.rest :)
theorem Begun.streams {s w : State} (h : Begun s w) : w.streams = s.streams := (congrArg State.streams h.rest :)
theorem Begun.ports {s w : State} (h : Begun s w) : w.ports = s.ports := (congrArg State.ports h.rest :)
theorem Begun.egress {s w : State} (h : Begun s w) : w.egress = s.egress := (congrArg State.egress h.rest :)
theorem Onset.streams {s b : State} (h : Onset s b) : b.streams = s.streams := (congrArg State.streams h.rest :)
theorem Onset.ports {s b : State} (h : Onset s b) : b.ports = s.ports := (congrArg State.ports h.rest :)
theorem Onset.legCounters {s b : State} (h : Onset s b) : b.legCounters = s.legCounters := (congrArg State.legCounters h.rest :)
theorem Onset.buffer {s b : State} (h : Onset s b) : b.buffer = s.buffer := (congrArg State.buffer h.rest :)

theorem engineCycle_commits {w : State} (due : w.engine.commitDue = true) : engineCycle w = endHeld (commit w) := by
  rw [engineCycle, if_pos due]

theorem suspensions_congr {s w : State} (h : w.streams = s.streams) : w.suspensions = s.suspensions := by
  have same : streamSuspensions w = streamSuspensions s := by
    funext n
    unfold streamSuspensions
    rw [h]
  rw [suspensions_eq, same, suspensions_eq]

/-- What a cycle start with a commit makes of the state, where no operation was held: the streams are settled from `b` on. -/
structure Settling (s b t : State) : Prop where
  onset : Onset s b
  streams : t.streams = (allCommitted b).streams
  legCounters : t.legCounters = (allCommitted b).legCounters
  buffer : t.buffer = (allCommitted b).buffer
  flags : ∀ e : Port, t.ports[e].flags = (allCommitted b).ports[e].flags
  timelines : ∀ e : Port, t.egress[e].timeline = s.engine.timelines[e]
  engine : t.engine = committedEngine (allCommitted b) (s.timer.cycle + 1) s.engine
  released : t.deviceCounters[(15 : Fin 28)] =
    satAdd (allCommitted b).deviceCounters[(15 : Fin 28)] (reportsOf 15 (allCommitted b).fault.inbox)
  notice : s.mgmt.sources[srcEngine].number ≠ 0 → ∀ ds d, s.suspensions = ds ++ [d] →
    ∃ w ∈ t.mgmt.sources[srcEngine].pending, w.cycle = s.timer.cycle + 1 ∧ w.data = d

theorem cycleStart_settling {s : State} (silent : s.fault.inbox = []) (due : s.engine.commitDue = true)
    (place : ∀ r, s.engine.current = some (.place r) → r.verdict ≠ none ∨ r.todo ≠ [])
    (repair : ∀ r, s.engine.current = some (.repair r) → s.repairNext r ≠ none) :
    Settling s (copied (nextBegun s)) (takeReports (cycleStart s)) := by
  have begins := nextBegun_begun silent
  have outcome := cycleStart_outcome s
  generalize nextBegun s = w at begins outcome
  generalize takeReports (cycleStart s) = t at outcome
  have made := commit_made w
  have engine := made.engine
  rw [begins.engine, begins.cycle] at engine
  have still : endHeld (commit w) = commit w := by
    refine endHeld_running (fun r current => ?_) fun r current => ?_
    · rw [engine] at current
      exact place r current
    · rw [engine] at current
      rw [commit_repairNext, repairNext_served (s := s) fun n => by rw [begins.streams]]
      exact repair r current
  rw [engineCycle_commits (by rw [begins.engine]; exact due), still] at outcome
  have ports : (commit w).ports = (settled w).ports := (congrArg State.ports made.rest :)
  have egress : (commit w).egress = (settled w).egress := (congrArg State.egress made.rest :)
  have device : (commit w).deviceCounters = (settled w).deviceCounters := (congrArg State.deviceCounters made.rest :)
  have fault : (commit w).fault = (settled w).fault := (congrArg State.fault made.rest :)
  refine
    { onset := begins.onset
      streams := (congrArg State.streams outcome.rest :).trans (congrArg State.streams made.rest :)
      legCounters := (congrArg State.legCounters outcome.rest :).trans (congrArg State.legCounters made.rest :)
      buffer := (congrArg State.buffer outcome.rest :).trans (congrArg State.buffer made.rest :)
      flags := fun e => ?_
      timelines := fun e => ?_
      engine := (congrArg State.engine outcome.rest :).trans engine
      released := ?_
      notice := fun routed ds d last => ?_ }
  · exact (congrArg PortUnit.flags (outcome.ports e) :).trans (by rw [ports]; rfl)
  · rw [outcome.timelines, egress, settled_egress, copied_timeline, begins.engine]
  · rw [outcome.released, device, fault, settled]
  · have pending := made.notice (by rw [begins.number]; exact routed) ds d ((suspensions_congr begins.streams).trans last)
    rw [begins.cycle] at pending
    obtain ⟨n, mem, said⟩ := pending
    exact ⟨n, by rw [outcome.source]; exact mem, said⟩

end Sys2Proof.PortLaws
end

section
/-! SUPPORT. A cycle start with a commit, stream by stream and reply by reply, as the statement on the commit puts it (R91). -/

namespace Sys2Proof.PortLaws

open Sys2Proof.Machine Sys2Proof.Safety Sys2Proof.Laws Sys2Proof.CellTime

/-! ### The whole -/

theorem returned_congr_left {s b t : State} {ids : List FrameId} {freed : StreamNo → Bool} (h : b.buffer = s.buffer)
    (k : Returned b t ids freed) : Returned s t ids freed := by
  have frame (id : FrameId) : b.frame id = s.frame id := by rw [State.frame, h]; rfl
  exact ⟨by rw [← h]; exact k.handles, fun id none => k.absent id ((frame id).trans none),
    fun id r stored => k.frames id r ((frame id).trans stored), fun nodup => by rw [← h]; exact k.cells (by rw [h]; exact nodup)⟩

/-- The references returned and the frames dropped with RELEASING streams, the legs of every stream being apart. -/
theorem Settling.counts {s b t : State} (h : Settling s b t) (apart : ∀ x ∈ records s, LegsApart x) :
    t.deviceCounters[(15 : Fin 28)] = satAdd s.deviceCounters[(15 : Fin 28)] ((records s).map releasedFrames).sum ∧
    Returned s t ((records s).flatMap fun x => (emptiedLegs s.ports x).flatMap fun l => l.slot ++ l.retained)
      fun n => s.streams[n].any fun x => x.stage == .releasing := by
  have streams := h.onset.streams
  have same : records b = records s := by rw [records, streams, records]
  have all := forAll_commitStream_tallied (ns := allStreams) (List.nodup_finRange 128) (s := b) fun n _ x found =>
    apart x (List.mem_filterMap.2 ⟨n, List.mem_finRange n, by rw [← streams]; exact found⟩)
  have device : (allCommitted b).deviceCounters = s.deviceCounters := all.deviceCounters.trans h.onset.device
  constructor
  · rw [h.released, device, all.reports, h.onset.released, streamTallies_reports, same, Nat.zero_add]
  · have returned := all.returned
    rw [streamTallies_ids, streamTallies_freed, same, h.onset.ports, streams] at returned
    exact returned_congr_left h.onset.buffer (returned_congr h.buffer returned)

/-- The replies of a commit, in the order of the DEFERRED entries (R92). -/
theorem getElem?_finished {α β : Type} (done : List β) (f : α → β) (front : List α) (x : α) (back : List α) :
    (done ++ (front ++ x :: back).map f)[done.length + front.length]? = some (f x) := by
  rw [List.getElem?_append_right (Nat.le_add_right _ _), Nat.add_sub_cancel_left, List.map_append,
    List.getElem?_append_right (by rw [List.length_map]), List.length_map, Nat.sub_self]
  rfl

theorem Settling.finished {s b t : State} (h : Settling s b t) {front back : List Entry} {x : Entry}
    (deferred : s.engine.deferred = front ++ x :: back) :
    t.engine.finished[s.engine.finished.length + front.length]? = some (deferredReply (allCommitted b) x) := by
  rw [h.engine, committedEngine, deferred]
  exact getElem?_finished ..

theorem Settling.cycle {s b t : State} (h : Settling s b t) : (allCommitted b).timer.cycle = s.timer.cycle + 1 := by
  obtain ⟨a, counted⟩ := forAll_counts commitStream_counts allStreams b
  rw [counted.timer, h.onset.cycle]

/-! ### A PLACED stream (R45) -/

/-- What a PLACED stream is once it is ACTIVE. -/
structure Activated (s : State) (x y : Stream) : Prop where
  stage : y.stage = .active
  desc : y.desc = x.desc
  firstActive : y.firstActive = some (s.timer.cycle + 1)
  legs : y.legs.map (fun l => (l.egress, l.pendingPl, l.slot, l.missStreak, l.missNotified)) =
    x.legs.map (fun l => (l.egress, none, [], 0, false))
  placed : ∀ i (h : i < x.legs.length) (h' : i < y.legs.length),
    (∀ p, x.legs[i].pendingPl = some (.place p) →
      y.legs[i].placement = some p ∧ y.legs[i].state = some (legStateBy s.ports[x.legs[i].egress])) ∧
    (ToSuspend x.legs[i] → y.legs[i].placement = none ∧ y.legs[i].state = some .suspended)

theorem Settling.placed {s b t : State} (h : Settling s b t) {n : StreamNo} {x : Stream} (found : s.streams[n] = some x)
    (stage : x.stage = .placed) : ∃ y, t.streams[n] = some y ∧ Activated s x y := by
  obtain ⟨y, hy, record⟩ := allCommitted_placed (b := b) (by rw [h.onset.streams]; exact found) stage
  have legs : y.legs = x.legs.map (activateLeg b) := (congrArg Stream.legs record :)
  refine ⟨y, by rw [h.streams]; exact hy, (congrArg Stream.stage record :), (congrArg Stream.desc record :), ?_, ?_, ?_⟩
  · exact (congrArg Stream.firstActive record :).trans (by rw [activated, h.onset.cycle])
  · rw [legs, List.map_map]
    refine List.map_congr_left fun l _ => ?_
    simp only [Function.comp, activateLeg]
    split <;> rfl
  · intro i hi hi'
    have leg : y.legs[i] = activateLeg b x.legs[i] := by simp only [legs, List.getElem_map]
    rw [leg]
    refine ⟨fun p pending => ?_, fun ⟨why, k, p, pending⟩ => ?_⟩
    · rw [activateLeg, pending, h.onset.ports]
      exact ⟨rfl, rfl⟩
    · rw [activateLeg, pending]
      exact ⟨rfl, rfl⟩

/-! ### A RELEASING stream (R46) -/

theorem Settling.releasing {s b t : State} (h : Settling s b t) {n : StreamNo} {x : Stream} (found : s.streams[n] = some x)
    (stage : x.stage = .releasing) : t.streams[n] = none ∧ (LegsApart x → ∀ l ∈ x.legs,
      t.legCounters[legIndex n l.egress] =
        Table.upd s.legCounters[legIndex n l.egress] 12 (fun c => satAdd c l.slot.length) ∧
      (l.slot ≠ [] → t.ports[l.egress].flags.getLsbD 3 =
        (s.ports[l.egress].flags.getLsbD 3 || s.ports[l.egress].flagMask.getLsbD 3))) := by
  have here : b.streams[n] = some x := by rw [h.onset.streams]; exact found
  refine ⟨by rw [h.streams]; exact allCommitted_releasing here stage, fun apart l mem => ⟨?_, fun held => ?_⟩⟩
  · rw [h.legCounters, ← h.onset.legCounters]
    exact (allCommitted_figures here apart).legCounter l.egress 12 _ (streamTally_releasing_leg here stage apart mem)
  · rw [h.flags, ← h.onset.ports]
    exact (allCommitted_figures here apart).flag l.egress 3 (streamTally_releasing_flag here stage mem held)

/-! ### An ACTIVE stream (R47, R48) -/

theorem committed_eq (u : PortUnit) (l : Leg) : committed u l l = { l with
    state := became u l, placement := placedAs l, pendingPl := none
    slot := if leaving u l then [] else l.slot, retained := if leaving u l then [] else l.retained } := by
  unfold committed
  by_cases none : l.pendingPl = none
  · rw [if_pos none, leaving_none none, became, placedAs, none]
    obtain ⟨_, _, _, _, _, _, _, _⟩ := l
    cases none
    rfl
  · rw [if_neg none]
    by_cases leaves : leaving u l = true
    · rw [if_pos leaves, if_pos leaves, if_pos leaves]; rfl
    · rw [if_neg leaves, if_neg leaves, if_neg leaves]; rfl

/-- The counter of the drops of a leg that leaves LIVE for a state (R49). -/
theorem leavingCounter_index {u : PortUnit} {l : Leg} {k : Fin 13} (h : (became u l = some .dormant ∧ k = 9) ∨
    (became u l = some .mismatch ∧ k = 10) ∨ (became u l = some .suspended ∧ k = 11)) :
    (leavingCounter u l).index = k := by
  unfold leavingCounter
  rcases h with ⟨new, rfl⟩ | ⟨new, rfl⟩ | ⟨new, rfl⟩ <;> rw [new] <;> rfl

/-- What the counters of the legs of an ACTIVE stream show after the commit. -/
theorem Settling.active_counters {s b t : State} (h : Settling s b t) {n : StreamNo} {x : Stream} (found : s.streams[n] = some x)
    (stage : x.stage = .active) (apart : LegsApart x) {l : Leg} (mem : l ∈ x.legs) :
    (leaving s.ports[l.egress] l = false → t.legCounters[legIndex n l.egress] = s.legCounters[legIndex n l.egress]) ∧
    (∀ k : Fin 13, leaving s.ports[l.egress] l = true → ((became s.ports[l.egress] l = some .dormant ∧ k = 9) ∨
        (became s.ports[l.egress] l = some .mismatch ∧ k = 10) ∨ (became s.ports[l.egress] l = some .suspended ∧ k = 11)) →
      t.legCounters[legIndex n l.egress] =
        Table.upd s.legCounters[legIndex n l.egress] k fun c => satAdd c l.slot.length) := by
  have here : b.streams[n] = some x := by rw [h.onset.streams]; exact found
  have own := allCommitted_figures here apart
  have figure := streamTally_active_leg here stage apart mem
  simp only [h.onset.ports] at figure
  rw [h.legCounters, ← h.onset.legCounters]
  refine ⟨fun stays => own.silent l.egress fun i => ?_, fun k leaves state => own.legCounter l.egress k _ fun i => ?_⟩
  · rw [figure, stays]
    exact if_neg fun both => absurd both.1 (by decide)
  · rw [figure, leavingCounter_index state, leaves]
    simp

/-- An ACTIVE stream after the commit. -/
theorem Settling.active {s b t : State} (h : Settling s b t) {n : StreamNo} {x : Stream} (found : s.streams[n] = some x)
    (stage : x.stage = .active) (apart : LegsApart x) : ∃ y, t.streams[n] = some y ∧ { y with alive := x.alive, legs := x.legs } = x ∧
      y.legs = x.legs.map (fun l => { l with
        state := became s.ports[l.egress] l, placement := placedAs l, pendingPl := none
        slot := if leaving s.ports[l.egress] l then [] else l.slot
        retained := if leaving s.ports[l.egress] l then [] else l.retained }) := by
  obtain ⟨y, hy, record⟩ := allCommitted_active (b := b) (by rw [h.onset.streams]; exact found) stage apart
  refine ⟨y, by rw [h.streams]; exact hy, ?_, ?_⟩
  · exact (congrArg (fun z : Stream => { z with legs := x.legs }) record :)
  · refine (congrArg Stream.legs record :).trans (List.map_congr_left fun l _ => ?_)
    rw [committed_eq, h.onset.ports]

/-- A stream that waits for the engine. -/
theorem Settling.waiting {s b t : State} (h : Settling s b t) {n : StreamNo} {x : Stream} (found : s.streams[n] = some x)
    (stage : x.stage = .queued ∨ x.stage = .searching) : ∃ y, t.streams[n] = some y ∧ { y with alive := x.alive } = x := by
  rw [h.streams]
  exact allCommitted_waiting (by rw [h.onset.streams]; exact found) stage

end Sys2Proof.PortLaws
end

section
/-! SUPPORT. The results of an operation written at its end (R76, R79): pending placements, pending timelines and ceilings. -/

namespace Sys2Proof.PortLaws

open Sys2Proof.Machine Sys2Proof.Safety Sys2Proof.Laws Sys2Proof.CellTime

/-! ### One result -/

/-- The result of a leg step with its stream and egress. -/
abbrev Result : Type := StreamNo × Port × LegResult

/-- The pending placement that a result of an operation writes (R76, R79). -/
def pendingOf (kind : RepairKind) (port : Port) : LegResult → PendingPlacement
  | .placed p => .place p
  | .refused why => .suspend why kind port

/-- A leg takes a pending placement. -/
def pend (x : PendingPlacement) (l : Leg) : Leg := { l with pendingPl := some x }

/-- A result is written at the end of its operation (R76, R79). -/
def writeResult (m : Nat) (kind : RepairKind) (port : Port) (x : Result) (s : State) : State :=
  match x with
  | (n, e, .placed p) => raiseKappa m e (insertLeg n m e p (s.modLeg n e (pend (.place p))))
  | (n, e, .refused why) => s.modLeg n e (pend (.suspend why kind port))

/-- The repeats of a stream's description, as the windows of its legs are laid out (R76). -/
def repeatsOf (s : State) (n : StreamNo) : Nat := (s.streams[n].map fun x => x.desc.repeats).getD 1

/-- The windows that one result puts on an egress (R76). -/
def windowsBy (repeats : StreamNo → Nat) (m : Nat) (e : Port) (x : Result) : List Window :=
  match x with
  | (n, q, .placed p) => if q = e then windowsOf n (repeats n) (m / repeats n) p else []
  | (_, _, .refused _) => []

/-- A result places a leg on an egress. -/
def placesOn (e : Port) (x : Result) : Bool :=
  match x with
  | (_, q, .placed _) => q == e
  | (_, _, .refused _) => false

theorem heldOn_eq (s : State) (r : RepairRun) (e : Port) :
    s.heldOn r e = r.results.flatMap (windowsBy (repeatsOf s) r.planM e) := by
  refine List.flatMap_congr fun x _ => ?_
  obtain ⟨n, q, res⟩ := x
  cases res <;> rfl

theorem windowsBy_none {repeats : StreamNo → Nat} {m : Nat} {e : Port} {x : Result} (h : placesOn e x = false) :
    windowsBy repeats m e x = [] := by
  obtain ⟨n, q, res⟩ := x
  cases res with
  | placed p => exact if_neg (by simpa [placesOn] using h)
  | refused why => rfl

/-- The ceiling of a port raised to what its pending timeline calls for (R73). -/
def ceiling (m : Nat) (tl : List Window) (u : PortUnit) : PortUnit :=
  { u with kappa := max u.kappa (ceilingNeed (reservedTime tl) m) }

theorem modLeg_streams_map (n : StreamNo) (e : Port) (f : Leg → Leg) (s : State) (k : StreamNo) :
    (s.modLeg n e f).streams[k] = s.streams[k].map fun y =>
      { y with legs := y.legs.map fun l => if n = k ∧ l.egress = e then f l else l } := by
  rw [modLeg_streams]
  by_cases h : k = n
  · subst h
    rw [if_pos rfl]
    congr 1
    funext y
    simp only [onLegs, beq_iff_eq, true_and]
  · rw [if_neg h]
    have h' : ¬n = k := fun e => h e.symm
    simp [h']

/-- A leg of a stream after one result was written. -/
def pendFrom (kind : RepairKind) (port : Port) (k : StreamNo) (l : Leg) (x : Result) : Leg :=
  if x.1 = k ∧ l.egress = x.2.1 then pend (pendingOf kind port x.2.2) l else l

@[simp] theorem pendFrom_egress (kind : RepairKind) (port : Port) (k : StreamNo) (l : Leg) (x : Result) :
    (pendFrom kind port k l x).egress = l.egress := by
  unfold pendFrom
  split <;> rfl

/-- A leg of a stream after results were written. -/
def pended (kind : RepairKind) (port : Port) (k : StreamNo) (xs : List Result) (l : Leg) : Leg :=
  xs.foldl (pendFrom kind port k) l

/-- What writing results makes of a state: its streams' legs, the pending timelines and the ceilings. -/
structure Written (m : Nat) (kind : RepairKind) (port : Port) (xs : List Result) (s t : State) : Prop where
  rest : { t with engine := s.engine, ports := s.ports, streams := s.streams } = s
  engine : { t.engine with timelines := s.engine.timelines } = s.engine
  timelines : ∀ e : Port, t.engine.timelines[e] =
    insertWindows (xs.flatMap (windowsBy (repeatsOf s) m e)) s.engine.timelines[e]
  ports : ∀ e : Port, t.ports[e] =
    if xs.any (placesOn e) then ceiling m t.engine.timelines[e] s.ports[e] else s.ports[e]
  streams : ∀ k : StreamNo, t.streams[k] = s.streams[k].map fun y => { y with
    legs := y.legs.map (pended kind port k xs) }

theorem repeatsOf_congr {s t : State} (h : ∀ n : StreamNo, t.streams[n].map (·.desc) = s.streams[n].map (·.desc)) :
    repeatsOf t = repeatsOf s := by
  funext n
  have view (u : State) : repeatsOf u n = ((u.streams[n].map (·.desc)).map (·.repeats)).getD 1 := by
    rw [repeatsOf, Option.map_map]; rfl
  rw [view, h, view]

theorem Written.repeats {m kind port xs} {s t : State} (h : Written m kind port xs s t) : repeatsOf t = repeatsOf s :=
  repeatsOf_congr fun n => by rw [h.streams, Option.map_map]; rfl

theorem writeResult_written (m : Nat) (kind : RepairKind) (port : Port) (x : Result) (s : State) :
    Written m kind port [x] s (writeResult m kind port x s) := by
  obtain ⟨n, q, res⟩ := x
  cases res with
  | refused why =>
    refine ⟨rfl, rfl, fun _ => rfl, fun _ => rfl, fun k => ?_⟩
    exact modLeg_streams_map n q (pend (.suspend why kind port)) s k
  | placed p =>
    have repeats : repeatsOf (s.modLeg n q (pend (.place p))) = repeatsOf s :=
      repeatsOf_congr fun k => by rw [modLeg_streams_map, Option.map_map]; rfl
    have timelines (e : Port) : (writeResult m kind port (n, q, .placed p) s).engine.timelines[e] =
        if e = q then insertWindows (windowsOf n (repeatsOf s n) (m / repeatsOf s n) p) s.engine.timelines[q]
        else s.engine.timelines[e] := by
      rw [← repeats]
      exact upd_get ..
    refine ⟨rfl, rfl, fun e => ?_, fun e => ?_, fun k => ?_⟩
    · rw [timelines]
      by_cases here : e = q
      · subst here
        simp [windowsBy]
      · have off : ¬q = e := fun h => here h.symm
        simp [windowsBy, here, off, insertWindows]
    · have ports : (writeResult m kind port (n, q, .placed p) s).ports[e] = if e = q then
          ceiling m (writeResult m kind port (n, q, .placed p) s).engine.timelines[q] s.ports[q] else s.ports[e] := upd_get ..
      rw [ports]
      by_cases here : e = q
      · subst here
        simp [placesOn]
      · have off : ¬q = e := fun h => here h.symm
        simp [placesOn, here, off]
    · exact modLeg_streams_map n q (pend (.place p)) s k

/-! ### One result after another -/

theorem reservedTime_insertWindows (ws tl : List Window) : reservedTime tl ≤ reservedTime (insertWindows ws tl) := by
  have sum : reservedTime (insertWindows ws tl) = reservedTime ws + reservedTime tl := by
    unfold reservedTime
    rw [((insertWindows_perm ws tl).map _).sum_eq, List.map_append, List.sum_append]
  omega

theorem ceilingNeed_mono {a b : Nat} (h : a ≤ b) (m : Nat) : ceilingNeed a m ≤ ceilingNeed b m := by
  unfold ceilingNeed ceilDiv
  exact Nat.div_le_div_right (by omega)

/-- A ceiling raised for a timeline and again for the timeline with more windows is raised for the latter (R73). -/
theorem ceiling_ceiling (m : Nat) (ws tl : List Window) (u : PortUnit) :
    ceiling m (insertWindows ws tl) (ceiling m tl u) = ceiling m (insertWindows ws tl) u := by
  have more := ceilingNeed_mono (reservedTime_insertWindows ws tl) m
  unfold ceiling
  dsimp only
  rw [Nat.max_assoc, Nat.max_eq_right more]

theorem Written.trans {m kind port} {x : Result} {xs : List Result} {s t u : State} (h : Written m kind port [x] s t)
    (k : Written m kind port xs t u) : Written m kind port (x :: xs) s u where
  rest := (congrArg (fun z : State => { z with engine := s.engine, ports := s.ports, streams := s.streams }) k.rest).trans h.rest
  engine := (congrArg (fun z : Engine => { z with timelines := s.engine.timelines }) k.engine).trans h.engine
  timelines e := by
    have first := h.timelines e
    rw [List.flatMap_singleton] at first
    rw [k.timelines, h.repeats, first, List.flatMap_cons, insertWindows_append]
  ports e := by
    have later := k.timelines e
    have first := h.ports e
    rw [List.any_cons, List.any_nil, Bool.or_false] at first
    rw [k.ports, first, List.any_cons]
    by_cases here : placesOn e x = true
    · rw [here, if_pos rfl, Bool.true_or, if_pos rfl]
      split
      · rw [later, ceiling_ceiling]
      · next none =>
        have nothing : xs.flatMap (windowsBy (repeatsOf t) m e) = [] := List.flatMap_eq_nil_iff.2 fun y mem =>
          windowsBy_none (Bool.eq_false_iff.2 fun places => none (List.any_eq_true.2 ⟨y, mem, places⟩))
        rw [later, nothing]
        rfl
    · rw [Bool.eq_false_iff.2 here, Bool.false_or]
      rfl
  streams n := by
    rw [k.streams, h.streams, Option.map_map]
    congr 1
    funext y
    simp only [Function.comp, List.map_map]
    rfl

theorem forAll_written (m : Nat) (kind : RepairKind) (port : Port) (xs : List Result) (s : State) :
    Written m kind port xs s (forAll xs (writeResult m kind port) s) := by
  induction xs generalizing s with
  | nil =>
    refine ⟨rfl, rfl, fun _ => rfl, fun _ => rfl, fun k => ?_⟩
    show s.streams[k] = _
    have same : pended kind port k [] = id := rfl
    cases s.streams[k] <;> simp [same]
  | cons x xs ih => exact (writeResult_written m kind port x s).trans (ih _)

/-! ### What is pending -/

theorem pended_egress (kind : RepairKind) (port : Port) (k : StreamNo) (xs : List Result) (l : Leg) :
    (pended kind port k xs l).egress = l.egress := by
  induction xs generalizing l with
  | nil => rfl
  | cons x xs ih => exact (ih _).trans (pendFrom_egress kind port k l x)

theorem pended_other {kind : RepairKind} {port : Port} {k : StreamNo} {xs : List Result} {l : Leg}
    (h : (k, l.egress) ∉ xs.map fun x => (x.1, x.2.1)) : pended kind port k xs l = l := by
  induction xs with
  | nil => rfl
  | cons x xs ih =>
    rw [List.map_cons, List.mem_cons, not_or] at h
    have off : ¬(x.1 = k ∧ l.egress = x.2.1) := fun both => h.1 (by rw [← both.1, both.2])
    rw [pended, List.foldl_cons, pendFrom, if_neg off]
    exact ih h.2

/-- Each leg being written once, its own result is pending (R76, R79). -/
theorem pended_own {kind : RepairKind} {port : Port} {xs : List Result} (once : (xs.map fun x => (x.1, x.2.1)).Nodup)
    {k : StreamNo} {e : Port} {res : LegResult} (mem : (k, e, res) ∈ xs) {l : Leg} (here : l.egress = e) :
    (pended kind port k xs l).pendingPl = some (pendingOf kind port res) := by
  induction xs generalizing l with
  | nil => cases mem
  | cons x xs ih =>
    obtain ⟨new, once⟩ := List.nodup_cons.1 once
    rcases List.mem_cons.1 mem with rfl | later
    · have step : pended kind port k ((k, e, res) :: xs) l = pended kind port k xs (pend (pendingOf kind port res) l) := by
        rw [pended, List.foldl_cons, pendFrom, if_pos ⟨rfl, here⟩]
        rfl
      rw [step, pended_other (by rw [show (pend (pendingOf kind port res) l).egress = e from here]; exact new)]
      rfl
    · exact ih once later ((pendFrom_egress kind port k l x).trans here)

theorem Written.pending {m kind port xs} {s t : State} (h : Written m kind port xs s t)
    (once : (xs.map fun x => (x.1, x.2.1)).Nodup) {n : StreamNo} {e : Port} {res : LegResult} (mem : (n, e, res) ∈ xs) {y : Stream}
    (found : t.streams[n] = some y) {l : Leg} (leg : l ∈ y.legs) (here : l.egress = e) :
    l.pendingPl = some (pendingOf kind port res) := by
  rw [h.streams] at found
  obtain ⟨x, -, rfl⟩ := Option.map_eq_some_iff.1 found
  obtain ⟨z, -, rfl⟩ := List.mem_map.1 leg
  exact pended_own once mem ((pended_egress kind port n xs z).symm.trans here)

end Sys2Proof.PortLaws
end

section
/-! SUPPORT. What the arbiter keeps as it takes the next operations (R85): replies, the last commit, and the streams that no
entry names. -/

namespace Sys2Proof.PortLaws

open Sys2Proof.Machine Sys2Proof.Safety Sys2Proof.Laws Sys2Proof.CellTime

/-- No entry waits for the stream. -/
def Unnamed (n : StreamNo) (s : State) : Prop := ∀ y ∈ s.engine.waiting, y.op ≠ .place n ∧ y.op ≠ .release n

/-- The next operations are taken: the replies and the last commit stand, a commit that is due stays due, entries are deferred
behind those that were, and a stream that no entry names stands. -/
structure Took (s t : State) : Prop where
  finished : t.engine.finished = s.engine.finished
  lastCommit : t.engine.lastCommit = s.engine.lastCommit
  commitDue : s.engine.commitDue = true → t.engine.commitDue = true
  deferred : ∃ more, t.engine.deferred = s.engine.deferred ++ more
  waiting : ∀ y ∈ t.engine.waiting, y ∈ s.engine.waiting
  stream : ∀ n, Unnamed n s → t.streams[n] = s.streams[n]

theorem Took.trans {s t u : State} (h : Took s t) (k : Took t u) : Took s u where
  finished := k.finished.trans h.finished
  lastCommit := k.lastCommit.trans h.lastCommit
  commitDue due := k.commitDue (h.commitDue due)
  deferred := by
    obtain ⟨xs, first⟩ := h.deferred
    obtain ⟨ys, second⟩ := k.deferred
    exact ⟨xs ++ ys, by rw [second, first, List.append_assoc]⟩
  waiting y mem := h.waiting y (k.waiting y mem)
  stream n unnamed := (k.stream n fun y mem => unnamed y (h.waiting y mem)).trans (h.stream n unnamed)

/-- A change of other fields of the engine. -/
theorem Took.plain {s t : State} (streams : t.streams = s.streams) (finished : t.engine.finished = s.engine.finished)
    (lastCommit : t.engine.lastCommit = s.engine.lastCommit) (commitDue : t.engine.commitDue = s.engine.commitDue)
    (deferred : t.engine.deferred = s.engine.deferred) (waiting : ∀ y ∈ t.engine.waiting, y ∈ s.engine.waiting) : Took s t :=
  ⟨finished, lastCommit, fun due => commitDue.trans due, ⟨[], by rw [deferred, List.append_nil]⟩, waiting, fun _ _ => by rw [streams]⟩

theorem Took.refl (s : State) : Took s s := .plain rfl rfl rfl rfl rfl fun _ mem => mem

theorem unpost_took (kind : RepairKind) (p : Port) (s : State) : Took s (unpost kind p s) := by
  cases kind <;> exact .plain rfl rfl rfl rfl rfl fun _ mem => mem

/-- A RELEASE that waits first is carried out (R85, R88). -/
theorem carryRelease_took {s : State} {x : Entry} {xs : List Entry} (waiting : s.engine.waiting = x :: xs) {n : StreamNo}
    (op : x.op = .release n) : Took s (carryRelease x.tag n (s.modEngine fun g => { g with waiting := xs })) := by
  refine ⟨rfl, rfl, fun _ => rfl, ⟨_, rfl⟩, fun y mem => ?_, fun m unnamed => ?_⟩
  · rw [waiting]
    exact List.mem_cons_of_mem x mem
  · have other : m ≠ n := by
      rintro rfl
      exact (unnamed x (by rw [waiting]; exact List.mem_cons_self)).2 op
    exact (modStream_streams ..).trans (if_neg other)

/-- A PLACE that waits first is taken (R85). -/
theorem takePlace_took {s : State} {x : Entry} {xs : List Entry} (waiting : s.engine.waiting = x :: xs) {n : StreamNo}
    (op : x.op = .place n) :
    Took s ((s.modEngine fun g => { g with waiting := xs }).modStream n fun t => { t with stage := .searching }) := by
  refine ⟨rfl, rfl, fun due => due, ⟨[], (List.append_nil _).symm⟩, fun y mem => ?_, fun m unnamed => ?_⟩
  · rw [waiting]
    exact List.mem_cons_of_mem x mem
  · have other : m ≠ n := by
      rintro rfl
      exact (unnamed x (by rw [waiting]; exact List.mem_cons_self)).1 op
    exact (modStream_streams ..).trans (if_neg other)

theorem arbitrate_took (fuel : Nat) (s : State) : Took s (arbitrate fuel s) := by
  have begins (c : CurrentOp) (t : State) :
      Took t ((setCurrent (some c) t).modEngine fun g => { g with mark := t.timer.grain }) := .plain rfl rfl rfl rfl rfl fun _ mem => mem
  induction fuel generalizing s with
  | zero => exact .refl s
  | succ fuel ih =>
    unfold arbitrate
    split
    · exact .refl s
    · split
      · next kind p _ =>
        dsimp only
        split
        · exact (unpost_took kind p s).trans (ih _)
        · exact (unpost_took kind p s).trans (begins _ _)
      · split
        · exact .refl s
        · next x xs waiting =>
          dsimp only
          split
          · next n op => exact (carryRelease_took waiting op).trans (ih _)
          · next n op => exact (takePlace_took waiting op).trans (begins _ _)

theorem engineTake_took (s : State) : Took s (engineTake s) := arbitrate_took _ s

end Sys2Proof.PortLaws
end

section
/-! SUPPORT. A cycle start up to the end of a held operation (R86, R91): what it has left of the state by then. -/

namespace Sys2Proof.PortLaws

open Sys2Proof.Machine Sys2Proof.Safety Sys2Proof.Laws Sys2Proof.CellTime

/-- The state in which a held operation ends: the commit is made if one was due, and of the port units only counters and
flags have changed. -/
structure Ready (s c : State) : Prop where
  engine : { c.engine with
    finished := s.engine.finished, deferred := s.engine.deferred
    lastCommit := s.engine.lastCommit, commitDue := s.engine.commitDue } = s.engine
  finished : c.engine.finished.length =
    s.engine.finished.length + (if s.engine.commitDue then s.engine.deferred.length else 0)
  deferred : c.engine.deferred = if s.engine.commitDue then [] else s.engine.deferred
  lastCommit : c.engine.lastCommit = if s.engine.commitDue then some (s.timer.cycle + 1) else s.engine.lastCommit
  commitDue : c.engine.commitDue = false
  ports : ∀ e : Port, { c.ports[e] with counters := s.ports[e].counters, flags := s.ports[e].flags } = s.ports[e]
  timelines : ∀ e : Port, c.egress[e].timeline =
    if s.engine.commitDue then s.engine.timelines[e] else s.egress[e].timeline
  served : ∀ n : StreamNo, c.streams[n].bind served = s.streams[n].bind served
  searching : ∀ (n : StreamNo) (x : Stream), s.streams[n] = some x → x.stage = .searching →
    ∃ y, c.streams[n] = some y ∧ { y with alive := x.alive } = x

/-- The state once the commit is made, if one is due. -/
def afterCommit (w : State) : State := if w.engine.commitDue then commit w else w

theorem engineCycle_eq (w : State) : engineCycle w = endHeld (afterCommit w) := rfl

theorem Begun.ready {s w : State} (h : Begun s w) : Ready s (afterCommit w) := by
  cases due : s.engine.commitDue with
  | false =>
    have same : afterCommit w = w := by rw [afterCommit, h.engine, due]; rfl
    rw [same]
    refine
      { engine := by rw [h.engine]
        finished := by rw [h.engine, due]; rfl
        deferred := by rw [h.engine, due]; rfl
        lastCommit := by rw [h.engine, due]; rfl
        commitDue := by rw [h.engine, due]
        ports := fun e => by rw [h.ports]
        timelines := fun e => by rw [h.egress, due]; rfl
        served := fun n => by rw [h.streams]
        searching := fun n x found _ => ⟨x, by rw [h.streams]; exact found, rfl⟩ }
  | true =>
    have same : afterCommit w = commit w := by rw [afterCommit, h.engine, due]; rfl
    have made := commit_made w
    have engine := made.engine
    rw [h.engine, h.cycle] at engine
    obtain ⟨a, counted⟩ := settled_counts w
    have ports : (commit w).ports = (settled w).ports := (congrArg State.ports made.rest :)
    have egress : (commit w).egress = (settled w).egress := (congrArg State.egress made.rest :)
    have onset : (copied w).ports = s.ports := h.onset.ports
    rw [same]
    refine
      { engine := by rw [engine]; rfl
        finished := by rw [engine, due, committedEngine, List.length_append, List.length_map]; rfl
        deferred := by rw [engine, due]; rfl
        lastCommit := by rw [engine, due]; rfl
        commitDue := by rw [engine]; rfl
        ports := fun e => ?_
        timelines := fun e => by rw [egress, settled_egress, copied_timeline, h.engine, due]; rfl
        served := fun n => by rw [made.streams, settled_served, h.streams]
        searching := fun n x found stage => ?_ }
    · have rest := (counted.ports e).rest
      rw [onset] at rest
      rw [ports]
      exact rest
    · obtain ⟨y, hy, same⟩ := allCommitted_waiting (b := copied w) (by rw [h.onset.streams]; exact found) (.inr stage)
      exact ⟨y, by rw [made.streams]; exact hy, same⟩

/-- What a cycle start makes of the state in which a held operation ends. -/
theorem cycleStart_ready {s : State} (silent : s.fault.inbox = []) :
    ∃ c, Ready s c ∧ Outcome (endHeld c) (takeReports (cycleStart s)) := by
  have outcome := cycleStart_outcome s
  rw [engineCycle_eq] at outcome
  exact ⟨_, (nextBegun_begun silent).ready, outcome⟩

theorem Ready.current {s c : State} (h : Ready s c) : c.engine.current = s.engine.current := (congrArg Engine.current h.engine :)
theorem Ready.pending {s c : State} (h : Ready s c) : c.engine.timelines = s.engine.timelines := (congrArg Engine.timelines h.engine :)
theorem Ready.pool {s c : State} (h : Ready s c) : c.engine.pool = s.engine.pool := (congrArg Engine.pool h.engine :)
theorem Ready.waiting {s c : State} (h : Ready s c) : c.engine.waiting = s.engine.waiting := (congrArg Engine.waiting h.engine :)

theorem Ready.nothingWaits {s c : State} (h : Ready s c) (none : NothingWaits s) : NothingWaits c := by
  have egress : c.engine.egressRepairs = s.engine.egressRepairs := (congrArg Engine.egressRepairs h.engine :)
  have ingress : c.engine.ingressRepairs = s.engine.ingressRepairs := (congrArg Engine.ingressRepairs h.engine :)
  exact ⟨h.waiting.trans none.1, by rw [egress, ingress]; exact none.2⟩

/-- A port unit whose ceiling was raised, its counters and flags apart. -/
theorem Ready.raised {s c : State} (h : Ready s c) {u : PortUnit} {e : Port} {m : Nat} {tl : List Window}
    (unit : { u with counters := (ceiling m tl c.ports[e]).counters } = ceiling m tl c.ports[e]) :
    u = { s.ports[e] with
      kappa := max s.ports[e].kappa (ceilDiv (100 * reservedTime tl) m), counters := u.counters, flags := u.flags } := by
  have kappa : c.ports[e].kappa = s.ports[e].kappa := (congrArg PortUnit.kappa (h.ports e) :)
  have flags : u.flags = c.ports[e].flags := (congrArg PortUnit.flags unit :)
  have first := congrArg (fun v : PortUnit => { v with counters := u.counters }) unit
  have second := congrArg (fun v : PortUnit => { v with
    kappa := max s.ports[e].kappa (ceilDiv (100 * reservedTime tl) m), counters := u.counters, flags := c.ports[e].flags }) (h.ports e)
  rw [flags]
  refine Eq.trans first (Eq.trans ?_ second)
  rw [ceiling, kappa]
  rfl

end Sys2Proof.PortLaws
end

section
/-! SUPPORT. A PLACE op that the commit guard held ends at the cycle start (R76, R86, R87). -/

namespace Sys2Proof.PortLaws

open Sys2Proof.Machine Sys2Proof.Safety Sys2Proof.Laws Sys2Proof.CellTime

/-! ### The results of a PLACE op -/

/-- A leg that a PLACE op holds, as a result. -/
def placedResult (n : StreamNo) (x : Port × Placement) : Result := (n, x.1, .placed x.2)

/-- The legs that a PLACE op holds, written. -/
def heldWritten (r : PlaceRun) (c : State) : State :=
  forAll (r.held.map (placedResult r.stream)) (writeResult r.planM .egress 0) c

/-- The state in which the engine takes its next work after a PLACE op (R87). -/
def placeEnded (r : PlaceRun) (c : State) : State :=
  ((heldWritten r c).modStream r.stream fun t => { t with stage := .placed }).modEngine fun g => { g with
    pool := g.pool + c.reservedCells r.stream
    current := none
    deferred := g.deferred ++ [⟨r.tag, .place r.stream⟩]
    commitDue := true }

theorem placeSuccess_eq (r : PlaceRun) (c : State) : placeSuccess r c = engineTake (placeEnded r c) := by
  have legs : heldWritten r c = forAll r.held (fun (e, p) s =>
      raiseKappa r.planM e (insertLeg r.stream r.planM e p
        (s.modLeg r.stream e fun l => { l with pendingPl := some (.place p) }))) c := List.foldl_map
  unfold placeSuccess placeEnded
  rw [legs]

/-- Of windows that the legs held on the other egresses have none of, those of the leg on the egress are all. -/
theorem windowsBy_held {n : StreamNo} {held : List (Port × Placement)} (once : (held.map (·.1)).Nodup) {e : Port} {p : Placement}
    (mem : (e, p) ∈ held) (repeats : StreamNo → Nat) (m : Nat) :
    (held.map (placedResult n)).flatMap (windowsBy repeats m e) = windowsOf n (repeats n) (m / repeats n) p := by
  induction held with
  | nil => cases mem
  | cons x xs ih =>
    obtain ⟨new, once⟩ := List.nodup_cons.1 once
    rw [List.map_cons, List.flatMap_cons]
    rcases List.mem_cons.1 mem with rfl | later
    · have others : (xs.map (placedResult n)).flatMap (windowsBy repeats m e) = [] := by
        refine List.flatMap_eq_nil_iff.2 fun y hy => ?_
        obtain ⟨z, hz, rfl⟩ := List.mem_map.1 hy
        exact if_neg fun same => new (List.mem_map.2 ⟨z, hz, same⟩)
      rw [others, List.append_nil]
      exact if_pos rfl
    · have off : windowsBy repeats m e (placedResult n x) = [] :=
        if_neg fun same => new (List.mem_map.2 ⟨(e, p), later, same.symm⟩)
      rw [ih once later, off, List.nil_append]

theorem windowsBy_unheld {n : StreamNo} {held : List (Port × Placement)} {e : Port} (h : e ∉ held.map (·.1))
    (repeats : StreamNo → Nat) (m : Nat) : (held.map (placedResult n)).flatMap (windowsBy repeats m e) = [] := by
  refine List.flatMap_eq_nil_iff.2 fun y hy => ?_
  obtain ⟨z, hz, rfl⟩ := List.mem_map.1 hy
  exact if_neg fun same => h (List.mem_map.2 ⟨z, hz, same⟩)

theorem held_once {n : StreamNo} {held : List (Port × Placement)} (once : (held.map (·.1)).Nodup) :
    ((held.map (placedResult n)).map fun x => (x.1, x.2.1)).Nodup := by
  rw [List.map_map]
  have same : ((fun x : Result => (x.1, x.2.1)) ∘ placedResult n) = (fun e => (n, e)) ∘ fun x : Port × Placement => x.1 := rfl
  rw [same, ← List.map_map]
  exact once.map fun _ _ h => (Prod.ext_iff.1 h).2

/-! ### The end of a PLACE op -/

/-- What a PLACE op that ends makes of the state, up to the engine's next work (R76, R87). -/
structure PlaceDone (r : PlaceRun) (c v : State) (y : Stream) : Prop where
  found : c.streams[r.stream] = some y
  written : Written r.planM .egress 0 (r.held.map (placedResult r.stream)) c (heldWritten r c)
  egress : v.egress = c.egress
  ports : v.ports = (heldWritten r c).ports
  engine : v.engine = { c.engine with
    timelines := (heldWritten r c).engine.timelines, pool := c.engine.pool + y.desc.cells, current := none
    deferred := c.engine.deferred ++ [⟨r.tag, .place r.stream⟩], commitDue := true }
  stream : v.streams[r.stream] = some { y with
    stage := .placed, legs := y.legs.map (pended .egress 0 r.stream (r.held.map (placedResult r.stream))) }

theorem placeEnded_done (r : PlaceRun) {c : State} {y : Stream} (found : c.streams[r.stream] = some y) :
    PlaceDone r c (placeEnded r c) y := by
  have written := forAll_written r.planM .egress 0 (r.held.map (placedResult r.stream)) c
  have cells : c.reservedCells r.stream = y.desc.cells := by rw [State.reservedCells, found]; rfl
  refine ⟨found, written, (congrArg State.egress written.rest :), rfl, ?_, ?_⟩
  · have engine : (heldWritten r c).engine = { c.engine with timelines := (heldWritten r c).engine.timelines } :=
      (congrArg (fun g : Engine => { g with timelines := (heldWritten r c).engine.timelines }) written.engine :)
    rw [← cells]
    exact congrArg (fun g : Engine => { g with
      pool := g.pool + c.reservedCells r.stream, current := none
      deferred := g.deferred ++ [(⟨r.tag, .place r.stream⟩ : Entry)], commitDue := true }) engine
  · have streams : (placeEnded r c).streams[r.stream] =
        (heldWritten r c).streams[r.stream].map fun t => { t with stage := .placed } :=
      (modStream_streams ..).trans (if_pos rfl)
    have held : (heldWritten r c).streams[r.stream] = _ := written.streams r.stream
    rw [streams, held, found]
    rfl

theorem desc_cells (d : Desc) : d.cells = 2 * d.k * ((d.lmax + 127) / 128) := by
  have round : d.lmax + 128 - 1 = d.lmax + 127 := by omega
  rw [Desc.cells, ceilDiv, round]

theorem endHeld_place {c : State} {r : PlaceRun} (current : c.engine.current = some (.place r)) (verdict : r.verdict = none)
    (todo : r.todo = []) : endHeld c = placeSuccess r c := by
  unfold endHeld
  rw [current]
  exact if_pos (by rw [verdict, todo]; rfl)

/-- The engine's next work leaves the egresses and the port units. -/
theorem Arbitrated.egress {s t : State} (h : Arbitrated s t) : t.egress = s.egress := (congrArg State.egress h.rest :)
theorem Arbitrated.ports {s t : State} (h : Arbitrated s t) : t.ports = s.ports := (congrArg State.ports h.rest :)

theorem Outcome.engine {u t : State} (h : Outcome u t) : t.engine = u.engine := (congrArg State.engine h.rest :)
theorem Outcome.streams {u t : State} (h : Outcome u t) : t.streams = u.streams := (congrArg State.streams h.rest :)

/-- A held operation ends: what of it stands whatever the engine takes next. -/
structure EndedAnyhow (s v t : State) : Prop where
  active : ∀ e : Port, t.egress[e].timeline = if s.engine.commitDue then s.engine.timelines[e] else s.egress[e].timeline
  commitDue : v.engine.commitDue = true → t.engine.commitDue = true
  deferred : ∃ more, t.engine.deferred = v.engine.deferred ++ more
  finished : t.engine.finished = v.engine.finished
  lastCommit : t.engine.lastCommit = v.engine.lastCommit
  stream : ∀ n, Unnamed n v → t.streams[n] = v.streams[n]

theorem endedAnyhow {s c v t : State} (ready : Ready s c) (egress : v.egress = c.egress) (outcome : Outcome (engineTake v) t) :
    EndedAnyhow s v t := by
  have took := engineTake_took v
  refine ⟨fun e => ?_, fun due => ?_, ?_, ?_, ?_, fun n unnamed => ?_⟩
  · rw [outcome.timelines, (engineTake_arbitrated v).egress, egress, ready.timelines]
  · rw [outcome.engine]; exact took.commitDue due
  · rw [outcome.engine]; exact took.deferred
  · rw [outcome.engine, took.finished]
  · rw [outcome.engine, took.lastCommit]
  · rw [outcome.streams]; exact took.stream n unnamed

/-- A port unit whose ceiling an ended operation raised (R73). -/
theorem Outcome.raised {s c v t : State} (ready : Ready s c) (outcome : Outcome v t) {m : Nat} {e : Port}
    (unit : v.ports[e] = ceiling m v.engine.timelines[e] c.ports[e]) : t.ports[e] = { s.ports[e] with
      kappa := max s.ports[e].kappa (ceilDiv (100 * reservedTime t.engine.timelines[e]) m)
      counters := t.ports[e].counters, flags := t.ports[e].flags } := by
  have ports := outcome.ports e
  rw [unit] at ports
  rw [outcome.engine]
  exact ready.raised ports

end Sys2Proof.PortLaws
end

section
/-! SUPPORT. A repair that the commit guard held ends at the cycle start (R79, R86, R89). -/

namespace Sys2Proof.PortLaws

open Sys2Proof.Machine Sys2Proof.Safety Sys2Proof.Laws Sys2Proof.CellTime

/-! ### The windows set aside -/

/-- The windows that a repair has set aside on one egress leave the pending timeline (R79). -/
def dropAside (r : RepairRun) (e : Port) (s : State) : State :=
  s.modEngine fun g => { g with timelines := Table.upd g.timelines e (r.keep e) }

/-- The windows that a repair has set aside leave the pending timelines (R79). -/
def asideDropped (r : RepairRun) (c : State) : State := forAll allPorts (dropAside r) c

theorem keep_keep (r : RepairRun) (e : Port) (tl : List Window) : r.keep e (r.keep e tl) = r.keep e tl := by
  simp [RepairRun.keep]

theorem forAll_dropAside (r : RepairRun) (ps : List Port) (c : State) :
    { forAll ps (dropAside r) c with engine := c.engine } = c ∧
    { (forAll ps (dropAside r) c).engine with timelines := c.engine.timelines } = c.engine ∧
    ∀ e : Port, (forAll ps (dropAside r) c).engine.timelines[e] =
      if e ∈ ps then r.keep e c.engine.timelines[e] else c.engine.timelines[e] := by
  induction ps generalizing c with
  | nil => exact ⟨rfl, rfl, fun _ => rfl⟩
  | cons p ps ih =>
    obtain ⟨rest, engine, timelines⟩ := ih (dropAside r p c)
    refine ⟨(congrArg (fun x : State => { x with engine := c.engine }) rest :),
      (congrArg (fun g : Engine => { g with timelines := c.engine.timelines }) engine :), fun e => ?_⟩
    have first : (dropAside r p c).engine.timelines[e] =
        if e = p then r.keep p c.engine.timelines[p] else c.engine.timelines[e] := upd_get ..
    refine (timelines e).trans ?_
    rw [first]
    by_cases here : e = p
    · subst here
      simp [keep_keep]
    · simp [here]

theorem keep_eq (r : RepairRun) (e : Port) (tl : List Window) :
    r.keep e tl = tl.filter fun w => (w.stream, e) ∉ r.aside := by
  refine List.filter_congr fun w _ => ?_
  simp

/-! ### The end of a repair -/

/-- The results of a repair, written. -/
def resultsWritten (r : RepairRun) (c : State) : State :=
  forAll r.results (writeResult r.planM r.kind r.port) (asideDropped r c)

/-- The state in which the engine takes its next work after a repair (R89). -/
def repairEnded (r : RepairRun) (c : State) : State :=
  (resultsWritten r c).modEngine fun g => { g with current := none, commitDue := g.commitDue || r.examined }

theorem repairSuccess_eq (r : RepairRun) (c : State) : repairSuccess r c = engineTake (repairEnded r c) := by
  have writes {f : Result → State → State} (h : ∀ x s, f x s = writeResult r.planM r.kind r.port x s) (s : State) :
      engineTake ((forAll r.results f s).modEngine fun g => { g with current := none, commitDue := g.commitDue || r.examined }) =
        engineTake ((forAll r.results (writeResult r.planM r.kind r.port) s).modEngine fun g =>
          { g with current := none, commitDue := g.commitDue || r.examined }) := by
    rw [show f = writeResult r.planM r.kind r.port from funext fun x => funext (h x)]
  unfold repairEnded resultsWritten asideDropped dropAside
  refine writes (fun x s => ?_) _
  obtain ⟨n, e, res⟩ := x
  cases res <;> rfl

/-- What a repair that ends makes of the state, up to the engine's next work (R79, R89). -/
structure RepairDone (r : RepairRun) (c v : State) : Prop where
  egress : v.egress = c.egress
  engine : { v.engine with timelines := c.engine.timelines } =
    { c.engine with current := none, commitDue := c.engine.commitDue || r.examined }
  timelines : ∀ e : Port, v.engine.timelines[e] = insertWindows (c.heldOn r e) (r.keep e c.engine.timelines[e])
  ports : ∀ e : Port, r.results.any (placesOn e) = true → v.ports[e] = ceiling r.planM v.engine.timelines[e] c.ports[e]
  pending : (r.results.map fun x => (x.1, x.2.1)).Nodup → ∀ n e res, (n, e, res) ∈ r.results →
    ∀ y, v.streams[n] = some y → ∀ l ∈ y.legs, l.egress = e → l.pendingPl = some (pendingOf r.kind r.port res)

theorem repairEnded_done (r : RepairRun) (c : State) : RepairDone r c (repairEnded r c) := by
  obtain ⟨rest, engine, timelines⟩ := forAll_dropAside r allPorts c
  have written := forAll_written r.planM r.kind r.port r.results (asideDropped r c)
  have fresh : forAll r.results (writeResult r.planM r.kind r.port) (asideDropped r c) = resultsWritten r c := rfl
  rw [fresh] at written
  have streams : (asideDropped r c).streams = c.streams := (congrArg State.streams rest :)
  have ports : (asideDropped r c).ports = c.ports := (congrArg State.ports rest :)
  have egress : (asideDropped r c).egress = c.egress := (congrArg State.egress rest :)
  have repeats : repeatsOf (asideDropped r c) = repeatsOf c := repeatsOf_congr fun n => by rw [streams]
  have same : (repairEnded r c).engine.timelines = (resultsWritten r c).engine.timelines := rfl
  refine ⟨(congrArg State.egress written.rest :).trans egress, ?_, fun e => ?_, fun e placed => ?_, ?_⟩
  · have both := (congrArg (fun g : Engine => { g with timelines := c.engine.timelines }) written.engine).trans engine
    exact congrArg (fun g : Engine => { g with current := none, commitDue := g.commitDue || r.examined }) both
  · have kept := (timelines e).trans (if_pos (mem_allPorts e))
    rw [same, written.timelines, repeats, ← heldOn_eq]
    exact congrArg _ kept
  · have raised := (written.ports e).trans (if_pos placed)
    rw [ports] at raised
    rw [same]
    exact raised
  · exact fun once n e res mem y found l leg here => written.pending once mem found leg here

theorem endHeld_repair {c : State} {r : RepairRun} (current : c.engine.current = some (.repair r))
    (none : c.repairNext r = none) : endHeld c = repairSuccess r c := by
  unfold endHeld
  rw [current]
  exact if_pos (by rw [none]; rfl)

/-- What a repair holds is the same once the commit is made: the streams it has placed run on (R79, R90). -/
theorem Ready.heldOn {s c : State} (h : Ready s c) {r : RepairRun}
    (placed : ∀ n e p, (n, e, .placed p) ∈ r.results → InStage s n [.placed, .active]) (e : Port) :
    c.heldOn r e = s.heldOn r e := by
  rw [heldOn_eq, heldOn_eq]
  refine List.flatMap_congr fun x mem => ?_
  obtain ⟨n, q, res⟩ := x
  cases res with
  | refused why => rfl
  | placed p =>
    obtain ⟨x, found, stage⟩ := placed n q p mem
    have run : x.stage = .placed ∨ x.stage = .active := by simpa using stage
    have view := h.served n
    rw [found, Option.bind_some, PortLaws.served, if_pos run] at view
    obtain ⟨y, hy, same⟩ := Option.bind_eq_some_iff.1 view
    have desc : y.desc = x.desc := by
      unfold PortLaws.served at same
      split at same
      · exact (Prod.ext_iff.1 (Option.some.inj same)).1
      · cases same
    have repeats : repeatsOf c n = repeatsOf s n := by
      rw [repeatsOf, hy, repeatsOf, found, Option.map_some, Option.map_some, desc]
    simp only [windowsBy, repeats]

end Sys2Proof.PortLaws
end

section
/-! The statement on the commit (R45 to R48, R76, R77, R79, R86, R89, R91 to R93). -/

namespace Sys2Proof.PortLaws

open Sys2Proof.Machine Sys2Proof.Safety Sys2Proof.Laws Sys2Proof.CellTime

/-- A PLACE op that was held has ended: what of it stands whatever the engine takes next, and what stands where nothing
waits. -/
theorem cycleStart_place {s : State} (awake : Awake s) {r : PlaceRun} {x : Stream}
    (current : s.engine.current = some (.place r)) (verdict : r.verdict = none) (todo : r.todo = [])
    (found : s.streams[r.stream] = some x) (stage : x.stage = .searching) :
    ∃ c v y, Ready s c ∧ { y with alive := x.alive } = x ∧ PlaceDone r c v y ∧
      Outcome (engineTake v) (takeReports (cycleStart s)) := by
  obtain ⟨c, ready, outcome⟩ := cycleStart_ready awake.noReports
  rw [endHeld_place (ready.current.trans current) verdict todo, placeSuccess_eq] at outcome
  obtain ⟨y, hy, same⟩ := ready.searching r.stream x found stage
  exact ⟨c, _, y, ready, same, placeEnded_done r hy, outcome⟩

/-- A repair that was held has ended. -/
theorem cycleStart_repair {s : State} (awake : Awake s) {r : RepairRun}
    (current : s.engine.current = some (.repair r)) (none : s.repairNext r = none) :
    ∃ c v, Ready s c ∧ RepairDone r c v ∧ Outcome (engineTake v) (takeReports (cycleStart s)) := by
  obtain ⟨c, ready, outcome⟩ := cycleStart_ready awake.noReports
  have none' : c.repairNext r = Option.none := (repairNext_served ready.served r).trans none
  rw [endHeld_repair (ready.current.trans current) none', repairSuccess_eq] at outcome
  exact ⟨c, _, ready, repairEnded_done r c, outcome⟩

/-- The reply of a DEFERRED PLACE whose stream the commit has made ACTIVE (R92). -/
theorem deferredReply_place {d : State} {m : StreamNo} {y : Stream} (found : d.streams[m] = some y) (tag : Byte) :
    deferredReply d ⟨tag, .place m⟩ = ⟨0x8D, tag, .placed (placedReply d m y)⟩ := by
  unfold deferredReply
  dsimp only
  rw [found]
  rfl

theorem Unnamed.of_waiting {s t : State} {n : StreamNo} (h : t.engine.waiting = s.engine.waiting) (k : Unnamed n s) :
    Unnamed n t := by
  rw [Unnamed, h]
  exact k

theorem PlaceDone.waiting {r : PlaceRun} {c v : State} {y : Stream} (h : PlaceDone r c v y) :
    v.engine.waiting = c.engine.waiting := (congrArg Engine.waiting h.engine :)

theorem PlaceDone.nothingWaits {r : PlaceRun} {c v : State} {y : Stream} (h : PlaceDone r c v y) (none : NothingWaits c) :
    NothingWaits v := by
  have egress : v.engine.egressRepairs = c.engine.egressRepairs := (congrArg Engine.egressRepairs h.engine :)
  have ingress : v.engine.ingressRepairs = c.engine.ingressRepairs := (congrArg Engine.ingressRepairs h.engine :)
  exact ⟨h.waiting.trans none.1, by rw [egress, ingress]; exact none.2⟩

/-- The pending timelines after a PLACE op (R76). -/
theorem PlaceDone.timelines {r : PlaceRun} {c v : State} {y : Stream} (h : PlaceDone r c v y) (e : Port) :
    v.engine.timelines[e] = insertWindows
      ((r.held.map (placedResult r.stream)).flatMap (windowsBy (repeatsOf c) r.planM e)) c.engine.timelines[e] := by
  rw [h.engine]
  exact h.written.timelines e

/-- The ceiling of a port on which a PLACE op holds a leg (R73). -/
theorem PlaceDone.raised {r : PlaceRun} {c v : State} {y : Stream} (h : PlaceDone r c v y) {e : Port} {p : Placement}
    (mem : (e, p) ∈ r.held) : v.ports[e] = ceiling r.planM v.engine.timelines[e] c.ports[e] := by
  have places : (r.held.map (placedResult r.stream)).any (placesOn e) = true :=
    List.any_eq_true.2 ⟨_, List.mem_map_of_mem mem, beq_self_eq_true e⟩
  rw [h.ports, h.engine]
  exact (h.written.ports e).trans (if_pos places)

theorem RepairDone.nothingWaits {r : RepairRun} {c v : State} (h : RepairDone r c v) (none : NothingWaits c) :
    NothingWaits v := by
  have waiting : v.engine.waiting = c.engine.waiting := (congrArg Engine.waiting h.engine :)
  have egress : v.engine.egressRepairs = c.engine.egressRepairs := (congrArg Engine.egressRepairs h.engine :)
  have ingress : v.engine.ingressRepairs = c.engine.ingressRepairs := (congrArg Engine.ingressRepairs h.engine :)
  exact ⟨waiting.trans none.1, by rw [egress, ingress]; exact none.2⟩

/-- Settles O42. -/
theorem commitSettlesStreamsAndTimelines : Obligations.CommitSettlesStreamsAndTimelines := by
  constructor
  · intro s awake due commitDue place repair stateBy suspend becomes leaves emptied records
    have h := cycleStart_settling awake.noReports commitDue place repair
    refine ⟨takeReports (cycleStart s), exec_cycleStart_due awake due, h.timelines, ?_⟩
    generalize takeReports (cycleStart s) = t at h
    generalize copied (nextBegun s) = b at h
    have engine := h.engine
    refine ⟨by rw [engine]; rfl, by rw [engine]; rfl, by rw [engine]; rfl, by rw [engine]; rfl, by rw [engine]; rfl,
      by rw [engine]; rfl, by rw [engine]; rfl, ?_, ?_, ?_, ?_, ?_, ?_⟩
    · rw [engine, committedEngine, List.length_append, List.length_map]
    · rw [engine, committedEngine, List.take_left]
    · intro front tag m back y deferred stream
      rw [h.streams] at stream
      rw [h.finished deferred, deferredReply_place stream, placedReply, h.cycle]
    · intro front tag m back deferred
      rw [h.finished deferred, deferredReply, h.cycle]
      rfl
    · exact fun apart => h.counts apart
    · intro n x found
      refine ⟨fun stage => h.releasing found stage, fun stage => ?_, fun stage apart => ?_, ?_, fun stage => h.waiting found stage⟩
      · obtain ⟨y, hy, activated⟩ := h.placed found stage
        exact ⟨y, hy, activated.stage, activated.desc, activated.firstActive, activated.legs, activated.placed⟩
      · obtain ⟨y, hy, same, legs⟩ := h.active found stage apart
        exact ⟨y, hy, same, legs, fun l mem => h.active_counters found stage apart mem⟩
      · intro front l back why k p stage legs pending behind above routed
        obtain ⟨ds, last⟩ := suspensions_last found stage legs pending behind above
        exact h.notice routed ds _ last
  · intro s awake due active raised
    constructor
    · intro r x current verdict todo found stage once unnamed
      obtain ⟨c, v, y, ready, same, done, outcome⟩ := cycleStart_place awake current verdict todo found stage
      have run := exec_cycleStart_due awake due
      generalize takeReports (cycleStart s) = t at outcome run
      have anyhow := endedAnyhow ready done.egress outcome
      have desc : y.desc = x.desc := (congrArg Stream.desc same :)
      have engine := done.engine
      have waiting := done.waiting.trans ready.waiting
      have stream := (anyhow.stream r.stream (.of_waiting waiting unnamed)).trans done.stream
      refine ⟨t, _, run, anyhow.active, stream, rfl, desc, fun e p mem l leg here => ?_, anyhow.commitDue (by rw [engine]), ?_, ?_, ?_,
        fun none => ?_⟩
      · obtain ⟨z, -, rfl⟩ := List.mem_map.1 leg
        exact pended_own (held_once once) (List.mem_map_of_mem (f := placedResult r.stream) mem)
          ((pended_egress ..).symm.trans here)
      · obtain ⟨more, deferred⟩ := anyhow.deferred
        refine ⟨more, ?_⟩
        rw [deferred, engine, ready.deferred, List.append_assoc]
        rfl
      · rw [anyhow.finished, engine, ready.finished]
      · rw [anyhow.lastCommit, engine, ready.lastCommit]
      · rw [engineTake_nothing (done.nothingWaits (ready.nothingWaits none))] at outcome
        have repeats : repeatsOf c r.stream = x.desc.repeats := by
          rw [repeatsOf, done.found, ← desc]
          rfl
        refine ⟨by rw [outcome.engine, engine], by rw [outcome.engine, engine, ready.deferred],
          by rw [outcome.engine, engine, ready.pool, desc, desc_cells], fun e p mem => ⟨?_, ?_⟩, fun e off => ?_⟩
        · exact outcome.raised ready (done.raised mem)
        · rw [outcome.engine, done.timelines, windowsBy_held once mem, repeats, ready.pending]
        · rw [outcome.engine, done.timelines, windowsBy_unheld off, ready.pending]
          rfl
    · intro r current none once placed
      obtain ⟨c, v, ready, done, outcome⟩ := cycleStart_repair awake current none
      have run := exec_cycleStart_due awake due
      generalize takeReports (cycleStart s) = t at outcome run
      have anyhow := endedAnyhow ready done.egress outcome
      have examined : v.engine.commitDue = r.examined := by
        have same : v.engine.commitDue = (c.engine.commitDue || r.examined) := (congrArg Engine.commitDue done.engine :)
        rw [same, ready.commitDue, Bool.false_or]
      have lastCommit : v.engine.lastCommit = c.engine.lastCommit := (congrArg Engine.lastCommit done.engine :)
      refine ⟨t, run, anyhow.active, fun some => anyhow.commitDue (examined.trans some),
        by rw [anyhow.lastCommit, lastCommit, ready.lastCommit], fun nothing => ?_⟩
      rw [engineTake_nothing (done.nothingWaits (ready.nothingWaits nothing))] at outcome
      have free : v.engine.current = Option.none := (congrArg Engine.current done.engine :)
      have pool : v.engine.pool = c.engine.pool := (congrArg Engine.pool done.engine :)
      refine ⟨by rw [outcome.engine, free], by rw [outcome.engine, examined], by rw [outcome.engine, pool, ready.pool],
        fun n e res mem y found l leg here => ?_, fun e => ?_, fun e ⟨n, p, mem⟩ => ?_⟩
      · rw [outcome.streams] at found
        rw [done.pending once n e res mem y found l leg here]
        cases res <;> rfl
      · rw [outcome.engine, done.timelines, ready.heldOn placed, keep_eq, ready.pending]
      · exact outcome.raised ready (done.ports e (List.any_eq_true.2 ⟨_, mem, beq_self_eq_true e⟩))

end Sys2Proof.PortLaws
end

section
/-! SUPPORT. What the stream table and the engine keep of a state while other blocks work: `Steady s t` leaves every stream but
for its alive count and what its legs hold, the engine but for its repairs and marks, and the active timelines. -/

namespace Sys2Proof.MotionLaws

open Sys2Proof.Machine Sys2Proof.Safety Sys2Proof.Laws Sys2Proof.CellTime Sys2Proof.PortLaws

/-- What the invariant sees of a stream, but for its alive count. -/
def outline (x : Stream) : Stage × Desc × Bool × List Port := (x.stage, x.desc, x.releaseQueued, x.legs.map (·.egress))

/-- What the invariant sees of the engine: the rest of its fields at their reset values. -/
def ledger (g : Engine) : Engine :=
  { Engine.reset with
    timelines := g.timelines, pool := g.pool, waiting := g.waiting, current := g.current, deferred := g.deferred
    finished := g.finished }

/-- No stream counts more than 2 k frames alive (R55). -/
def AliveBounded (s : State) : Prop := ∀ (n : StreamNo) (x : Stream), s.streams[n] = some x → x.alive ≤ 2 * x.desc.k

/-- Between two states the stream table and the engine stand, as far as the invariant sees them, and so do the active
timelines. -/
structure Steady (s t : State) : Prop where
  outlines : ∀ n : StreamNo, t.streams[n].map outline = s.streams[n].map outline
  alive : AliveBounded s → AliveBounded t
  engine : ledger t.engine = ledger s.engine
  active : ∀ e : Port, t.egress[e].timeline = s.egress[e].timeline

theorem Steady.refl (s : State) : Steady s s := ⟨fun _ => rfl, id, rfl, fun _ => rfl⟩

theorem Steady.trans {s t u : State} (h : Steady s t) (k : Steady t u) : Steady s u where
  outlines n := (k.outlines n).trans (h.outlines n)
  alive x := k.alive (h.alive x)
  engine := k.engine.trans h.engine
  active e := (k.active e).trans (h.active e)

/-- An update of blocks that hold no stream, no window and no entry of the engine. -/
theorem Steady.plain {s t : State} (streams : t.streams = s.streams) (engine : t.engine = s.engine)
    (egress : t.egress = s.egress) : Steady s t where
  outlines _ := by rw [streams]
  alive h n x found := h n x (by rwa [streams] at found)
  engine := by rw [engine]
  active _ := by rw [egress]

/-- An operation leaves the stream table, the engine and the active timelines of every state. -/
def Steadies (f : State → State) : Prop := ∀ s, Steady s (f s)

theorem forAll_steady {α : Type} {f : α → State → State} (h : ∀ x s, Steady s (f x s)) (xs : List α) (s : State) :
    Steady s (forAll xs f s) := by
  induction xs generalizing s with
  | nil => exact .refl s
  | cons x xs ih => exact (h x s).trans (ih _)

theorem ite_steady {c : Prop} [Decidable c] {s a b : State} (ha : Steady s a) (hb : Steady s b) :
    Steady s (if c then a else b) := by
  split
  · exact ha
  · exact hb

/-! ### One update -/

theorem modTimer_steady (f) : Steadies (State.modTimer f) := fun _ => .plain rfl rfl rfl
theorem modPort_steady (p f) : Steadies (State.modPort p f) := fun _ => .plain rfl rfl rfl
theorem modNoise_steady (p f) : Steadies (State.modNoise p f) := fun _ => .plain rfl rfl rfl
theorem modArc_steady (f) : Steadies (State.modArc f) := fun _ => .plain rfl rfl rfl
theorem modAddr_steady (f) : Steadies (State.modAddr f) := fun _ => .plain rfl rfl rfl
theorem modBuffer_steady (f) : Steadies (State.modBuffer f) := fun _ => .plain rfl rfl rfl
theorem modMgmt_steady (f) : Steadies (State.modMgmt f) := fun _ => .plain rfl rfl rfl
theorem modFault_steady (f) : Steadies (State.modFault f) := fun _ => .plain rfl rfl rfl
theorem setProbe_steady (q x) : Steadies (State.setProbe q x) := fun _ => .plain rfl rfl rfl
theorem bumpPort_steady (p c) : Steadies (bumpPort p c) := fun _ => .plain rfl rfl rfl
theorem bumpLeg_steady (n e c) : Steadies (bumpLeg n e c) := fun _ => .plain rfl rfl rfl
theorem bumpStream_steady (n c) : Steadies (bumpStream n c) := fun _ => .plain rfl rfl rfl
theorem setFlag_steady (p x) : Steadies (setFlag p x) := fun _ => .plain rfl rfl rfl
theorem reportCutOff_steady (e n) : Steadies (reportCutOff e n) := fun _ => .plain rfl rfl rfl
theorem raise_steady (src cycle d) : Steadies (raise src cycle d) := fun _ => .plain rfl rfl rfl
theorem answer_steady (q r) : Steadies (answer q r) := fun _ => .plain rfl rfl rfl

theorem takeReports_steady : Steadies takeReports := fun s =>
  have rest := (takeReports_only s).rest
  .plain (congrArg State.streams rest :) (congrArg State.engine rest :) (congrArg State.egress rest :)

/-- A change of the engine's repairs and marks. -/
theorem modEngine_steady {f : Engine → Engine} (h : ∀ g, ledger (f g) = ledger g) : Steadies (State.modEngine f) :=
  fun s => ⟨fun _ => rfl, id, h s.engine, fun _ => rfl⟩

theorem modEgress_steady {e : Port} {f : Egress → Egress} (h : ∀ x, (f x).timeline = x.timeline) :
    Steadies (State.modEgress e f) := fun s =>
  ⟨fun _ => rfl, id, rfl, fun p => by
    rw [State.modEgress_egress, upd_get]
    split
    · next same => rw [same]; exact h _
    · rfl⟩

/-- A change of each stream that leaves its outline and raises no alive count. -/
theorem Steady.of_streams {s t : State} {f : StreamNo → Stream → Stream}
    (streams : ∀ n : StreamNo, t.streams[n] = s.streams[n].map (f n)) (outlines : ∀ n x, outline (f n x) = outline x)
    (alive : ∀ n x, (f n x).alive ≤ x.alive) (engine : t.engine = s.engine) (egress : t.egress = s.egress) : Steady s t where
  outlines n := by
    rw [streams, Option.map_map]
    congr 1
    exact funext (outlines n)
  alive h n y found := by
    rw [streams] at found
    obtain ⟨x, hx, rfl⟩ := Option.map_eq_some_iff.1 found
    have desc : (f n x).desc = x.desc := (congrArg (fun v => v.2.1) (outlines n x) :)
    rw [desc]
    exact (alive n x).trans (h n x hx)
  engine := by rw [engine]
  active _ := by rw [egress]

theorem modStream_steady {n : StreamNo} {f : Stream → Stream} (outlines : ∀ x, outline (f x) = outline x)
    (alive : ∀ x, (f x).alive ≤ x.alive) : Steadies (State.modStream n f) := fun s => by
  refine .of_streams (f := fun m x => if m = n then f x else x) (fun m => ?_) (fun m x => ?_) (fun m x => ?_) rfl rfl
  · rw [modStream_streams]
    split
    · next same => rw [same]
    · exact Option.map_id'.symm
  · split
    · exact outlines x
    · rfl
  · split
    · exact alive x
    · exact le_refl _

theorem outline_mapLegs {f : Leg → Leg} (h : ∀ l, (f l).egress = l.egress) (x : Stream) :
    outline { x with legs := x.legs.map f } = outline x := by
  have legs : (x.legs.map f).map (·.egress) = x.legs.map (·.egress) := by
    rw [List.map_map]
    exact List.map_congr_left fun l _ => h l
  simp only [outline, legs]

theorem modLeg_steady {n : StreamNo} {e : Port} {f : Leg → Leg} (h : ∀ l, (f l).egress = l.egress) :
    Steadies (State.modLeg n e f) :=
  modStream_steady (outline_mapLegs fun l => by split <;> simp [h]) fun _ => le_refl _

theorem modRunningLegs_steady {e : Port} {f : Leg → Leg} (h : ∀ l, (f l).egress = l.egress) :
    Steadies (modRunningLegs e f) := fun s => by
  refine .of_streams (f := fun _ => PortLaws.running e f) (fun n => modRunningLegs_streams e f s n) (fun _ x => ?_) (fun _ x => ?_) rfl rfl
  · unfold PortLaws.running
    split
    · exact outline_mapLegs (fun l => by split <;> simp [h]) x
    · rfl
  · unfold PortLaws.running
    split <;> exact le_refl _

/-! ### The frame buffer -/

theorem returnRef_steady (id) : Steadies (returnRef id) := fun s => by
  have rest := returnRef_rest id s
  have engine : (returnRef id s).engine = s.engine := (congrArg State.engine rest :)
  have fewer (r : FrameRecord) : Steady s (freeFrame r s) := by
    refine .of_streams (f := fun n x => if r.stream = some n ∧ r.orphan = false then { x with alive := x.alive - 1 } else x)
      (fun n => ?_) (fun n x => ?_) (fun n x => ?_) ?_ ?_
    · rw [freeFrame_streams]
      split
      · rfl
      · exact Option.map_id'.symm
    · split <;> rfl
    · split
      · exact Nat.sub_le _ _
      · exact le_refl _
    all_goals
      unfold freeFrame
      dsimp only
      split
      · split <;> rfl
      · rfl
  unfold returnRef
  split
  · exact .refl s
  · split
    · exact fewer _
    · exact modBuffer_steady _ s

theorem returnRefs_steady (ids) : Steadies (returnRefs ids) := forAll_steady (fun id => returnRef_steady id) ids

theorem legDrop_steady (c n e) : Steadies (legDrop c n e) := fun s => by
  unfold legDrop
  cases c.legCounter <;> exact .plain rfl rfl rfl

theorem beDrop_steady (c k p e) : Steadies (beDrop c k p e) := fun _ => .plain rfl rfl rfl

/-! ### Probes, noise monitors and the address table -/

theorem probeCaptures_steady (n e c q) : Steadies (probeCaptures n e c q) := fun s => by
  unfold probeCaptures
  split
  · exact ite_steady (.plain rfl rfl rfl) (.refl s)
  · exact .refl s

theorem probeCount_steady (cycle q) : Steadies (probeCount cycle q) := fun s => by
  unfold probeCount
  split
  · exact ite_steady (.plain rfl rfl rfl) (.plain rfl rfl rfl)
  · exact .refl s

theorem noiseChange_steady (p new cause count cycle phase) : Steadies (noiseChange p new cause count cycle phase) := fun s => by
  unfold noiseChange
  dsimp only
  split <;> exact .plain rfl rfl rfl

theorem noiseChangeNow_steady (p new cause) : Steadies (noiseChangeNow p new cause) :=
  fun s => noiseChange_steady p new cause _ _ _ s

theorem upwardTest_steady (p) : Steadies (upwardTest p) := fun s => by
  have change (new cause) := noiseChangeNow_steady p new cause s
  unfold upwardTest
  dsimp only
  split
  · exact ite_steady (change ..) (ite_steady (change ..) (.refl s))
  · exact ite_steady (change ..) (.refl s)
  · exact .refl s

theorem receiveFault_steady (p) : Steadies (receiveFault p) := fun s =>
  (modNoise_steady p _ s).trans ((modNoise_steady p _ _).trans (upwardTest_steady p _))

theorem noiseCheck_steady (cycle p) : Steadies (noiseCheck cycle p) := fun s => by
  unfold noiseCheck
  refine Steady.trans ?_ (modNoise_steady p _ _)
  split
  · exact ite_steady ((bumpPort_steady p _ s).trans (noiseChange_steady ..)) ((bumpPort_steady p _ s).trans (modNoise_steady ..))
  · exact ite_steady (noiseChange_steady ..) (modNoise_steady ..)
  · exact .refl s

theorem noiseCycle_steady (cycle p) : Steadies (noiseCycle cycle p) := fun s =>
  (ite_steady (.refl s) (noiseCheck_steady cycle p s)).trans (modNoise_steady p _ _)

theorem checkAhead_steady (p) : Steadies (checkAhead p) := fun s => (noiseCheck_steady _ p s).trans (modNoise_steady p _ _)

theorem arcEdge_steady (on stamp) : Steadies (arcEdge on stamp) := fun s => by
  unfold arcEdge
  dsimp only
  have edge : Steady s ((bumpDevice (if on then .arcOn else .arcOff) s).modArc fun a =>
      { a with lastEdge := some ⟨on, stamp, s.timer.cycle, s.phase⟩ }) := .plain rfl rfl rfl
  refine ite_steady (edge.trans (forAll_steady (fun p t => ?_) _ _)) edge
  exact ite_steady (ite_steady (modNoise_steady ..) (noiseChangeNow_steady ..)) (.refl t)

theorem exposedOn_steady (p) : Steadies (exposedOn p) := fun s =>
  ite_steady (ite_steady (modNoise_steady ..) (noiseChangeNow_steady ..)) (.refl s)

theorem noiseRestart_steady (p) : Steadies (noiseRestart p) := fun s =>
  (ite_steady (.refl s) (noiseChangeNow_steady ..)).trans (modNoise_steady p _ _)

theorem ageTable_steady : Steadies ageTable := fun s =>
  ite_steady (modAddr_steady _ s) (ite_steady (.plain rfl rfl rfl) (modAddr_steady _ s))

theorem ageCycle_steady : Steadies ageCycle := fun s => (ite_steady (.refl s) (ageTable_steady s)).trans (modAddr_steady _ _)

/-! ### Egress schedulers -/

theorem chooseBestEffort_steady (e g cs) : Steadies (chooseBestEffort e g cs) := by
  induction cs with
  | nil => exact Steady.refl
  | cons c cs ih =>
    intro s
    unfold chooseBestEffort
    split
    · exact (modEgress_steady (by exact fun _ => rfl) s).trans (bumpPort_steady ..)
    · exact ih s

theorem dropHead_steady (cause n e id) : Steadies (dropHead cause n e id) := fun s =>
  (modLeg_steady (by exact fun _ => rfl) s).trans ((legDrop_steady ..).trans (returnRef_steady ..))

theorem probeStart_steady (n e r w g) : Steadies (probeStart n e r w g) := fun s =>
  forAll_steady (fun q => probeCaptures_steady n e _ q) allProbes s

theorem startMotion_steady (e g o d r) : Steadies (startMotion e g o d r) := fun s =>
  (modLeg_steady (by exact fun _ => rfl) s).trans ((modEgress_steady (by exact fun _ => rfl) _).trans
    ((bumpLeg_steady ..).trans ((bumpPort_steady ..).trans (probeStart_steady ..))))

theorem startCopy_steady (e o id rest) : Steadies (startCopy e o id rest) := fun s =>
  (modEgress_steady (by exact fun _ => rfl) s).trans ((bumpLeg_steady ..).trans (bumpPort_steady ..))

theorem chooseAgain_steady (e g fuel) : Steadies (chooseAgain e g fuel) := by
  induction fuel with
  | zero => exact Steady.refl
  | succ fuel ih =>
    intro s
    unfold chooseAgain
    split
    · exact chooseBestEffort_steady ..
    · split
      · exact chooseBestEffort_steady ..
      · split
        · split
          · split
            · exact .refl s
            · exact (dropHead_steady ..).trans (ih _)
            · exact startMotion_steady ..
          · exact .refl s
        · split
          · exact (modEgress_steady (by exact fun _ => rfl) s).trans (ih _)
          · split
            · exact startCopy_steady ..
            · exact (modEgress_steady (by exact fun _ => rfl) s).trans (ih _)

theorem choose_steady (e) : Steadies (choose e) := fun s => by
  unfold choose
  split
  · exact .refl s
  · exact ite_steady (.refl s) (chooseAgain_steady ..)

theorem setOpen_steady (e w free copies) : Steadies (setOpen e w free copies) := modEgress_steady fun _ => rfl

theorem openPrimary_steady (e w) : Steadies (openPrimary e w) := fun _ => (setOpen_steady ..).trans (choose_steady e _)

theorem openTwin_steady (e w) : Steadies (openTwin e w) := fun _ =>
  ite_steady ((setOpen_steady ..).trans (choose_steady e _)) ((setOpen_steady ..).trans (choose_steady e _))

theorem dropSlot_steady (cause n e) : Steadies (dropSlot cause n e) := fun s =>
  ite_steady (.refl s) ((modLeg_steady (by exact fun _ => rfl) s).trans
    (forAll_steady (fun _ _ => (legDrop_steady ..).trans (returnRef_steady ..)) _ _))

theorem letGo_steady (n e) : Steadies (letGo n e) := fun s =>
  ite_steady (.refl s) ((modLeg_steady (by exact fun _ => rfl) s).trans (returnRefs_steady ..))

theorem emptyWindow_steady (n e l d) : Steadies (emptyWindow n e l d) := fun s =>
  ite_steady ((bumpLeg_steady n e .empty s).trans ((modLeg_steady (by exact fun _ => rfl) _).trans (raise_steady ..)))
    ((bumpLeg_steady n e .empty s).trans (modLeg_steady (by exact fun _ => rfl) _))

theorem closeLeg_steady (e o) : Steadies (closeLeg e o) := fun s => by
  unfold closeLeg
  dsimp only
  split
  · exact ite_steady (.refl s) (ite_steady (dropSlot_steady ..) (ite_steady (emptyWindow_steady ..) (.refl s)))
  · exact .refl s

theorem leaveBestEffort_steady (e id) : Steadies (leaveBestEffort e id) := fun s =>
  (modEgress_steady (by exact fun _ => rfl) s).trans (returnRef_steady ..)

theorem endTransmission_steady (e x) : Steadies (endTransmission e x) := fun s => by
  have idle : Steady s (s.modEgress e fun y => { y with wire := none }) := modEgress_steady (by exact fun _ => rfl) s
  unfold endTransmission
  dsimp only
  split
  · exact ite_steady idle (idle.trans (returnRef_steady ..))
  · exact idle
  · exact idle.trans (leaveBestEffort_steady ..)

theorem cutMotion_steady (n e id) : Steadies (cutMotion n e id) := fun s =>
  (reportCutOff_steady e _ s).trans ((setFlag_steady ..).trans ((modLeg_steady (by exact fun _ => rfl) _).trans (returnRef_steady ..)))

theorem cutWire_steady (e) : Steadies (cutWire e) := fun s => by
  unfold cutWire
  split
  · exact .refl s
  · have idle : Steady s (bumpPort e .txAborted (s.modEgress e fun y => { y with wire := none })) :=
      (modEgress_steady (by exact fun _ => rfl) s).trans (bumpPort_steady ..)
    dsimp only
    split
    · exact idle.trans (cutMotion_steady ..)
    · exact idle.trans (cutMotion_steady ..)
    · exact idle.trans ((reportCutOff_steady ..).trans ((setFlag_steady ..).trans (leaveBestEffort_steady ..)))

theorem dropQueue_steady (e c) : Steadies (dropQueue e c) := fun s =>
  (modEgress_steady (by exact fun _ => rfl) s).trans
    (forAll_steady (fun _ _ => (beDrop_steady ..).trans (leaveBestEffort_steady ..)) _ _)

theorem emptyEgress_steady (e) : Steadies (emptyEgress e) := fun s =>
  (cutWire_steady e s).trans ((forAll_steady (dropQueue_steady e) _ _).trans
    ((forAll_steady (fun n => dropSlot_steady .linkDown n e) _ _).trans
      ((forAll_steady (fun n => letGo_steady n e) _ _).trans (modEgress_steady (by exact fun _ => rfl) _))))

theorem startPasses_steady : Steadies startPasses := fun s =>
  forAll_steady (fun _ => modEgress_steady (by exact fun _ => rfl)) _ s

/-! ### Forwarding -/

theorem ingressDrop_steady (p cause n) : Steadies (ingressDrop p cause n) := fun _ => .plain rfl rfl rfl

theorem portDrop_steady (p cause) : Steadies (portDrop p cause) := fun s => by
  unfold portDrop
  refine (ingressDrop_steady p cause none s).trans ?_
  dsimp only
  split
  · exact receiveFault_steady ..
  · exact receiveFault_steady ..
  · exact receiveFault_steady ..
  · exact setFlag_steady ..
  · exact .refl _

theorem slotEntry_steady (n e d id) : Steadies (slotEntry n e d id) := fun s => by
  unfold slotEntry
  dsimp only
  split
  · exact (modLeg_steady (by exact fun _ => rfl) s).trans (choose_steady ..)
  · split
    · exact (modLeg_steady (by exact fun _ => rfl) s).trans
        ((returnRef_steady ..).trans ((bumpLeg_steady ..).trans (choose_steady ..)))
    · exact (choose_steady e s).trans ((legDrop_steady ..).trans (returnRef_steady ..))

theorem legArrival_steady (n d id l) : Steadies (legArrival n d id l) := fun s => by
  unfold legArrival
  split
  · exact slotEntry_steady ..
  · exact legDrop_steady ..
  · exact legDrop_steady ..
  · exact legDrop_steady ..
  · exact .refl s

theorem motionRefused_steady (p n t) : Steadies (motionRefused p n t) := fun s =>
  (ingressDrop_steady p .noBuffer (some n) s).trans
    (forAll_steady (fun _ _ => (bumpLeg_steady ..).trans (setFlag_steady ..)) _ _)

/-- One more frame alive of a stream that counts fewer than 2 k (R55). -/
theorem moreAlive_steady {n : StreamNo} {x : Stream} {s : State} (found : s.streams[n] = some x)
    (room : x.alive < 2 * x.desc.k) : Steady s (s.modStream n fun t => { t with alive := t.alive + 1 }) where
  outlines m := by
    rw [modStream_streams]
    split
    · next same => rw [same, Option.map_map]; rfl
    · rfl
  alive h m y stored := by
    rw [modStream_streams] at stored
    split at stored
    · rw [found] at stored
      cases stored
      exact room
    · exact h m y stored
  engine := rfl
  active _ := rfl

/-- A frame arrives for a stream as the table holds it. -/
theorem motionArrival_steady {n : StreamNo} {x : Stream} {s : State} (found : s.streams[n] = some x) (p start f) :
    Steady s (motionArrival p start n x f s) := by
  unfold motionArrival
  refine (bumpStream_steady n .matched s).trans ?_
  dsimp only
  split
  · exact forAll_steady (fun l => legArrival_steady n _ _ l) _ _
  · split
    · exact motionRefused_steady ..
    · next room =>
      rw [not_or, Nat.not_le] at room
      exact (modBuffer_steady _ _).trans (Steady.trans (moreAlive_steady (by exact found) room.1)
        (forAll_steady (fun l => legArrival_steady n _ _ l) _ _))

theorem streamOversize_steady (p n) : Steadies (streamOversize p n) := fun _ => .plain rfl rfl rfl

theorem learn_steady (p f) : Steadies (learn p f) := fun s => by
  unfold learn
  refine ite_steady (.refl s) ?_
  split
  · exact ite_steady (.plain rfl rfl rfl) (.plain rfl rfl rfl)
  · split
    · exact ite_steady (.plain rfl rfl rfl) (.plain rfl rfl rfl)
    · exact ite_steady (.refl s) (.plain rfl rfl rfl)

theorem joinClass_steady (cls c id e) : Steadies (joinClass cls c id e) := fun s =>
  (modEgress_steady (by exact fun _ => rfl) s).trans (choose_steady ..)

theorem targetDrop_steady (p e) : Steadies (targetDrop p e) := fun _ => ite_steady (beDrop_steady ..) (beDrop_steady ..)

theorem admitFrame_steady (p start f cls ts) : Steadies (admitFrame p start f cls ts) := fun s => by
  have drops (es : List Port) (t : State) : Steady t (forAll es (targetDrop p) t) := forAll_steady (targetDrop_steady p) es t
  unfold admitFrame
  dsimp only
  refine ite_steady (ite_steady ((drops ..).trans ((ingressDrop_steady ..).trans (setFlag_steady ..))) (drops ..)) ?_
  exact (drops ..).trans ((modBuffer_steady _ _).trans (forAll_steady (fun e => joinClass_steady _ _ _ e) _ _))

theorem bestEffort_steady (p start f) : Steadies (bestEffort p start f) := fun s => by
  unfold bestEffort
  refine (learn_steady p f s).trans ?_
  dsimp only
  split
  · exact .plain rfl rfl rfl
  · exact admitFrame_steady ..

theorem classify_steady (p start f) : Steadies (classify p start f) := fun s => by
  unfold classify
  split
  · exact bestEffort_steady ..
  · split
    · exact bestEffort_steady ..
    · next found =>
      exact ite_steady (ite_steady (streamOversize_steady ..) (motionArrival_steady found ..))
        ((bumpStream_steady ..).trans (bestEffort_steady ..))

/-! ### The cycle timer -/

theorem syncOnly_steady {s t : State} (h : SyncOnly s t) : Steady s t :=
  .plain (congrArg State.streams h :) (congrArg State.engine h :) (congrArg State.egress h :)

theorem sampleCyc_steady (level) : Steadies (sampleCyc level) := fun s =>
  ite_steady ((modTimer_steady _ s).trans (syncOnly_steady (takeStrobe_syncOnly _ _))) (modTimer_steady _ s)

theorem sampleArc_steady (level) : Steadies (sampleArc level) := fun s =>
  ite_steady ((modArc_steady _ s).trans (arcEdge_steady ..)) (modArc_steady _ s)

theorem qualifyCyc_steady (level) : Steadies (qualifyCyc level) := fun s => ite_steady (sampleCyc_steady ..) (.refl s)

theorem qualifyArc_steady (level) : Steadies (qualifyArc level) := fun s => ite_steady (sampleArc_steady ..) (.refl s)

theorem endCheck_steady : Steadies endCheck := fun s => by
  have missed : Steady s (deviceReport .missedStrobe none s) := .plain rfl rfl rfl
  have change (new : SyncState) (t : State) : Steady t (changeSync new t) := syncOnly_steady (changeSync_syncOnly new t)
  unfold endCheck
  refine ite_steady (.refl s) ?_
  dsimp only
  split
  · exact ite_steady missed (missed.trans ((modTimer_steady ..).trans (change ..)))
  · exact ite_steady (missed.trans ((modTimer_steady ..).trans (change ..))) (missed.trans (modTimer_steady ..))
  · exact .refl s

theorem setEnable_steady (enable) : Steadies (setEnable enable) := fun s => by
  have change (new : SyncState) (t : State) : Steady t (changeSync new t) := syncOnly_steady (changeSync_syncOnly new t)
  unfold setEnable
  exact ite_steady (ite_steady ((modTimer_steady ..).trans (change ..)) (.refl s))
    (ite_steady (.refl s) ((modTimer_steady ..).trans (change ..)))

/-! ### Port units -/

theorem linkEvent_steady (p kind link) : Steadies (linkEvent p kind link) := fun _ => .plain rfl rfl rfl

theorem takeLinkDown_steady (p) : Steadies (takeLinkDown p) := fun s => by
  unfold takeLinkDown
  dsimp only
  refine Steady.trans ?_ (linkEvent_steady ..)
  have down : Steady s (unlinked p s) := (emptyEgress_steady p s).trans
    ((modRunningLegs_steady (fun l => by unfold dormant; split <;> rfl) _).trans (setFlag_steady ..))
  exact ite_steady (down.trans ((bumpPort_steady ..).trans (modPort_steady ..))) down

theorem takeLinkUp_steady (p v) : Steadies (takeLinkUp p v) := fun s => by
  unfold takeLinkUp
  dsimp only
  refine Steady.trans ?_ (choose_steady ..)
  refine Steady.trans ?_ (linkEvent_steady ..)
  refine Steady.trans ?_ (modPort_steady ..)
  have woken : Steady s (modRunningLegs p (woken (decide (v = s.ports[p].planned))) s) :=
    modRunningLegs_steady (fun l => by unfold PortLaws.woken; split <;> rfl) s
  exact ite_steady woken (woken.trans (setFlag_steady ..))

theorem phyReport_steady (p r) : Steadies (phyReport p r) := fun s => by
  unfold phyReport
  split
  · exact .refl s
  · exact takeLinkUp_steady ..
  · exact takeLinkDown_steady ..
  · exact ite_steady (.refl s) ((takeLinkDown_steady ..).trans (takeLinkUp_steady ..))

theorem changePlan_steady (p) : Steadies (changePlan p) := fun s => by
  have posted : Steady s (s.modEngine fun g => { g with
    egressRepairs := Table.upd g.egressRepairs p fun _ => true
    ingressRepairs := Table.upd g.ingressRepairs p fun _ => true }) := modEngine_steady (by exact fun _ => rfl) s
  exact ite_steady (posted.trans (setFlag_steady ..)) posted

end Sys2Proof.MotionLaws
end

section
/-! SUPPORT. The invariant of the stream table and the engine in three parts: the stream table, who waits where for the engine
(the desk), and what the engine has reserved (the books); and that what `Steady` leaves keeps all three. -/

namespace Sys2Proof.MotionLaws

open Sys2Proof.Machine Sys2Proof.Safety Sys2Proof.Laws Sys2Proof.CellTime Sys2Proof.PortLaws

/-! ### The desk: ops and stages (R44, R81, R83, R87) -/

/-- The stream that the current operation places, if it is a PLACE op. -/
def placing : Option CurrentOp → Option StreamNo
  | some (.place r) => some r.stream
  | _ => none

/-- Who waits where: the stages of the streams, the releases that are queued, and the ops of the host queue. -/
structure Desk where
  stage : StreamNo → Option Stage
  leaving : StreamNo → Bool
  waiting : List HostOp
  placing : Option StreamNo
  deferred : List HostOp
  finished : Nat

/-- The desk of a state. -/
def desk (s : State) : Desk where
  stage n := s.streams[n].map (·.stage)
  leaving n := s.streams[n].any (·.releaseQueued)
  waiting := s.engine.waiting.map (·.op)
  placing := placing s.engine.current
  deferred := s.engine.deferred.map (·.op)
  finished := s.engine.finished.length

/-- Every stage goes with its op, no op waits twice, and no more than eight entries are held. -/
structure Desk.Ok (d : Desk) : Prop where
  entries : d.waiting.length + d.placing.toList.length + d.deferred.length + d.finished ≤ 8
  once : d.waiting.Nodup
  queued : ∀ n, d.stage n = some .queued ↔ .place n ∈ d.waiting
  searching : ∀ n, d.stage n = some .searching ↔ d.placing = some n
  placed : ∀ n, d.stage n = some .placed ↔ .place n ∈ d.deferred
  releases : ∀ n, .release n ∈ d.waiting → d.stage n = some .active ∧ d.leaving n = true

/-- One stream takes a new stage, or becomes FREE. -/
structure Desk.Moves (n : StreamNo) (v : Option Stage) (d d' : Desk) : Prop where
  here : d'.stage n = v
  others : ∀ m, m ≠ n → d'.stage m = d.stage m ∧ d'.leaving m = d.leaving m

section moves
variable {n : StreamNo} {d d' : Desk}

/-- A PLACE is accepted (R82). -/
theorem Desk.Ok.acceptPlace (h : d.Ok) (move : d.Moves n (some .queued) d') (free : d.stage n = none)
    (waiting : d'.waiting = d.waiting ++ [.place n]) (placing : d'.placing = d.placing) (deferred : d'.deferred = d.deferred)
    (finished : d'.finished = d.finished)
    (room : d.waiting.length + d.placing.toList.length + d.deferred.length + d.finished < 8) : d'.Ok := by
  obtain ⟨entries, once, queued, searching, placed, releases⟩ := h
  obtain ⟨here, others⟩ := move
  have q := queued n
  have p := searching n
  have f := placed n
  have r := releases n
  refine ⟨?_, ?_, fun m => ?_, fun m => ?_, fun m => ?_, fun m => ?_⟩
  · rw [waiting, placing, deferred, finished, List.length_append]
    simp only [List.length_singleton]
    omega
  · rw [waiting]
    exact List.nodup_append.2 ⟨once, by simp, by grind⟩
  all_goals by_cases same : m = n <;> grind

/-- A RELEASE of an ACTIVE stream is accepted (R83). -/
theorem Desk.Ok.acceptRelease (h : d.Ok) (move : d.Moves n (some .active) d') (leaves : d'.leaving n = true)
    (active : d.stage n = some .active) (stays : d.leaving n = false)
    (waiting : d'.waiting = d.waiting ++ [.release n]) (placing : d'.placing = d.placing) (deferred : d'.deferred = d.deferred)
    (finished : d'.finished = d.finished)
    (room : d.waiting.length + d.placing.toList.length + d.deferred.length + d.finished < 8) : d'.Ok := by
  obtain ⟨entries, once, queued, searching, placed, releases⟩ := h
  obtain ⟨here, others⟩ := move
  have q := queued n
  have p := searching n
  have f := placed n
  have r := releases n
  refine ⟨?_, ?_, fun m => ?_, fun m => ?_, fun m => ?_, fun m => ?_⟩
  · rw [waiting, placing, deferred, finished, List.length_append]
    simp only [List.length_singleton]
    omega
  · rw [waiting]
    exact List.nodup_append.2 ⟨once, by simp, by grind⟩
  all_goals by_cases same : m = n <;> grind

/-- The engine takes the PLACE op that waits first (R85). -/
theorem Desk.Ok.takePlace (h : d.Ok) (move : d.Moves n (some .searching) d') (waiting : d.waiting = .place n :: d'.waiting)
    (free : d.placing = none) (placing : d'.placing = some n) (deferred : d'.deferred = d.deferred)
    (finished : d'.finished = d.finished) : d'.Ok := by
  obtain ⟨entries, once, queued, searching, placed, releases⟩ := h
  obtain ⟨here, others⟩ := move
  rw [waiting, List.nodup_cons] at once
  have q := queued n
  refine ⟨?_, once.2, fun m => ?_, fun m => ?_, fun m => ?_, fun m => ?_⟩
  · rw [waiting, free] at entries
    rw [placing, deferred, finished]
    simp only [List.length_cons, Option.toList_none, List.length_nil, Option.toList_some] at entries ⊢
    omega
  all_goals by_cases same : m = n <;> grind

/-- The engine carries out the RELEASE op that waits first (R88). -/
theorem Desk.Ok.carryRelease (h : d.Ok) (move : d.Moves n (some .releasing) d') (waiting : d.waiting = .release n :: d'.waiting)
    (placing : d'.placing = d.placing) (deferred : d'.deferred = d.deferred ++ [.release n])
    (finished : d'.finished = d.finished) : d'.Ok := by
  obtain ⟨entries, once, queued, searching, placed, releases⟩ := h
  obtain ⟨here, others⟩ := move
  rw [waiting, List.nodup_cons] at once
  have q := queued n
  have p := searching n
  have f := placed n
  have r := releases n
  refine ⟨?_, once.2, fun m => ?_, fun m => ?_, fun m => ?_, fun m => ?_⟩
  · rw [waiting] at entries
    rw [placing, deferred, finished, List.length_append]
    simp only [List.length_cons, List.length_nil] at entries ⊢
    omega
  all_goals by_cases same : m = n <;> grind

/-- A PLACE op ends with success (R87). -/
theorem Desk.Ok.placeSuccess (h : d.Ok) (move : d.Moves n (some .placed) d') (was : d.placing = some n)
    (placing : d'.placing = none) (waiting : d'.waiting = d.waiting) (deferred : d'.deferred = d.deferred ++ [.place n])
    (finished : d'.finished = d.finished) : d'.Ok := by
  obtain ⟨entries, once, queued, searching, placed, releases⟩ := h
  obtain ⟨here, others⟩ := move
  have q := queued n
  have p := searching n
  have f := placed n
  have r := releases n
  refine ⟨?_, waiting ▸ once, fun m => ?_, fun m => ?_, fun m => ?_, fun m => ?_⟩
  · rw [was] at entries
    rw [placing, deferred, finished, waiting, List.length_append]
    simp only [List.length_cons, List.length_nil, Option.toList_none, Option.toList_some] at entries ⊢
    omega
  all_goals by_cases same : m = n <;> grind

/-- A PLACE op ends, its stream becoming FREE and its reply finished (R77, R83, R87). -/
theorem Desk.Ok.placeAbandoned (h : d.Ok) (move : d.Moves n none d') (was : d.placing = some n)
    (placing : d'.placing = none) (waiting : d'.waiting = d.waiting) (deferred : d'.deferred = d.deferred)
    (finished : d'.finished = d.finished + 1) : d'.Ok := by
  obtain ⟨entries, once, queued, searching, placed, releases⟩ := h
  obtain ⟨here, others⟩ := move
  have q := queued n
  have p := searching n
  have f := placed n
  have r := releases n
  refine ⟨?_, waiting ▸ once, fun m => ?_, fun m => ?_, fun m => ?_, fun m => ?_⟩
  · rw [was] at entries
    rw [placing, deferred, finished, waiting]
    simp only [List.length_cons, List.length_nil, Option.toList_none, Option.toList_some] at entries ⊢
    omega
  all_goals by_cases same : m = n <;> grind

/-- A QUEUED stream is released: its PLACE op leaves the queue, its reply finished (R83). -/
theorem Desk.Ok.releaseQueued (h : d.Ok) (move : d.Moves n none d') (was : d.stage n = some .queued)
    (placing : d'.placing = d.placing) (waiting : d'.waiting = d.waiting.filter (· != .place n))
    (deferred : d'.deferred = d.deferred) (finished : d'.finished = d.finished + 1) : d'.Ok := by
  obtain ⟨entries, once, queued, searching, placed, releases⟩ := h
  obtain ⟨here, others⟩ := move
  have q := queued n
  have p := searching n
  have f := placed n
  have r := releases n
  have member : .place n ∈ d.waiting := q.1 was
  have left (op : HostOp) : op ∈ d'.waiting ↔ op ∈ d.waiting ∧ op ≠ .place n := by simp [waiting]
  refine ⟨?_, ?_, fun m => ?_, fun m => ?_, fun m => ?_, fun m => ?_⟩
  · have fewer : d'.waiting.length < d.waiting.length := by
      rw [waiting]
      exact List.length_filter_lt_length_iff_exists.2 ⟨_, member, by simp⟩
    rw [placing, deferred, finished]
    omega
  · rw [waiting]
    exact once.filter _
  all_goals by_cases same : m = n <;> grind

/-- A PLACED stream is released: its PLACE op is DEFERRED no more, its reply finished (R83, R90). -/
theorem Desk.Ok.releasePlaced (h : d.Ok) (move : d.Moves n none d') (was : d.stage n = some .placed)
    (placing : d'.placing = d.placing) (waiting : d'.waiting = d.waiting)
    (deferred : d'.deferred = d.deferred.filter (· != .place n)) (finished : d'.finished = d.finished + 1) : d'.Ok := by
  obtain ⟨entries, once, queued, searching, placed, releases⟩ := h
  obtain ⟨here, others⟩ := move
  have q := queued n
  have p := searching n
  have f := placed n
  have r := releases n
  have member : .place n ∈ d.deferred := f.1 was
  have left (op : HostOp) : op ∈ d'.deferred ↔ op ∈ d.deferred ∧ op ≠ .place n := by simp [deferred]
  refine ⟨?_, waiting ▸ once, fun m => ?_, fun m => ?_, fun m => ?_, fun m => ?_⟩
  · have fewer : d'.deferred.length < d.deferred.length := by
      rw [deferred]
      exact List.length_filter_lt_length_iff_exists.2 ⟨_, member, by simp⟩
    rw [placing, waiting, finished]
    omega
  all_goals by_cases same : m = n <;> grind

/-- What the commit makes of a stage (R44, R45, R46). -/
def committedStage : Option Stage → Option Stage
  | some .placed => some .active
  | some .releasing => none
  | x => x

/-- The commit: PLACED streams are ACTIVE, RELEASING ones FREE, and the DEFERRED entries finished (R91). -/
theorem Desk.Ok.commit (h : d.Ok) (stage : ∀ m, d'.stage m = committedStage (d.stage m))
    (leaving : ∀ m, d.stage m = some .active → d'.leaving m = d.leaving m) (placing : d'.placing = d.placing)
    (waiting : d'.waiting = d.waiting) (deferred : d'.deferred = []) (finished : d'.finished = d.finished + d.deferred.length) :
    d'.Ok := by
  obtain ⟨entries, once, queued, searching, placed, releases⟩ := h
  refine ⟨?_, waiting ▸ once, fun m => ?_, fun m => ?_, fun m => ?_, fun m mem => ?_⟩
  · rw [placing, waiting, deferred, finished, List.length_nil]
    omega
  · rw [stage, waiting, ← queued]
    cases d.stage m with
    | none => rfl
    | some x => cases x <;> simp [committedStage]
  · rw [stage, placing, ← searching]
    cases d.stage m with
    | none => rfl
    | some x => cases x <;> simp [committedStage]
  · rw [stage, deferred]
    cases d.stage m with
    | none => simp [committedStage]
    | some x => cases x <;> simp [committedStage]
  · rw [waiting] at mem
    obtain ⟨active, leaves⟩ := releases m mem
    rw [stage, active, leaving m active]
    exact ⟨rfl, leaves⟩

end moves

/-! ### The books: cells, timelines and the current operation (R61, R71, R72, R75, R79) -/

/-- What the engine has reserved is in order, and the current operation can end as it stands. -/
structure Books (s : State) : Prop where
  pool : s.engine.pool ≤ 512
  pending : ∀ e : Port, TimelineOk s.engine.timelines[e]
  active : ∀ e : Port, TimelineOk s.egress[e].timeline
  place : ∀ r x, s.engine.current = some (.place r) → s.streams[r.stream] = some x → PlaceOk s r x.desc
  repair : ∀ r, s.engine.current = some (.repair r) → RepairOk s r

/-- What the engine's steps keep: the stream table, the desk and the books. -/
structure Planned (s : State) : Prop where
  streams : StreamsOk s
  desk : (desk s).Ok
  books : Books s

theorem inStage_one {s : State} {n : StreamNo} {a : Stage} : InStage s n [a] ↔ (desk s).stage n = some a := by
  simp [InStage, desk, Option.map_eq_some_iff]

theorem mem_ops {op : HostOp} {ys : List Entry} : (∃ y ∈ ys, y.op = op) ↔ op ∈ ys.map (·.op) := List.mem_map.symm

theorem placing_some {c : Option CurrentOp} {n : StreamNo} : (∃ r, c = some (.place r) ∧ r.stream = n) ↔ placing c = some n := by
  unfold placing
  cases c with
  | none => simp
  | some x => cases x <;> simp

theorem used_eq (g : Engine) :
    g.used = g.waiting.length + (placing g.current).toList.length + g.deferred.length + g.finished.length := by
  unfold Engine.used placing
  cases g.current with
  | none => rfl
  | some x => cases x <;> rfl

/-- The engine's invariant is that of its desk and its books. -/
theorem engineOk_iff {s : State} : EngineOk s ↔ (desk s).Ok ∧ Books s := by
  have leaves (n : StreamNo) : (∃ x, s.streams[n] = some x ∧ x.stage = .active ∧ x.releaseQueued = true) ↔
      (desk s).stage n = some .active ∧ (desk s).leaving n = true := by
    simp only [desk]
    cases s.streams[n] <;> simp
  constructor
  · intro h
    refine ⟨⟨?_, h.once, fun n => ?_, fun n => ?_, fun n => ?_, fun n mem => ?_⟩, ⟨h.pool, h.pending, h.active, h.place, h.repair⟩⟩
    · have entries := h.entries
      rw [used_eq] at entries
      simpa [desk] using entries
    · rw [← inStage_one, h.queued, mem_ops]; rfl
    · rw [← inStage_one, h.searching, placing_some]; rfl
    · rw [← inStage_one, h.placed, mem_ops]; rfl
    · obtain ⟨y, mem, op⟩ := mem_ops.2 mem
      exact (leaves n).1 (h.releases n y mem op)
  · rintro ⟨d, b⟩
    refine ⟨?_, b.pool, b.pending, b.active, d.once, fun n => ?_, fun n => ?_, fun n => ?_, fun n y mem op => ?_, b.place, b.repair⟩
    · have entries := d.entries
      rw [used_eq]
      simpa [desk] using entries
    · rw [inStage_one, d.queued, mem_ops]; rfl
    · rw [inStage_one, d.searching, placing_some]; rfl
    · rw [inStage_one, d.placed, mem_ops]; rfl
    · exact (leaves n).2 (d.releases n (mem_ops.1 ⟨y, mem, op⟩))

theorem planned_iff {s : State} : Planned s ↔ StreamsOk s ∧ EngineOk s :=
  ⟨fun h => ⟨h.streams, engineOk_iff.2 ⟨h.desk, h.books⟩⟩, fun ⟨h, k⟩ => ⟨h, (engineOk_iff.1 k).1, (engineOk_iff.1 k).2⟩⟩

/-! ### What keeps each part -/

/-- A stream record that the stream table may hold in place of another: no more frames alive, the same key and legs. -/
structure Lesser (x y : Stream) : Prop where
  desc : y.desc = x.desc
  legs : y.legs.map (·.egress) = x.legs.map (·.egress)
  alive : y.alive ≤ x.alive

/-- Streams may leave the table, the others keep their descriptions and the egresses of their legs. -/
theorem streamsOk_of {s t : State} (h : StreamsOk s) (alive : AliveBounded t)
    (stands : ∀ (n : StreamNo) (y : Stream), t.streams[n] = some y →
      ∃ x, s.streams[n] = some x ∧ y.desc = x.desc ∧ y.legs.map (·.egress) = x.legs.map (·.egress)) : StreamsOk t where
  each n y found := by
    obtain ⟨x, hx, desc, legs⟩ := stands n y found
    have ok := h.each n x hx
    exact ⟨desc ▸ ok.takes, alive n y found, legs ▸ ok.legs⟩
  keys n m y z hy hz key := by
    obtain ⟨x, hx, desc, -⟩ := stands n y hy
    obtain ⟨x', hx', desc', -⟩ := stands m z hz
    exact h.keys n m x x' hx hx' (by rw [← desc, ← desc', key])

theorem aliveBounded {s : State} (h : StreamsOk s) : AliveBounded s := fun n x found => (h.each n x found).alive

/-- Streams may leave the table, and the others be replaced by lesser ones. -/
theorem streamsOk_lesser {s t : State} (h : StreamsOk s)
    (lesser : ∀ (n : StreamNo) (y : Stream), t.streams[n] = some y → ∃ x, s.streams[n] = some x ∧ Lesser x y) : StreamsOk t := by
  refine streamsOk_of h (fun n y found => ?_) fun n y found => ?_
  · obtain ⟨x, hx, desc, -, alive⟩ := lesser n y found
    exact desc ▸ alive.trans (aliveBounded h n x hx)
  · obtain ⟨x, hx, desc, legs, -⟩ := lesser n y found
    exact ⟨x, hx, desc, legs⟩

theorem timelineOk_nil : TimelineOk [] := ⟨by simp, .nil, by simp⟩

/-- A free engine's books are its cells and its timelines. -/
theorem Books.free {s : State} (pool : s.engine.pool ≤ 512) (pending : ∀ e : Port, TimelineOk s.engine.timelines[e])
    (active : ∀ e : Port, TimelineOk s.egress[e].timeline) (current : s.engine.current = none) : Books s :=
  ⟨pool, pending, active, fun r x h => (by rw [current] at h; cases h), fun r h => (by rw [current] at h; cases h)⟩

/-- The windows a repair holds hang on the repeats of the streams it has placed. -/
theorem heldOn_congr {s t : State} {r : RepairRun}
    (repeats : ∀ n e p, (n, e, .placed p) ∈ r.results → repeatsOf t n = repeatsOf s n) (e : Port) :
    t.heldOn r e = s.heldOn r e := by
  rw [heldOn_eq, heldOn_eq]
  refine List.flatMap_congr fun x mem => ?_
  obtain ⟨n, q, res⟩ := x
  cases res with
  | refused why => rfl
  | placed p => simp only [windowsBy, repeats n q p mem]

/-- What the current operation needs of the streams stands between two states: its own stream's description, and that the
streams a repair holds are PLACED or ACTIVE with their descriptions. -/
structure OpStands (s t : State) : Prop where
  place : ∀ r y, s.engine.current = some (.place r) → t.streams[r.stream] = some y →
    ∃ x, s.streams[r.stream] = some x ∧ y.desc = x.desc
  repair : ∀ (n : StreamNo) (x : Stream), s.streams[n] = some x → x.stage ∈ [Stage.placed, .active] →
    ∃ y, t.streams[n] = some y ∧ y.stage ∈ [Stage.placed, .active] ∧ y.desc = x.desc

theorem OpStands.inStage {s t : State} (h : OpStands s t) {n : StreamNo} (k : InStage s n [.placed, .active]) :
    InStage t n [.placed, .active] ∧ repeatsOf t n = repeatsOf s n := by
  obtain ⟨x, found, stage⟩ := k
  obtain ⟨y, hy, stage', desc⟩ := h.repair n x found stage
  refine ⟨⟨y, hy, stage'⟩, ?_⟩
  rw [repeatsOf, hy, repeatsOf, found, Option.map_some, Option.map_some, desc]

/-- With the engine's cells, timelines and operation the same, the books stand. -/
theorem books_stand {s t : State} (h : Books s) (pool : t.engine.pool = s.engine.pool)
    (timelines : t.engine.timelines = s.engine.timelines) (current : t.engine.current = s.engine.current)
    (active : ∀ e : Port, TimelineOk t.egress[e].timeline) (op : OpStands s t) : Books t where
  pool := pool ▸ h.pool
  pending := by rw [timelines]; exact h.pending
  active := active
  place r y run found := by
    rw [current] at run
    obtain ⟨x, hx, desc⟩ := op.place r y run found
    obtain ⟨once, fits, cells⟩ := h.place r x run hx
    rw [desc]
    exact ⟨once, by rw [timelines]; exact fits, by rw [pool]; exact cells⟩
  repair r run := by
    rw [current] at run
    obtain ⟨fits, held, within⟩ := h.repair r run
    refine ⟨fun e => ?_, fun n e p mem => (op.inStage (held n e p mem)).1, fun n es mem => (op.inStage (within n es mem)).1⟩
    rw [heldOn_congr fun n e p mem => (op.inStage (held n e p mem)).2, timelines]
    exact fits e

/-! ### What `Steady` leaves -/

theorem Steady.found {s t : State} (h : Steady s t) {n : StreamNo} {y : Stream} (found : t.streams[n] = some y) :
    ∃ x, s.streams[n] = some x ∧ outline y = outline x := by
  have same := h.outlines n
  rw [found] at same
  obtain ⟨x, hx, equal⟩ := Option.map_eq_some_iff.1 same.symm
  exact ⟨x, hx, equal.symm⟩

theorem Steady.find {s t : State} (h : Steady s t) {n : StreamNo} {x : Stream} (found : s.streams[n] = some x) :
    ∃ y, t.streams[n] = some y ∧ outline y = outline x := by
  have same := h.outlines n
  rw [found] at same
  exact Option.map_eq_some_iff.1 same

theorem outline_stage {x y : Stream} (h : outline y = outline x) : y.stage = x.stage := (congrArg (·.1) h :)
theorem outline_desc {x y : Stream} (h : outline y = outline x) : y.desc = x.desc := (congrArg (·.2.1) h :)
theorem outline_legs {x y : Stream} (h : outline y = outline x) : y.legs.map (·.egress) = x.legs.map (·.egress) :=
  (congrArg (·.2.2.2) h :)

theorem desk_same {s t : State} (outlines : ∀ n : StreamNo, t.streams[n].map outline = s.streams[n].map outline)
    (waiting : t.engine.waiting = s.engine.waiting) (current : placing t.engine.current = placing s.engine.current)
    (deferred : t.engine.deferred = s.engine.deferred) (finished : t.engine.finished = s.engine.finished) : desk t = desk s := by
  have stage (u : State) (n : StreamNo) : u.streams[n].map (·.stage) = (u.streams[n].map outline).map (·.1) := by
    rw [Option.map_map]; rfl
  have leaving (u : State) (n : StreamNo) : u.streams[n].any (·.releaseQueued) = (u.streams[n].map outline).any (·.2.2.1) := by
    cases u.streams[n] <;> rfl
  simp only [desk, stage, leaving, outlines, waiting, current, deferred, finished]

theorem Steady.opStands {s t : State} (h : Steady s t) : OpStands s t where
  place r y _ found := by
    obtain ⟨x, hx, same⟩ := h.found found
    exact ⟨x, hx, outline_desc same⟩
  repair n x found stage := by
    obtain ⟨y, hy, same⟩ := h.find found
    exact ⟨y, hy, outline_stage same ▸ stage, outline_desc same⟩

/-- What `Steady` leaves keeps the stream table, the desk and the books. -/
theorem Steady.planned {s t : State} (h : Steady s t) (k : Planned s) : Planned t where
  streams := streamsOk_of k.streams (h.alive (aliveBounded k.streams)) fun n y found => by
    obtain ⟨x, hx, same⟩ := h.found found
    exact ⟨x, hx, outline_desc same, outline_legs same⟩
  desk := by
    have same : desk t = desk s := desk_same h.outlines (congrArg Engine.waiting h.engine :)
      (congrArg (fun g : Engine => placing g.current) h.engine :) (congrArg Engine.deferred h.engine :)
      (congrArg Engine.finished h.engine :)
    rw [same]
    exact k.desk
  books := books_stand k.books (congrArg Engine.pool h.engine :) (congrArg Engine.timelines h.engine :)
    (congrArg Engine.current h.engine :) (fun e => by rw [h.active]; exact k.books.active e) h.opStands

end Sys2Proof.MotionLaws
end

section
/-! SUPPORT. The steps of the engine keep the stream table, the desk and the books: the arbiter (R85). -/

namespace Sys2Proof.MotionLaws

open Sys2Proof.Machine Sys2Proof.Safety Sys2Proof.Laws Sys2Proof.CellTime Sys2Proof.PortLaws

/-! ### One stream changed -/

theorem Lesser.refl (x : Stream) : Lesser x x := ⟨rfl, rfl, le_refl _⟩

theorem streamsOk_same {s t : State} (h : StreamsOk s) (streams : t.streams = s.streams) : StreamsOk t :=
  streamsOk_lesser h fun _ y found => ⟨y, streams ▸ found, .refl y⟩

theorem streamsOk_modStream {s t : State} (h : StreamsOk s) {n : StreamNo} {f : Stream → Stream}
    (streams : t.streams = (s.modStream n f).streams) (lesser : ∀ x, Lesser x (f x)) : StreamsOk t := by
  refine streamsOk_lesser h fun m y found => ?_
  rw [streams, modStream_streams] at found
  split at found
  · next same =>
    subst same
    obtain ⟨x, hx, rfl⟩ := Option.map_eq_some_iff.1 found
    exact ⟨x, hx, lesser x⟩
  · exact ⟨y, found, .refl y⟩

theorem setStream_streams (n : StreamNo) (x : Option Stream) (s : State) (m : StreamNo) :
    (s.setStream n x).streams[m] = if m = n then x else s.streams[m] := by
  have streams : (s.setStream n x).streams = Table.upd s.streams n fun _ => x := rfl
  rw [streams, upd_get]

theorem streamsOk_freed {s t : State} (h : StreamsOk s) {n : StreamNo} (streams : t.streams = (s.setStream n none).streams) :
    StreamsOk t := by
  refine streamsOk_lesser h fun m y found => ?_
  rw [streams, setStream_streams] at found
  split at found
  · cases found
  · exact ⟨y, found, .refl y⟩

/-- One stream takes another stage, and the others their outlines. -/
theorem desk_moves {n : StreamNo} {v : Option Stage} {s t : State} (here : t.streams[n].map (·.stage) = v)
    (others : ∀ m : StreamNo, m ≠ n → t.streams[m].map outline = s.streams[m].map outline) : (desk s).Moves n v (desk t) := by
  refine ⟨here, fun m other => ?_⟩
  have same := others m other
  have stage (u : State) : (desk u).stage m = (u.streams[m].map outline).map (·.1) := by rw [Option.map_map]; rfl
  have leaving (u : State) : (desk u).leaving m = (u.streams[m].map outline).any (·.2.2.1) := by
    show u.streams[m].any _ = _
    cases u.streams[m] <;> rfl
  exact ⟨by rw [stage, stage, same], by rw [leaving, leaving, same]⟩

theorem modStream_moves {n : StreamNo} {f : Stream → Stream} {x : Stream} {s t : State}
    (streams : t.streams = (s.modStream n f).streams) (found : s.streams[n] = some x) :
    (desk s).Moves n (some (f x).stage) (desk t) := by
  refine desk_moves ?_ fun m other => ?_
  · rw [streams, modStream_streams, if_pos rfl, found]; rfl
  · rw [streams, modStream_streams, if_neg other]

theorem setStream_moves {n : StreamNo} {y : Option Stream} {s t : State} (streams : t.streams = (s.setStream n y).streams) :
    (desk s).Moves n (y.map (·.stage)) (desk t) := by
  refine desk_moves ?_ fun m other => ?_
  · rw [streams, setStream_streams, if_pos rfl]
  · rw [streams, setStream_streams, if_neg other]

/-- A stream with its op on the desk is in the table. -/
theorem desk_stage {s : State} {n : StreamNo} {v : Stage} (h : (desk s).stage n = some v) :
    ∃ x, s.streams[n] = some x ∧ x.stage = v := Option.map_eq_some_iff.1 h

/-! ### The arbiter (R85) -/

theorem unpost_steady (kind : RepairKind) (p : Port) : Steadies (unpost kind p) :=
  modEngine_steady fun _ => by cases kind <;> rfl

theorem mark_steady (c : Stamp) : Steadies (State.modEngine fun g => { g with mark := c }) := modEngine_steady fun _ => rfl

theorem legPorts_eq {s : State} {n : StreamNo} {x : Stream} (found : s.streams[n] = some x) :
    s.legPorts n = x.legs.map (·.egress) := by rw [State.legPorts, found]; rfl

theorem reservedCells_eq {s : State} {n : StreamNo} {x : Stream} (found : s.streams[n] = some x) :
    s.reservedCells n = x.desc.cells := by rw [State.reservedCells, found]; rfl

/-- The current operation is replaced by one of the same stream, or of none, that can end as it stands. -/
theorem setCurrent_planned {s : State} (h : Planned s) {c : Option CurrentOp} (same : placing c = placing s.engine.current)
    (place : ∀ r n x, c = some (.place r) → r.stream = n → s.streams[n] = some x → PlaceOk s r x.desc)
    (repair : ∀ r, c = some (.repair r) → RepairOk s r) : Planned (setCurrent c s) where
  streams := streamsOk_same h.streams rfl
  desk := by
    have stands : desk (setCurrent c s) = desk s := desk_same (fun _ => rfl) rfl same rfl rfl
    rw [stands]
    exact h.desk
  books := {
    pool := h.books.pool
    pending := h.books.pending
    active := h.books.active
    place := fun r x run found => by
      obtain ⟨once, fits, pool⟩ := place r _ x run rfl found
      exact ⟨once, fits, pool⟩
    repair := fun r run => by
      obtain ⟨fits, held, within⟩ := repair r run
      exact ⟨fits, held, within⟩ }

/-- A free engine takes up a repair, with nothing yet held or set aside. -/
theorem begin_planned {s : State} (h : Planned s) (free : s.engine.current = none) (kind : RepairKind) (p : Port) :
    Planned (setCurrent (some (.repair (newRepair kind p s))) s) := by
  refine setCurrent_planned h (by rw [free]; rfl) (fun r _ x run => (by cases run)) fun r run => ?_
  cases run
  exact ⟨fun e => timelineOk_filter (h.books.pending e) _, fun n e q mem => (by cases mem), fun n es within => (by cases within)⟩

/-- The PLACE op that waits first is taken from the queue. -/
def placeTaken (n : StreamNo) (xs : List Entry) (s : State) : State :=
  (s.modEngine fun g => { g with waiting := xs }).modStream n fun t => { t with stage := .searching }

theorem takePlace_planned {s : State} (h : Planned s) (free : s.engine.current = none) {x : Entry} {xs : List Entry}
    (waiting : s.engine.waiting = x :: xs) {n : StreamNo} (op : x.op = .place n) :
    Planned (setCurrent (some (.place (newPlace x.tag n (placeTaken n xs s)))) (placeTaken n xs s)) := by
  obtain ⟨y, found, stage⟩ := desk_stage ((h.desk.queued n).2 (by simp [desk, waiting, op]))
  have taken : (placeTaken n xs s).streams[n] = some { y with stage := .searching } := by
    rw [placeTaken, modStream_streams, if_pos rfl]
    show Option.map _ s.streams[n] = _
    rw [found]; rfl
  refine ⟨streamsOk_modStream (f := fun t => { t with stage := .searching }) h.streams rfl fun _ => ⟨rfl, rfl, le_refl _⟩, ?_, ?_⟩
  · exact h.desk.takePlace (modStream_moves (f := fun t => { t with stage := .searching }) rfl found) (by simp [desk, waiting, op, placeTaken, setCurrent])
      (by simp only [desk, free]; rfl) rfl rfl rfl
  · refine ⟨h.books.pool, h.books.pending, h.books.active, fun r z run hz => ?_, fun r run => (by cases run)⟩
    cases run
    have same : z = { y with stage := .searching } := Option.some.inj (hz.symm.trans taken)
    subst same
    refine ⟨?_, fun e p mem => (by cases mem), fun fits => ?_⟩
    · show (State.legPorts _ n ++ []).Nodup
      rw [List.append_nil, legPorts_eq taken]
      exact (h.streams.each n y found).legs
    · by_contra excess
      rw [← desc_cells, ← reservedCells_eq taken] at excess
      have refused : (newPlace x.tag n (placeTaken n xs s)).verdict ≠ none := by
        unfold newPlace
        dsimp only
        rw [if_pos (by exact Nat.lt_of_not_le excess)]
        exact Option.some_ne_none _
      exact refused fits

/-- A stream that a RELEASE op makes RELEASING (R88). -/
def leavingStream (x : Stream) : Stream :=
  { x with stage := .releasing, releaseQueued := false, legs := x.legs.map fun l => { l with pendingPl := none } }

/-- The RELEASE op that waits first is carried out. -/
theorem carryRelease_planned {s : State} (h : Planned s) (free : s.engine.current = none) {x : Entry} {xs : List Entry}
    (waiting : s.engine.waiting = x :: xs) {n : StreamNo} (op : x.op = .release n) :
    Planned (carryRelease x.tag n (s.modEngine fun g => { g with waiting := xs })) := by
  obtain ⟨y, found, stage⟩ := desk_stage (h.desk.releases n (by simp [desk, waiting, op])).1
  refine ⟨streamsOk_modStream (f := leavingStream) h.streams rfl fun z => ⟨rfl, ?_, le_refl _⟩, ?_, ?_⟩
  · exact List.map_map
  · exact h.desk.carryRelease (n := n) (modStream_moves (f := leavingStream) rfl found) (by simp [desk, waiting, op, carryRelease, dropPending])
      rfl (by simp [desk, carryRelease, dropPending]) rfl
  · refine .free ((Nat.sub_le _ _).trans h.books.pool) (fun e => ?_) h.books.active free
    have timelines : (carryRelease x.tag n (s.modEngine fun g => { g with waiting := xs })).engine.timelines[e] =
        withoutStream n s.engine.timelines[e] := Vector.getElem_map ..
    rw [timelines]
    exact timelineOk_filter (h.books.pending e) _

theorem arbitrate_planned (fuel : Nat) {s : State} (h : Planned s) : Planned (arbitrate fuel s) := by
  induction fuel generalizing s with
  | zero => exact h
  | succ fuel ih =>
    unfold arbitrate
    split
    · exact h
    · next idle =>
      have free : s.engine.current = none := by simpa using idle
      split
      · next kind p _ =>
        have posted := (unpost_steady kind p s).planned h
        dsimp only
        split
        · exact ih posted
        · refine (mark_steady _ _).planned (begin_planned posted ?_ kind p)
          cases kind <;> exact free
      · split
        · exact h
        · next x xs waiting =>
          dsimp only
          split
          · next n op => exact ih (carryRelease_planned h free waiting op)
          · next n op => exact (mark_steady _ _).planned (takePlace_planned h free waiting op)

theorem engineTake_planned {s : State} (h : Planned s) : Planned (engineTake s) := arbitrate_planned _ h

end Sys2Proof.MotionLaws
end

section
/-! SUPPORT. Leg steps keep the stream table, the desk and the books (R74 to R80). -/

namespace Sys2Proof.MotionLaws

open Sys2Proof.Machine Sys2Proof.Safety Sys2Proof.Laws Sys2Proof.CellTime Sys2Proof.PortLaws

theorem countStep_steady (new : Bool) : Steadies (countStep new) := fun s => modEngine_steady (by exact fun _ => rfl) s

theorem placeStep_stream (r : PlaceRun) (d : Desc) (e : Port) (rest : List Port) (s : State) :
    (placeStep r d e rest s).stream = r.stream := by
  unfold placeStep
  dsimp only
  split <;> rfl

/-- A leg placed for a PLACE op fits the pending timeline of its egress. -/
theorem placeStep_ok {s : State} {r : PlaceRun} {d : Desc} (h : PlaceOk s r d) (takes : 1 ≤ d.k)
    (pending : ∀ e : Port, TimelineOk s.engine.timelines[e]) {e : Port} {rest : List Port} (todo : r.todo = e :: rest) :
    PlaceOk s (placeStep r d e rest s) d := by
  obtain ⟨once, fits, pool⟩ := h
  unfold placeStep
  dsimp only
  split
  · next p placed =>
    refine ⟨?_, fun x q mem => ?_, pool⟩
    · rw [todo] at once
      refine (List.Perm.nodup_iff ?_).1 once
      simp only [List.map_append, List.map_cons, List.map_nil, List.cons_append]
      rw [← List.append_assoc]
      exact (List.perm_append_singleton e _).symm
    · rcases List.mem_append.1 mem with old | new
      · exact fits x q old
      · obtain ⟨rfl, rfl⟩ := Prod.ext_iff.1 (List.mem_singleton.1 new)
        exact legSearch_fits r.stream placed (pending _) (legLength_pos takes ..)
  · exact ⟨once, fits, fun none => (by cases none)⟩

/-! ### A repair's leg step (R79, R80) -/

/-- The stream whose leg a repair examines is PLACED or ACTIVE. -/
theorem repairNext_stage {s : State} {r : RepairRun} (h : RepairOk s r) {n : StreamNo} {e : Port} {rest : List Port}
    {put : List (StreamNo × Port)} (next : s.repairNext r = some (n, e, rest, put)) : InStage s n [.placed, .active] := by
  have examined {k : StreamNo} (found : s.nextExamined r.kind r.port r.nextStream = some k) : InStage s k [.placed, .active] := by
    have holds := List.find?_some found
    cases stream : s.streams[k] with
    | none => simp [stream] at holds
    | some x =>
      refine ⟨x, stream, ?_⟩
      simp only [stream, Bool.and_eq_true, Bool.or_eq_true, beq_iff_eq] at holds
      simpa using holds.2.1
  unfold State.repairNext at next
  split at next
  · next m e' rest' within =>
    cases next
    exact h.within _ _ within
  · split at next
    · cases next
    · next found =>
      split at next
      · cases next
        exact examined found
      · split at next
        · cases next
        · cases next
          exact examined found

/-- More set aside leaves less in a timeline. -/
theorem keep_aside (r : RepairRun) (put : List (StreamNo × Port)) (e : Port) (tl : List Window) :
    ({ r with aside := r.aside ++ put }.keep e tl).Sublist (r.keep e tl) := by
  refine List.monotone_filter_right _ fun w => ?_
  simp only [List.contains_append, Bool.not_or, Bool.and_eq_true]
  exact And.left

/-- What a repair sets aside before its leg step. -/
def setAside (n : StreamNo) (put : List (StreamNo × Port)) (r : RepairRun) : RepairRun :=
  { r with aside := r.aside ++ put, examined := true, nextStream := n.val + 1 }

theorem setAside_ok {s : State} {r : RepairRun} (h : RepairOk s r) (pending : ∀ e : Port, TimelineOk s.engine.timelines[e])
    (n : StreamNo) (put : List (StreamNo × Port)) : RepairOk s (setAside n put r) :=
  ⟨fun e => timelineOk_insert_sublist (h.fits e) (timelineOk_filter (pending e) _) (.refl _) (keep_aside r put e _), h.held, h.within⟩

/-- A result joins those that a repair holds. -/
theorem heldOn_more (s : State) (r : RepairRun) (x : Result) (w : Option (StreamNo × List Port)) (e : Port) :
    s.heldOn { r with results := r.results ++ [x], within := w } e = s.heldOn r e ++ windowsBy (repeatsOf s) r.planM e x := by
  rw [heldOn_eq, heldOn_eq, List.flatMap_append, List.flatMap_singleton]

/-- A leg that a repair places fits the view of its egress. -/
theorem placed_ok {s : State} {r : RepairRun} (h : RepairOk s r) {n : StreamNo} {x : Stream} (found : s.streams[n] = some x)
    (stage : x.stage ∈ [Stage.placed, .active]) (takes : 1 ≤ x.desc.k) {e : Port} {p : Placement}
    (search : legSearch (legInputs x.desc r.planM r.speeds e s.ports[e]) (s.repairView r e) = .placed p)
    {w : Option (StreamNo × List Port)} (within : ∀ m es, w = some (m, es) → InStage s m [.placed, .active]) :
    RepairOk s { r with results := r.results ++ [(n, e, .placed p)], within := w } := by
  refine ⟨fun q => ?_, fun m q p' mem => ?_, within⟩
  · rw [heldOn_more, insertWindows_append]
    by_cases here : e = q
    · subst here
      have repeats : repeatsOf s n = x.desc.repeats := by rw [repeatsOf, found]; rfl
      have windows : windowsBy (repeatsOf s) r.planM e (n, e, .placed p) =
          windowsOf n x.desc.repeats (r.planM / x.desc.repeats) p := by
        rw [← repeats]
        exact if_pos rfl
      rw [windows]
      exact legSearch_fits n search (h.fits e) (legLength_pos takes ..)
    · have windows : windowsBy (repeatsOf s) r.planM q (n, e, .placed p) = [] := if_neg here
      rw [windows]
      exact h.fits q
  · rcases List.mem_append.1 mem with old | new
    · exact h.held m q p' old
    · cases List.mem_singleton.1 new
      exact ⟨x, found, stage⟩

/-- A refusal joins the results of a repair. -/
theorem refused_ok {s : State} {r : RepairRun} (h : RepairOk s r) (n : StreamNo) (e : Port) (why : Reason) :
    RepairOk s { r with results := r.results ++ [(n, e, .refused why)] } := by
  refine ⟨fun q => ?_, fun m q p mem => ?_, h.within⟩
  · have held : s.heldOn { r with results := r.results ++ [(n, e, .refused why)] } q = s.heldOn r q := by
      rw [heldOn_eq, heldOn_eq, List.flatMap_append]
      exact List.append_nil _
    rw [held]
    exact h.fits q
  · rcases List.mem_append.1 mem with old | new
    · exact h.held m q p old
    · cases List.mem_singleton.1 new

/-- A refused stream gives up what a repair holds for it. -/
theorem streamRefused_ok {s : State} {r : RepairRun} (h : RepairOk s r) (pending : ∀ e : Port, TimelineOk s.engine.timelines[e])
    (n : StreamNo) (es : List Port) (why : Reason) :
    RepairOk s { r with
      results := (r.results.filter fun x => x.1 != n) ++ es.map fun x => (n, x, .refused why), within := none } := by
  refine ⟨fun q => ?_, fun m q p mem => ?_, fun m es some => (by cases some)⟩
  · refine timelineOk_insert_sublist (h.fits q) (timelineOk_filter (pending q) _) ?_ (.refl _)
    have nothing : (es.map fun x => ((n, x, .refused why) : Result)).flatMap (windowsBy (repeatsOf s) r.planM q) = [] := by
      refine List.flatMap_eq_nil_iff.2 fun y mem => ?_
      obtain ⟨x, -, rfl⟩ := List.mem_map.1 mem
      rfl
    rw [heldOn_eq, heldOn_eq, List.flatMap_append, nothing, List.append_nil]
    exact List.Sublist.flatMap List.filter_sublist _
  · rcases List.mem_append.1 mem with old | new
    · exact h.held m q p (List.mem_of_mem_filter old)
    · obtain ⟨x, -, same⟩ := List.mem_map.1 new
      cases same

theorem repairStep_ok {s : State} {r : RepairRun} (h : RepairOk s r) (pending : ∀ e : Port, TimelineOk s.engine.timelines[e])
    {n : StreamNo} {x : Stream} (found : s.streams[n] = some x) (stage : x.stage ∈ [Stage.placed, .active])
    (takes : 1 ≤ x.desc.k) (e : Port) (rest : List Port) (put : List (StreamNo × Port)) :
    RepairOk s (repairStep r n x.desc e rest put s) := by
  have aside := setAside_ok h pending n put
  unfold repairStep
  dsimp only
  split
  · show RepairOk s { setAside n put r with results := r.results ++ [(n, e,
      legSearch (legInputs x.desc r.planM r.speeds e s.ports[e]) (s.repairView (setAside n put r) e))] }
    cases search : legSearch (legInputs x.desc r.planM r.speeds e s.ports[e]) (s.repairView (setAside n put r) e) with
    | placed p => exact placed_ok aside found stage takes search aside.within
    | refused why => exact refused_ok aside n e why
  · next p search _ =>
    refine placed_ok aside found stage takes search fun m es some => ?_
    split at some
    · cases some
    · cases some
      exact ⟨x, found, stage⟩
  · exact streamRefused_ok aside pending n _ _

theorem takeLegStep_planned {s : State} (h : Planned s) : Planned (takeLegStep s) := by
  unfold takeLegStep
  split
  · next r current =>
    split
    · next e rest x _ todo found =>
      refine (countStep_steady _ _).planned (setCurrent_planned h ?_ (fun r' n y run own hy => ?_) fun r' run => (by cases run))
      · rw [current]
        exact congrArg some (placeStep_stream ..)
      · cases run
        rw [placeStep_stream] at own
        subst own
        rw [found] at hy
        cases hy
        exact placeStep_ok (h.books.place r x current found) (h.streams.each _ x found).takes h.books.pending todo
    · exact h
  · next r current =>
    split
    · next n e rest put next =>
      split
      · next x found =>
        refine (countStep_steady _ _).planned (setCurrent_planned h ?_ (fun r' _ y run => (by cases run)) fun r' run => ?_)
        · rw [current]; rfl
        · cases run
          have ok := h.books.repair r current
          obtain ⟨y, hy, stage⟩ := repairNext_stage ok next
          rw [found] at hy
          cases hy
          exact repairStep_ok ok h.books.pending found stage (h.streams.each n x found).takes e rest put
      · exact h
    · exact h
  · exact h

end Sys2Proof.MotionLaws
end

section
/-! SUPPORT. The ends of the engine's operations keep the stream table, the desk and the books (R76 to R80, R87, R89). -/

namespace Sys2Proof.MotionLaws

open Sys2Proof.Machine Sys2Proof.Safety Sys2Proof.Laws Sys2Proof.CellTime Sys2Proof.PortLaws

/-- Written results leave the outlines of the streams and their alive counts. -/
theorem written_outlines {m kind port xs} {s t : State} (h : Written m kind port xs s t) (n : StreamNo) :
    t.streams[n].map outline = s.streams[n].map outline := by
  rw [h.streams, Option.map_map]
  congr 1
  exact funext (outline_mapLegs fun l => pended_egress kind port n xs l)

theorem written_lesser {m kind port xs} {s t : State} (h : Written m kind port xs s t) (n : StreamNo) (y : Stream)
    (found : t.streams[n] = some y) : ∃ x, s.streams[n] = some x ∧ Lesser x y := by
  rw [h.streams] at found
  obtain ⟨x, hx, rfl⟩ := Option.map_eq_some_iff.1 found
  refine ⟨x, hx, rfl, ?_, le_refl _⟩
  rw [List.map_map]
  exact List.map_congr_left fun l _ => pended_egress kind port n xs l

/-! ### The end of a PLACE op -/

/-- The stream of the current PLACE op is in the table. -/
theorem placing_found {c : State} (h : Planned c) {r : PlaceRun} (current : c.engine.current = some (.place r)) :
    ∃ y, c.streams[r.stream] = some y := by
  have placed : (desk c).placing = some r.stream := by
    simp only [desk, current]; rfl
  obtain ⟨y, found, -⟩ := desk_stage ((h.desk.searching r.stream).2 placed)
  exact ⟨y, found⟩

theorem placeEnded_planned {c : State} (h : Planned c) {r : PlaceRun} (current : c.engine.current = some (.place r))
    (verdict : r.verdict = none) : Planned (placeEnded r c) := by
  obtain ⟨y, found⟩ := placing_found h current
  have done := placeEnded_done r found
  obtain ⟨once, fits, pool⟩ := h.books.place r y current found
  have written := done.written
  have streams : (placeEnded r c).streams = ((heldWritten r c).modStream r.stream fun t => { t with stage := .placed }).streams := rfl
  refine ⟨streamsOk_modStream (streamsOk_lesser h.streams (written_lesser written)) streams fun _ => ⟨rfl, rfl, le_refl _⟩, ?_, ?_⟩
  · refine h.desk.placeSuccess (n := r.stream) (desk_moves ?_ fun m other => ?_) ?_ ?_ ?_ ?_ ?_
    · rw [done.stream]; rfl
    · rw [streams, modStream_streams, if_neg other]
      exact written_outlines written m
    · simp only [desk, current]; rfl
    · simp only [desk, done.engine]; rfl
    · simp only [desk, done.engine]
    · simp only [desk, done.engine, List.map_append]; rfl
    · simp only [desk, done.engine]
  · have free : (placeEnded r c).engine.current = none := by rw [done.engine]
    refine .free ?_ (fun e => ?_) (fun e => by rw [done.egress]; exact h.books.active e) free
    · rw [done.engine, desc_cells]
      exact pool verdict
    · rw [done.timelines]
      by_cases held : e ∈ r.held.map (·.1)
      · obtain ⟨⟨q, p⟩, mem, rfl⟩ := List.mem_map.1 held
        have repeats : repeatsOf c r.stream = y.desc.repeats := by rw [repeatsOf, found]; rfl
        rw [windowsBy_held (once.sublist (List.sublist_append_right _ _)) mem, repeats]
        exact fits q p mem
      · rw [windowsBy_unheld held]
        exact h.books.pending e

theorem placeSuccess_planned {c : State} (h : Planned c) {r : PlaceRun} (current : c.engine.current = some (.place r))
    (verdict : r.verdict = none) : Planned (placeSuccess r c) := by
  rw [placeSuccess_eq]
  exact engineTake_planned (placeEnded_planned h current verdict)

/-- A PLACE op is given up: its stream is FREE, its reply finished, and no operation current. -/
theorem placeGivenUp_planned {c t : State} (h : Planned c) {r : PlaceRun} (current : c.engine.current = some (.place r))
    (streams : t.streams = (c.setStream r.stream none).streams) (egress : t.egress = c.egress) {x : FinishedReply}
    (engine : ledger t.engine = ledger { c.engine with current := none, finished := c.engine.finished ++ [x] }) : Planned t := by
  have free : t.engine.current = none := (congrArg Engine.current engine :)
  have waiting : t.engine.waiting = c.engine.waiting := (congrArg Engine.waiting engine :)
  have deferred : t.engine.deferred = c.engine.deferred := (congrArg Engine.deferred engine :)
  have finished : t.engine.finished = c.engine.finished ++ [x] := (congrArg Engine.finished engine :)
  have pool : t.engine.pool = c.engine.pool := (congrArg Engine.pool engine :)
  have pending : t.engine.timelines = c.engine.timelines := (congrArg Engine.timelines engine :)
  refine ⟨streamsOk_freed h.streams streams, ?_, ?_⟩
  · refine h.desk.placeAbandoned (setStream_moves streams) ?_ ?_ ?_ ?_ ?_
    · simp only [desk, current]; rfl
    · simp only [desk, free]; rfl
    · simp only [desk, waiting]
    · simp only [desk, deferred]
    · simp only [desk, finished, List.length_append, List.length_singleton]
  · exact .free (by rw [pool]; exact h.books.pool) (fun e => by rw [pending]; exact h.books.pending e)
      (fun e => by rw [egress]; exact h.books.active e) free

theorem placeFailure_planned {c : State} (h : Planned c) {r : PlaceRun} (current : c.engine.current = some (.place r))
    (why : Refused) : Planned (placeFailure r why c) :=
  engineTake_planned (placeGivenUp_planned h current rfl rfl rfl)

/-! ### The end of a repair -/

theorem repairEnded_planned {c : State} (h : Planned c) {r : RepairRun} (current : c.engine.current = some (.repair r)) :
    Planned (repairEnded r c) := by
  have done := repairEnded_done r c
  have written : Written r.planM r.kind r.port r.results (asideDropped r c) (resultsWritten r c) :=
    forAll_written r.planM r.kind r.port r.results (asideDropped r c)
  have aside : (asideDropped r c).streams = c.streams := (congrArg State.streams (forAll_dropAside r allPorts c).1 :)
  have outlines (n : StreamNo) : (repairEnded r c).streams[n].map outline = c.streams[n].map outline := by
    rw [← aside]
    exact written_outlines written n
  refine ⟨streamsOk_same (streamsOk_lesser (streamsOk_same h.streams aside) (written_lesser written)) rfl, ?_, ?_⟩
  · have same : desk (repairEnded r c) = desk c := by
      refine desk_same outlines (congrArg Engine.waiting done.engine :) ?_ (congrArg Engine.deferred done.engine :)
        (congrArg Engine.finished done.engine :)
      rw [current]
      exact (congrArg (fun g : Engine => placing g.current) done.engine :)
    rw [same]
    exact h.desk
  · refine .free ((congrArg Engine.pool done.engine :).trans_le h.books.pool) (fun e => ?_)
      (fun e => by rw [done.egress]; exact h.books.active e) (congrArg Engine.current done.engine :)
    rw [done.timelines]
    exact (h.books.repair r current).fits e

theorem repairSuccess_planned {c : State} (h : Planned c) {r : RepairRun} (current : c.engine.current = some (.repair r)) :
    Planned (repairSuccess r c) := by
  rw [repairSuccess_eq]
  exact engineTake_planned (repairEnded_planned h current)

theorem endPlace_planned {s : State} (h : Planned s) : Planned (endPlace s) := by
  unfold endPlace
  split
  · next r current =>
    split
    · exact placeFailure_planned h current _
    · next verdict =>
      split
      · exact placeSuccess_planned h current verdict
      · exact h
  · exact h

theorem endRepair_planned {s : State} (h : Planned s) : Planned (endRepair s) := by
  unfold endRepair
  split
  · next r current =>
    split
    · exact repairSuccess_planned h current
    · exact h
  · exact h

theorem endHeld_planned {s : State} (h : Planned s) : Planned (endHeld s) := by
  unfold endHeld
  split
  · next r current =>
    split
    · next ends => exact placeSuccess_planned h current (by simp only [Bool.and_eq_true, Option.isNone_iff_eq_none] at ends; exact ends.1)
    · exact h
  · next r current =>
    split
    · exact repairSuccess_planned h current
    · exact h
  · exact h

end Sys2Proof.MotionLaws
end

section
/-! SUPPORT. The commit and the cycle start keep the stream table, the desk and the books (R44 to R48, R86, R91). -/

namespace Sys2Proof.MotionLaws

open Sys2Proof.Machine Sys2Proof.Safety Sys2Proof.Laws Sys2Proof.CellTime Sys2Proof.PortLaws

/-- What the commit makes of a stream, as the invariant sees it (R44 to R46). -/
def committedOutline : Stage × Desc × Bool × List Port → Option (Stage × Desc × Bool × List Port)
  | (.placed, d, _, es) => some (.active, d, false, es)
  | (.releasing, _) => none
  | x => some x

/-- A stream that the commit has settled is settled. -/
theorem committedOutline_twice (x : Option (Stage × Desc × Bool × List Port)) :
    (x.bind committedOutline).bind committedOutline = x.bind committedOutline := by
  obtain _ | ⟨stage, d, b, es⟩ := x
  · rfl
  · cases stage <;> rfl

theorem emptyLeg_steady (cause : Cause) (n : StreamNo) (e : Port) (s : State) : Steady s (letGo n e (dropSlot cause n e s)) :=
  (dropSlot_steady ..).trans (letGo_steady ..)

theorem commitLeg_steady (n : StreamNo) (l : Leg) : Steadies (commitLeg n l) := fun s => by
  by_cases pending : l.pendingPl = none
  · rw [commitLeg_none pending]
    exact .refl s
  · have taken : Steady s ((s.modLeg n l.egress fun k => { k with placement := placedAs l }).modLeg n l.egress fun k =>
        { k with state := became s.ports[l.egress] l, pendingPl := none }) :=
      (modLeg_steady (by exact fun _ => rfl) s).trans (modLeg_steady (by exact fun _ => rfl) _)
    rw [commitLeg_pending pending]
    exact ite_steady (taken.trans (emptyLeg_steady ..)) taken

/-- The legs of a RELEASING stream, emptied (R46). -/
theorem emptyLegs_steady (n : StreamNo) (ls : List Leg) (s : State) :
    Steady s (forAll ls (fun l t => letGo n l.egress (dropSlot .released n l.egress t)) s) := by
  induction ls generalizing s with
  | nil => exact .refl s
  | cons l ls ih => exact (emptyLeg_steady .released n l.egress s).trans (ih _)

theorem freeReleasing_streams (n : StreamNo) (x : Stream) (s : State) : (freeReleasing n x s).streams =
    ((forAll x.legs (fun l t => letGo n l.egress (dropSlot .released n l.egress t)) s).setStream n none).streams := by
  rw [freeReleasing_eq, freed_streams]
  rfl

theorem outline_activated (s : State) (x : Stream) :
    outline (activated s x) = (.active, x.desc, false, x.legs.map (·.egress)) := by
  have legs : (x.legs.map (activateLeg s)).map (·.egress) = x.legs.map (·.egress) := by
    rw [List.map_map]
    exact List.map_congr_left fun l _ => activateLeg_egress s l
  rw [outline, activated, legs]

/-- The commit of one stream, as the invariant sees it. -/
theorem commitStream_outline (n : StreamNo) (s : State) (m : StreamNo) : (commitStream n s).streams[m].map outline =
    if m = n then (s.streams[n].map outline).bind committedOutline else s.streams[m].map outline := by
  have still (x : Stream) (found : s.streams[n] = some x) (stands : committedOutline (outline x) = some (outline x)) :
      s.streams[m].map outline = if m = n then (s.streams[n].map outline).bind committedOutline else s.streams[m].map outline := by
    split
    · next same =>
      subst same
      rw [found, Option.map_some, Option.bind_some, stands]
    · rfl
  cases found : s.streams[n] with
  | none =>
    rw [commitStream_waiting fun x h => by rw [found] at h; cases h]
    split
    · next same =>
      subst same
      rw [found]; rfl
    · rfl
  | some x =>
    rw [← found]
    cases stage : x.stage with
    | placed =>
      rw [commitStream_placed found stage, setStream_streams]
      split
      · rw [found, Option.map_some, Option.map_some, Option.bind_some, outline_activated, outline, stage]
        rfl
      · rfl
    | active =>
      rw [commitStream_active found stage, (forAll_steady (commitLeg_steady n) x.legs s).outlines]
      exact still x found (by rw [outline, stage]; rfl)
    | releasing =>
      rw [commitStream_releasing found stage, freeReleasing_streams, setStream_streams]
      split
      · rw [found, Option.map_some, Option.bind_some, outline, stage]
        rfl
      · exact (emptyLegs_steady n x.legs s).outlines m
    | queued | searching =>
      rw [commitStream_waiting fun y h => by rw [found] at h; cases h; simp [stage]]
      exact still x found (by rw [outline, stage]; rfl)

/-- The commit of some streams, as the invariant sees it. -/
theorem commitStreams_outline (ns : List StreamNo) (s : State) (m : StreamNo) :
    (forAll ns commitStream s).streams[m].map outline =
      if m ∈ ns then (s.streams[m].map outline).bind committedOutline else s.streams[m].map outline := by
  induction ns generalizing s with
  | nil => rfl
  | cons n ns ih =>
    refine (ih (commitStream n s)).trans ?_
    rw [commitStream_outline]
    by_cases here : m = n
    · subst here
      simp only [if_true, List.mem_cons, true_or, committedOutline_twice, ite_self]
    · simp only [List.mem_cons, here, false_or, if_false]

/-- The commit of a stream keeps the alive counts bounded (R45, R55). -/
theorem commitStream_alive (n : StreamNo) {s : State} (h : AliveBounded s) : AliveBounded (commitStream n s) := by
  cases found : s.streams[n] with
  | none =>
    rw [commitStream_waiting fun x h => by rw [found] at h; cases h]
    exact h
  | some x =>
    cases stage : x.stage with
    | placed =>
      rw [commitStream_placed found stage]
      intro m y hy
      rw [setStream_streams] at hy
      split at hy
      · cases hy
        exact Nat.zero_le _
      · exact h m y hy
    | active =>
      rw [commitStream_active found stage]
      exact (forAll_steady (commitLeg_steady n) x.legs s).alive h
    | releasing =>
      rw [commitStream_releasing found stage]
      intro m y hy
      rw [freeReleasing_streams, setStream_streams] at hy
      split at hy
      · cases hy
      · exact (emptyLegs_steady n x.legs s).alive h m y hy
    | queued | searching =>
      rw [commitStream_waiting fun y h => by rw [found] at h; cases h; simp [stage]]
      exact h

theorem settled_outline (s : State) (n : StreamNo) :
    (settled s).streams[n].map outline = (s.streams[n].map outline).bind committedOutline := by
  have streams : (copied s).streams = s.streams := (congrArg State.streams (copied_rest s) :)
  rw [settled, commitStreams_outline, if_pos (mem_allStreams n), streams]

theorem settled_alive {s : State} (h : AliveBounded s) : AliveBounded (settled s) := by
  have streams : (copied s).streams = s.streams := (congrArg State.streams (copied_rest s) :)
  have start : AliveBounded (copied s) := by
    intro n x found
    exact h n x (by rwa [streams] at found)
  unfold settled
  generalize copied s = t at start
  induction allStreams generalizing t with
  | nil => exact start
  | cons n ns ih => exact ih _ (commitStream_alive n start)

/-- A stream that the commit left: its description and legs stand, and its stage is what the commit makes of it. -/
theorem committedOutline_some {x y : Stage × Desc × Bool × List Port} (h : committedOutline x = some y) :
    y.2.1 = x.2.1 ∧ y.2.2.2 = x.2.2.2 := by
  obtain ⟨stage, d, b, es⟩ := x
  cases stage <;> cases h <;> exact ⟨rfl, rfl⟩

theorem commit_found {s : State} {n : StreamNo} {y : Stream} (found : (settled s).streams[n] = some y) :
    ∃ x, s.streams[n] = some x ∧ y.desc = x.desc ∧ y.legs.map (·.egress) = x.legs.map (·.egress) := by
  have view := settled_outline s n
  rw [found, Option.map_some] at view
  obtain ⟨v, hv, made⟩ := Option.bind_eq_some_iff.1 view.symm
  obtain ⟨x, hx, rfl⟩ := Option.map_eq_some_iff.1 hv
  obtain ⟨desc, legs⟩ := committedOutline_some made
  exact ⟨x, hx, desc, legs⟩

theorem commit_stage (s : State) (n : StreamNo) : (desk (commit s)).stage n = committedStage ((desk s).stage n) := by
  have stage (u : State) : (desk u).stage n = (u.streams[n].map outline).map (·.1) := by rw [Option.map_map]; rfl
  rw [stage, stage, (commit_made s).streams, settled_outline]
  cases s.streams[n].map outline with
  | none => rfl
  | some x =>
    obtain ⟨stage, d, b, es⟩ := x
    cases stage <;> rfl

theorem commit_leaving (s : State) {n : StreamNo} (active : (desk s).stage n = some .active) :
    (desk (commit s)).leaving n = (desk s).leaving n := by
  have leaving (u : State) : (desk u).leaving n = (u.streams[n].map outline).any (·.2.2.1) := by
    show u.streams[n].any _ = _
    cases u.streams[n] <;> rfl
  obtain ⟨x, found, stage⟩ := desk_stage active
  rw [leaving, leaving, (commit_made s).streams, settled_outline, found, Option.map_some, Option.bind_some, outline, stage]
  rfl

/-- What the current operation needs of the streams stands through the commit. -/
theorem commit_opStands (s : State) : OpStands s (commit s) where
  place r y _ found := by
    rw [(commit_made s).streams] at found
    obtain ⟨x, hx, desc, -⟩ := commit_found found
    exact ⟨x, hx, desc⟩
  repair n x found stage := by
    have view := settled_outline s n
    rw [found, Option.map_some, Option.bind_some] at view
    have stays : ∃ v, committedOutline (outline x) = some v ∧ v.1 = .active ∧ v.2.1 = x.desc := by
      obtain placed | active : x.stage = .placed ∨ x.stage = .active := by simpa using stage
      · exact ⟨_, by rw [outline, placed]; rfl, rfl, rfl⟩
      · exact ⟨_, by rw [outline, active]; rfl, rfl, rfl⟩
    obtain ⟨v, made, active, desc⟩ := stays
    rw [made] at view
    obtain ⟨y, hy, rfl⟩ := Option.map_eq_some_iff.1 view
    exact ⟨y, by rw [(commit_made s).streams]; exact hy, by simp [show y.stage = .active from active], desc⟩

theorem commit_planned {s : State} (h : Planned s) : Planned (commit s) := by
  have made := commit_made s
  have engine := made.engine
  refine ⟨?_, ?_, ?_⟩
  · exact streamsOk_same (streamsOk_of h.streams (settled_alive (aliveBounded h.streams)) fun n y => commit_found) made.streams
  · refine h.desk.commit (commit_stage s) (fun m => commit_leaving s) ?_ ?_ ?_ ?_
    all_goals simp only [desk, engine, committedEngine, List.map_nil, List.length_append, List.length_map]
  · have egress : (commit s).egress = (settled s).egress := (congrArg State.egress made.rest :)
    refine books_stand h.books ?_ ?_ ?_ (fun e => ?_) (commit_opStands s)
    · rw [engine]; rfl
    · rw [engine]; rfl
    · rw [engine]; rfl
    · rw [egress, settled_egress, copied_timeline]
      exact h.books.pending e

theorem engineCycle_planned {s : State} (h : Planned s) : Planned (engineCycle s) := by
  unfold engineCycle
  split
  · exact endHeld_planned (commit_planned h)
  · exact endHeld_planned h

theorem cycleTail_steady : Steadies cycleTail := fun s => by
  unfold cycleTail
  dsimp only
  exact (forAll_steady (noiseCycle_steady _) allPorts s).trans ((forAll_steady (probeCount_steady _) allProbes _).trans (ageCycle_steady _))

theorem cycleStart_planned {s : State} (h : Planned s) : Planned (cycleStart s) := by
  have begun : Planned (nextBegun s) := ((endCheck_steady s).trans (modTimer_steady _ _)).planned h
  exact ((startPasses_steady _).trans (cycleTail_steady _)).planned (engineCycle_planned begun)

/-- The settings of a port taken over, an egress's choice included, up to the engine's next work (R25, R84, R119, R145). -/
theorem applyConfig_planned (p : Port) (c : PortSettings) {s : State} (h : Planned s) : Planned (applyConfig p c s) := by
  have plan (s : State) : Steady s (configPlan p c s) := by
    unfold configPlan
    exact ite_steady (modPort_steady ..) ((modPort_steady ..).trans (changePlan_steady ..))
  have exposed (old : PortUnit) (s : State) : Steady s (configExposed p c old s) := ite_steady (exposedOn_steady p s) (.refl s)
  have chosen (old : PortUnit) (s : State) : Steady s (configChosen p c old s) := ite_steady (choose_steady p s) (.refl s)
  rw [applyConfig_eq]
  exact engineTake_planned (((plan s).trans ((exposed ..).trans (chosen ..))).planned h)

end Sys2Proof.MotionLaws
end

section
/-! SUPPORT. PLACE and RELEASE keep the stream table, the desk and the books (R40, R43, R47, R82, R83). -/

namespace Sys2Proof.MotionLaws

open Sys2Proof.Machine Sys2Proof.Safety Sys2Proof.Laws Sys2Proof.CellTime Sys2Proof.PortLaws

/-! ### PLACE -/

/-- What the checks of a PLACE request say of the description they pass (R40, R43). -/
structure Described (q : Request) (d : Desc) : Prop where
  takes : 1 ≤ d.k
  ingress : d.key.ingress.val = q.b 1
  dest : d.key.dest = BitVec.ofNat 48 (q.field 2 6)
  vlan : d.key.vlan = asVlan (q.field 8 2)

theorem asPort_some {v : Nat} {p : Port} (h : asPort v = some p) : p.val = v := by
  unfold asPort at h
  split at h
  · cases h; rfl
  · cases h

theorem desc_described {q : Request} {m : Nat} {d : Desc} (h : q.desc m = .ok d) : Described q d := by
  unfold Request.desc at h
  cases port : asPort (q.b 1) with
  | none => rw [port] at h; cases h
  | some p =>
    rw [port] at h
    dsimp only at h
    split at h
    · cases h
    · split at h
      · cases h
      · split at h
        · cases h
        · split at h
          · cases h
          · split at h
            · cases h
            · next takes =>
              split at h
              · cases h
              · cases h
              · cases h
                exact ⟨Nat.not_lt.1 (not_or.1 takes).1, asPort_some port, rfl, rfl⟩

theorem portsOf_nodup (set : BitVec 8) : (portsOf set).Nodup := (List.nodup_finRange 8).filter _

/-- A key that no stream holds is not the key of any (R43). -/
theorem keyHeld_none {s : State} {port : Nat} {dest : Mac} {vlan : Option Nat} (h : s.keyHeld port dest vlan = false)
    {n : StreamNo} {x : Stream} (found : s.streams[n] = some x) :
    ¬(x.desc.key.ingress.val = port ∧ x.desc.key.dest = dest ∧ x.desc.key.vlan = vlan) := by
  rintro ⟨ingress, dest', vlan'⟩
  have none := List.any_eq_false.1 h n (mem_allStreams n)
  rw [found] at none
  exact none (by simp [ingress, dest', vlan'])

/-- The stream record of an accepted PLACE (R47, R82). -/
def queuedStream (d : Desc) : Stream := ⟨.queued, d, 0, none, false, (portsOf d.egressSet).map newLeg⟩

/-- The state in which the engine takes its next work after a PLACE (R82). -/
def placeAccepted (tag : Byte) (n : StreamNo) (d : Desc) (s : State) : State :=
  (s.setStream n (some (queuedStream d))).modEngine fun g => { g with waiting := g.waiting ++ [⟨tag, .place n⟩] }

theorem acceptPlace_eq (tag : Byte) (n : StreamNo) (d : Desc) (s : State) :
    acceptPlace tag n d s = engineTake (placeAccepted tag n d s) := rfl

theorem room_left {s : State} (room : s.engine.full = false) : (desk s).waiting.length + (desk s).placing.toList.length +
    (desk s).deferred.length + (desk s).finished < 8 := by
  have used : ¬8 ≤ s.engine.used := of_decide_eq_false room
  rw [used_eq] at used
  simpa [desk] using used

theorem placeAccepted_planned {s : State} (h : Planned s) {n : StreamNo} (free : s.streams[n] = none) {d : Desc} (takes : 1 ≤ d.k)
    (unheld : ∀ (m : StreamNo) (x : Stream), s.streams[m] = some x → x.desc.key ≠ d.key) (room : s.engine.full = false)
    (tag : Byte) : Planned (placeAccepted tag n d s) := by
  have streams : (placeAccepted tag n d s).streams = (s.setStream n (some (queuedStream d))).streams := rfl
  have look (m : StreamNo) (y : Stream) (found : (placeAccepted tag n d s).streams[m] = some y) :
      (m = n ∧ y = queuedStream d) ∨ s.streams[m] = some y := by
    rw [streams, setStream_streams] at found
    split at found
    · next same => exact .inl ⟨same, (Option.some.inj found).symm⟩
    · exact .inr found
  have other (m : StreamNo) (x : Stream) (found : s.streams[m] = some x) : m ≠ n := by
    rintro rfl
    rw [free] at found
    cases found
  refine ⟨⟨fun m y found => ?_, fun m k y z hy hz key => ?_⟩, ?_, ?_⟩
  · rcases look m y found with ⟨-, rfl⟩ | old
    · refine ⟨takes, Nat.zero_le _, ?_⟩
      have legs : (queuedStream d).legs.map (·.egress) = portsOf d.egressSet := by
        rw [queuedStream, List.map_map]
        exact List.map_id _
      rw [legs]
      exact portsOf_nodup _
    · exact h.streams.each m y old
  · rcases look m y hy with ⟨mn, rfl⟩ | oldY
    · rcases look k z hz with ⟨kn, -⟩ | oldZ
      · rw [mn, kn]
      · exact absurd key.symm (unheld k z oldZ)
    · rcases look k z hz with ⟨-, rfl⟩ | oldZ
      · exact absurd key (unheld m y oldY)
      · exact h.streams.keys m k y z oldY oldZ key
  · refine h.desk.acceptPlace (n := n) (setStream_moves (y := some (queuedStream d)) streams) ?_ ?_ rfl rfl rfl (room_left room)
    · simp only [desk, free]; rfl
    · simp only [desk, placeAccepted, State.modEngine_engine, List.map_append]; rfl
  · refine books_stand h.books rfl rfl rfl h.books.active ⟨fun r y current found => ?_, fun m x found stage => ?_⟩
    · obtain ⟨y', hy'⟩ := placing_found h current
      rw [streams, setStream_streams, if_neg (other _ y' hy')] at found
      exact ⟨y, found, rfl⟩
    · exact ⟨x, by rw [streams, setStream_streams, if_neg (other m x found)]; exact found, stage, rfl⟩

theorem refuse_steady (q : Request) (c : Code) : Steadies (refuse q c) := answer_steady q _
theorem badField_steady (q : Request) (offset : Nat) : Steadies (badField q offset) := answer_steady q _

theorem runPlace_planned (q : Request) {s : State} (h : Planned s) : Planned (runPlace q s) := by
  unfold runPlace
  split
  · exact (badField_steady q 0 s).planned h
  · next n _ =>
    split
    · exact (refuse_steady q _ s).planned h
    · next free =>
      split
      · exact (refuse_steady q _ s).planned h
      · next unheld =>
        split
        · exact (badField_steady q _ s).planned h
        · next d described =>
          split
          · exact (refuse_steady q _ s).planned h
          · split
            · exact (refuse_steady q _ s).planned h
            · next room =>
              obtain ⟨takes, ingress, dest, vlan⟩ := desc_described described
              rw [acceptPlace_eq]
              refine engineTake_planned (placeAccepted_planned h (by simpa using free) takes (fun m x found same => ?_)
                (by simpa using room) q.tag)
              exact keyHeld_none (by simpa using unheld) found (by rw [same]; exact ⟨ingress, dest, vlan⟩)

/-! ### RELEASE -/

theorem cancelPlace_eq (q : Request) (tag : Byte) (s : State) :
    cancelPlace q tag s = answer q (.plain .ok) (finishReply placeKind tag (.plain .cancelled) s) := rfl

theorem stage_of_desk {s : State} {n : StreamNo} {x : Stream} (found : s.streams[n] = some x) :
    (desk s).stage n = some x.stage := by
  simp only [desk, found]; rfl

/-- Entries that are not a stream's PLACE op. -/
theorem ops_filter (n : StreamNo) (ys : List Entry) :
    (ys.filter fun y => !y.places n).map (·.op) = (ys.map (·.op)).filter (· != .place n) := by
  rw [List.filter_map]
  rfl

/-- A stream that neither the current PLACE op nor a repair needs becomes FREE. -/
theorem freed_opStands {s t : State} {n : StreamNo} (streams : t.streams = (s.setStream n none).streams)
    (idle : ∀ x, s.streams[n] = some x → x.stage ∉ [Stage.placed, .active]) : OpStands s t := by
  refine ⟨fun r y _ found => ?_, fun m x found stage => ?_⟩
  · rw [streams, setStream_streams] at found
    split at found
    · cases found
    · exact ⟨y, found, rfl⟩
  · have other : m ≠ n := by
      rintro rfl
      exact idle x found stage
    exact ⟨x, by rw [streams, setStream_streams, if_neg other]; exact found, stage, rfl⟩

theorem releaseQueuedStream_planned (q : Request) {n : StreamNo} {s : State} (h : Planned s) {x : Stream}
    (found : s.streams[n] = some x) (stage : x.stage = .queued) : Planned (releaseQueuedStream q n s) := by
  unfold releaseQueuedStream
  dsimp only
  rw [cancelPlace_eq]
  refine (answer_steady q _ _).planned ⟨streamsOk_freed (n := n) h.streams rfl, ?_, ?_⟩
  · refine h.desk.releaseQueued (n := n) (setStream_moves (y := none) rfl) ?_ rfl ?_ rfl ?_
    · rw [stage_of_desk found, stage]
    · exact ops_filter n _
    · simp only [desk, finishReply, State.modEngine_engine, List.length_append]; rfl
  · refine books_stand h.books rfl rfl rfl h.books.active (freed_opStands (n := n) rfl fun y hy => ?_)
    rw [found] at hy
    cases hy
    simp [stage]

theorem releaseSearching_planned (q : Request) {n : StreamNo} {s : State} (h : Planned s) {x : Stream}
    (found : s.streams[n] = some x) (stage : x.stage = .searching) : Planned (releaseSearching q n s) := by
  obtain ⟨r, current, rfl⟩ := placing_some.2 ((h.desk.searching n).1 (by rw [stage_of_desk found, stage]))
  unfold releaseSearching
  rw [current]
  dsimp only
  rw [cancelPlace_eq]
  exact engineTake_planned ((answer_steady q _ _).planned (placeGivenUp_planned h current rfl rfl rfl))

/-- What a repair holds and sets aside of the other streams stands as a PLACED stream is released (R90). -/
theorem forget_ok {s t : State} {n : StreamNo} {r : RepairRun} (h : RepairOk s r)
    (pending : ∀ e : Port, TimelineOk s.engine.timelines[e]) (streams : t.streams = (s.setStream n none).streams)
    (timelines : ∀ e : Port, t.engine.timelines[e] = withoutStream n s.engine.timelines[e]) : RepairOk t (r.forget n) := by
  have stands {m : StreamNo} (other : m ≠ n) : t.streams[m] = s.streams[m] := by
    rw [streams, setStream_streams, if_neg other]
  have inStage {m : StreamNo} {stages : List Stage} (other : m ≠ n) (k : InStage s m stages) : InStage t m stages := by
    obtain ⟨x, found, stage⟩ := k
    exact ⟨x, (stands other).trans found, stage⟩
  refine ⟨fun e => ?_, fun m e p mem => ?_, fun m es within => ?_⟩
  · have held : t.heldOn (r.forget n) e = s.heldOn (r.forget n) e :=
      heldOn_congr (fun m e p mem => by
        have other : m ≠ n := by simpa using List.of_mem_filter mem
        rw [repeatsOf, repeatsOf, stands other]) e
    rw [held, heldOn_eq, timelines]
    refine timelineOk_insert_sublist (h.fits e) (timelineOk_filter (pending e) _) ?_ ?_
    · rw [heldOn_eq]
      exact List.Sublist.flatMap List.filter_sublist _
    · rw [withoutStream, List.filter_filter]
      refine List.monotone_filter_right _ fun w => ?_
      simp only [RepairRun.forget, List.contains_eq_mem, List.mem_filter, Bool.and_eq_true, Bool.not_eq_true', decide_eq_false_iff_not]
      rintro ⟨out, other⟩ mem
      exact out ⟨mem, other⟩
  · have other : m ≠ n := by simpa using List.of_mem_filter mem
    exact inStage other (h.held m e p (List.mem_of_mem_filter mem))
  · obtain ⟨within, other⟩ := Option.filter_eq_some_iff.1 within
    exact inStage (by simpa using other) (h.within m es within)

theorem releasePlaced_planned (q : Request) {n : StreamNo} {s : State} (h : Planned s) {x : Stream}
    (found : s.streams[n] = some x) (stage : x.stage = .placed) : Planned (releasePlaced q n s) := by
  unfold releasePlaced
  dsimp only
  rw [cancelPlace_eq]
  refine (answer_steady q _ _).planned ?_
  generalize released : finishReply placeKind (placeTag n s.engine.deferred) (.plain .cancelled) _ = t
  have streams : t.streams = (s.setStream n none).streams := by rw [← released]; rfl
  have egress : t.egress = s.egress := by rw [← released]; rfl
  have pool : t.engine.pool = s.engine.pool - s.reservedCells n := by rw [← released]; rfl
  have waiting : t.engine.waiting = s.engine.waiting := by rw [← released]; rfl
  have deferred : t.engine.deferred = s.engine.deferred.filter fun y => !y.places n := by rw [← released]; rfl
  have finished : ∃ y, t.engine.finished = s.engine.finished ++ [y] := ⟨_, by rw [← released]; rfl⟩
  have timelines (e : Port) : t.engine.timelines[e] = withoutStream n s.engine.timelines[e] := by
    rw [← released]
    exact Vector.getElem_map ..
  have current : t.engine.current = s.engine.current.map fun op => match op with
      | .repair r => .repair (r.forget n)
      | .place r => .place r := by rw [← released]; rfl
  clear released
  refine ⟨streamsOk_freed h.streams streams, ?_, ?_⟩
  · refine h.desk.releasePlaced (n := n) (setStream_moves (y := none) streams) ?_ ?_ ?_ ?_ ?_
    · rw [stage_of_desk found, stage]
    · simp only [desk, current]
      cases s.engine.current with
      | none => rfl
      | some op => cases op <;> rfl
    · simp only [desk, waiting]
    · simp only [desk, deferred, ops_filter]
    · obtain ⟨y, finished⟩ := finished
      simp only [desk, finished, List.length_append, List.length_singleton]
  · refine ⟨?_, fun e => ?_, fun e => ?_, fun r y run hy => ?_, fun r run => ?_⟩
    · rw [pool]
      exact (Nat.sub_le _ _).trans h.books.pool
    · rw [timelines]
      exact timelineOk_filter (h.books.pending e) _
    · rw [egress]
      exact h.books.active e
    · have same : s.engine.current = some (.place r) := by
        rw [current] at run
        obtain ⟨op, hop, made⟩ := Option.map_eq_some_iff.1 run
        cases op with
        | repair r' => cases made
        | place r' => cases made; exact hop
      rw [streams, setStream_streams] at hy
      split at hy
      · cases hy
      · obtain ⟨once, fits, cells⟩ := h.books.place r y same hy
        refine ⟨once, fun e p mem => ?_, fun verdict => ?_⟩
        · rw [timelines]
          exact timelineOk_insert_sublist (fits e p mem) (h.books.pending e) (.refl _) List.filter_sublist
        · rw [pool]
          have := cells verdict
          omega
    · rw [current] at run
      obtain ⟨op, hop, made⟩ := Option.map_eq_some_iff.1 run
      cases op with
      | place r' => cases made
      | repair r' =>
        cases made
        exact forget_ok (h.books.repair r' hop) h.books.pending streams timelines

/-- The state in which the engine takes its next work after the RELEASE of an ACTIVE stream (R83). -/
def releaseAccepted (tag : Byte) (n : StreamNo) (s : State) : State :=
  (s.modStream n fun t => { t with releaseQueued := true }).modEngine fun g =>
    { g with waiting := g.waiting ++ [⟨tag, .release n⟩] }

theorem releaseAccepted_planned {s : State} (h : Planned s) {n : StreamNo} {x : Stream} (found : s.streams[n] = some x)
    (stage : x.stage = .active) (stays : x.releaseQueued = false) (room : s.engine.full = false) (tag : Byte) :
    Planned (releaseAccepted tag n s) := by
  have streams : (releaseAccepted tag n s).streams = (s.modStream n fun t => { t with releaseQueued := true }).streams := rfl
  have look (m : StreamNo) : (releaseAccepted tag n s).streams[m] =
      if m = n then some { x with releaseQueued := true } else s.streams[m] := by
    rw [streams, modStream_streams, found]
    rfl
  refine ⟨streamsOk_modStream h.streams streams fun _ => ⟨rfl, rfl, le_refl _⟩, ?_, ?_⟩
  · have move := modStream_moves streams found
    rw [show Stream.stage { x with releaseQueued := true } = .active from stage] at move
    refine h.desk.acceptRelease move ?_ ?_ ?_ ?_ rfl rfl rfl (room_left room)
    · simp only [desk, look, if_pos]; rfl
    · rw [stage_of_desk found, stage]
    · simp only [desk, found]; exact stays
    · simp only [desk, releaseAccepted, State.modEngine_engine, List.map_append]; rfl
  · refine books_stand h.books rfl rfl rfl h.books.active ⟨fun r y _ hy => ?_, fun m z hz inStage => ?_⟩
    · rw [look] at hy
      split at hy
      · next same =>
        subst same
        cases hy
        exact ⟨x, found, rfl⟩
      · exact ⟨y, hy, rfl⟩
    · rw [look]
      by_cases same : m = n
      · subst same
        rw [found] at hz
        cases hz
        exact ⟨_, if_pos rfl, inStage, rfl⟩
      · exact ⟨z, by rw [if_neg same]; exact hz, inStage, rfl⟩

theorem runRelease_planned (q : Request) {s : State} (h : Planned s) : Planned (runRelease q s) := by
  unfold runRelease
  split
  · exact (badField_steady q 0 s).planned h
  · next n _ =>
    split
    · exact (refuse_steady q _ s).planned h
    · next x found =>
      split
      · exact (refuse_steady q _ s).planned h
      · next notLeaving =>
        split
        · exact (refuse_steady q _ s).planned h
        · split
          · next stage => exact releaseQueuedStream_planned q h found stage
          · next stage => exact releaseSearching_planned q h found stage
          · next stage => exact releasePlaced_planned q h found stage
          · next notQueued notSearching notPlaced =>
            have stage : x.stage = .active := by
              cases same : x.stage with
              | active => rfl
              | queued => exact absurd same notQueued
              | searching => exact absurd same notSearching
              | placed => exact absurd same notPlaced
              | releasing => exact absurd same notLeaving
            split
            · exact (refuse_steady q _ s).planned h
            · next stays =>
              split
              · exact (refuse_steady q _ s).planned h
              · next room =>
                exact engineTake_planned (releaseAccepted_planned h found stage (by simpa using stays) (by simpa using room) q.tag)

end Sys2Proof.MotionLaws
end

section
/-! SUPPORT. The invariant of a state within an event: `Sound`, which the reports still to be taken do not matter to, and what of
the operations and the requests keeps it. -/

namespace Sys2Proof.MotionLaws

open Sys2Proof.Machine Sys2Proof.Safety Sys2Proof.Laws Sys2Proof.CellTime Sys2Proof.PortLaws

/-- The management link, the frame buffer and the address table are within their bounds. -/
structure Tidy (s : State) : Prop where
  records : s.mgmt.outbound.length ≤ 16
  notices : s.mgmt.notices ≤ 12
  requests : s.mgmt.inbound.length ≤ 4
  kinds : KindsOk s.mgmt
  cells : CellsOk s.buffer
  addr : AddrOk s.addr.entries

/-- The invariant, but for the reports of the event. -/
structure Sound (s : State) : Prop where
  tidy : Tidy s
  planned : Planned s

theorem inv_iff {s : State} : Safety.Inv s ↔ s.fault.inbox = [] ∧ Sound s := by
  constructor
  · rintro ⟨⟨silent, records, notices, requests, kinds⟩, cells, addr, streams, engine⟩
    exact ⟨silent, ⟨records, notices, requests, kinds, cells, addr⟩, planned_iff.2 ⟨streams, engine⟩⟩
  · rintro ⟨silent, ⟨records, notices, requests, kinds, cells, addr⟩, planned⟩
    obtain ⟨streams, engine⟩ := planned_iff.1 planned
    exact ⟨⟨silent, records, notices, requests, kinds⟩, cells, addr, streams, engine⟩

/-! ### Operations of the blocks -/

/-- An operation of a block: what `Kept` says, and the plans of the engine. -/
structure Works (s t : State) : Prop where
  kept : Kept s t
  planned : Planned s → Planned t

theorem Works.refl (s : State) : Works s s := ⟨.refl s, id⟩

theorem Works.trans {s t u : State} (h : Works s t) (k : Works t u) : Works s u :=
  ⟨h.kept.trans k.kept, fun p => k.planned (h.planned p)⟩

theorem Works.steady {s t : State} (kept : Kept s t) (steady : Steady s t) : Works s t := ⟨kept, steady.planned⟩

theorem ite_works {c : Prop} [Decidable c] {s a b : State} (ha : Works s a) (hb : Works s b) : Works s (if c then a else b) := by
  split
  · exact ha
  · exact hb

theorem notices_congr {m m' : MgmtLink} (h : m'.outbound = m.outbound) : m'.notices = m.notices := by
  rw [MgmtLink.notices, MgmtLink.notices, h]

theorem Tidy.kept {s t : State} (h : Tidy s) (k : Kept s t) : Tidy t where
  records := k.outbound ▸ h.records
  notices := notices_congr k.outbound ▸ h.notices
  requests := k.inbound ▸ h.requests
  kinds := k.kinds h.kinds
  cells := k.cells h.cells
  addr := k.addr h.addr

theorem Sound.works {s t : State} (h : Sound s) (k : Works s t) : Sound t := ⟨h.tidy.kept k.kept, k.planned h.planned⟩

/-! ### The management link -/

/-- Records may leave the outbound queue, requests leave or join the inbound queue, and notices leave the pending sets. -/
theorem Tidy.link {s t : State} (h : Tidy s) (outbound : t.mgmt.outbound.Sublist s.mgmt.outbound)
    (requests : t.mgmt.inbound.length ≤ 4)
    (sources : ∀ i : Fin 12, t.mgmt.sources[i].pending.Sublist s.mgmt.sources[i].pending)
    (buffer : t.buffer = s.buffer) (addr : t.addr = s.addr) : Tidy t where
  records := outbound.length_le.trans h.records
  notices := outbound.countP_le.trans h.notices
  requests := requests
  kinds i := (h.kinds i).sublist ((sources i).map _)
  cells := buffer ▸ h.cells
  addr := addr ▸ h.addr

/-- A change of fields that the bounds do not name. -/
theorem Tidy.same {s t : State} (h : Tidy s) (mgmt : t.mgmt = s.mgmt) (buffer : t.buffer = s.buffer) (addr : t.addr = s.addr) :
    Tidy t :=
  h.link (by rw [mgmt]) (by rw [mgmt]; exact h.requests) (fun i => by rw [mgmt]) buffer addr

/-- A record joins the outbound queue, where it has a place. -/
theorem Tidy.push {s : State} (h : Tidy s) (room : s.mgmt.outbound.length < 16) {b : RecordBody}
    (notices : b.isNotice = true → s.mgmt.notices < 12) : Tidy (push b s) where
  records := by
    show (s.mgmt.outbound ++ [_]).length ≤ 16
    rw [List.length_append]
    exact room
  notices := by
    show (s.mgmt.outbound ++ [_]).countP _ ≤ 12
    rw [List.countP_append, List.countP_singleton]
    split
    · next isNotice => exact notices isNotice
    · exact h.notices
  requests := h.requests
  kinds := h.kinds
  cells := h.cells
  addr := h.addr

theorem push_steady (b : RecordBody) : Steadies (push b) := fun _ => .plain rfl rfl rfl

theorem Sound.push {s : State} (h : Sound s) (room : s.mgmt.outbound.length < 16) {b : RecordBody}
    (notices : b.isNotice = true → s.mgmt.notices < 12) : Sound (push b s) :=
  ⟨h.tidy.push room notices, (push_steady b s).planned h.planned⟩

/-- A request is answered, where it was offered a place. -/
theorem Sound.answer {s : State} (h : Sound s) (room : s.mgmt.outbound.length < 16) (q : Request) (r : Reply) :
    Sound (answer q r s) := h.push room fun isNotice => (by cases isNotice)

/-- A request is carried out by operations of the blocks and answered. -/
theorem Sound.reply {s t : State} (h : Sound s) (room : s.mgmt.outbound.length < 16) (k : Works s t) (q : Request) (r : Reply) :
    Sound (Machine.answer q r t) := (h.works k).answer (by rw [k.kept.outbound]; exact room) q r

/-- The rule of a request keeps the invariant, where the request was offered a place. -/
def Serves (run : Request → State → State) : Prop :=
  ∀ (q : Request) (s : State), Sound s → s.mgmt.outbound.length < 16 → Sound (run q s)

theorem taking_sound {kind : Byte} {len : Nat} {run : Request → State → State} (h : Serves run) {s : State} (sound : Sound s) :
    Sound (Machine.taking kind len run s) := by
  unfold Machine.taking State.takes
  cases inbound : s.mgmt.inbound with
  | nil => exact sound
  | cons q rest =>
    dsimp only
    split
    · exact sound
    · next x q' rest' taken =>
      split at taken
      · next offered =>
        cases taken
        have room : s.mgmt.outbound.length < 16 := by
          simp only [State.requestOffered, Bool.and_eq_true, decide_eq_true_eq] at offered
          exact offered.1.2.2
        have requests := sound.tidy.requests
        rw [inbound, List.length_cons] at requests
        have taken : Sound (s.modMgmt fun m => { m with inbound := rest }) :=
          ⟨sound.tidy.link (.refl _) (Nat.le_of_succ_le requests) (fun _ => .refl _) rfl rfl,
            (modMgmt_steady _ s).planned sound.planned⟩
        split
        · exact h q _ taken room
        · exact taken.answer room q _
      · cases taken

/-! ### The requests -/

theorem serves_identify : Serves runIdentify := fun q _ h room => h.answer room q _
theorem serves_faultRead : Serves runFaultRead := fun q _ h room => h.answer room q _
theorem serves_syncStatus : Serves runSyncStatus := fun q _ h room => h.answer room q _

theorem serves_linkStatus : Serves runLinkStatus := fun q s h room => by
  unfold runLinkStatus
  split
  · exact h.answer room q _
  · split
    · have cleared : Sound (s.modMgmt clearLink) :=
        ⟨h.tidy.link (.refl _) h.tidy.requests (fun _ => .refl _) rfl rfl, (modMgmt_steady _ s).planned h.planned⟩
      exact cleared.answer room q _
    · exact h.answer room q _

theorem setNumber_pending (src : Fin 12) (number : Nat) (m : MgmtLink) (i : Fin 12) :
    ((setNumber src number m).sources[i].pending).Sublist m.sources[i].pending := by
  unfold setNumber
  split
  · rw [upd_get]
    split
    · exact List.nil_sublist _
    · exact .refl _
  · rw [upd_get]
    split
    · next same => rw [same]
    · exact .refl _

theorem setNumber_queues (src : Fin 12) (number : Nat) (m : MgmtLink) :
    (setNumber src number m).outbound = m.outbound ∧ (setNumber src number m).inbound = m.inbound := by
  unfold setNumber
  split <;> exact ⟨rfl, rfl⟩

theorem serves_setNotice : Serves runSetNotice := fun q s h room => by
  unfold runSetNotice
  split
  · exact h.answer room q _
  · next src _ =>
    split
    · exact h.answer room q _
    · obtain ⟨outbound, inbound⟩ := setNumber_queues src (q.b 1) s.mgmt
      have numbered : Sound (s.modMgmt (setNumber src (q.b 1))) :=
        ⟨h.tidy.link (by rw [State.modMgmt_mgmt, outbound]) (by rw [State.modMgmt_mgmt, inbound]; exact h.tidy.requests)
          (setNumber_pending src _ s.mgmt) rfl rfl, (modMgmt_steady _ s).planned h.planned⟩
      exact numbered.answer (by rw [State.modMgmt_mgmt, outbound]; exact room) q _

theorem serves_setSync : Serves runSetSync := fun q s h room => by
  have enable (b : Bool) (t : State) : Kept t (setEnable b t) := by
    unfold setEnable
    split
    · split
      · exact (modTimer_keeps _ t).trans (changeSync_keeps ..)
      · exact .refl t
    · split
      · exact .refl t
      · exact (modTimer_keeps _ t).trans (changeSync_keeps ..)
  unfold runSetSync
  split
  · exact h.answer room q _
  · exact h.reply room (.steady ((modTimer_keeps _ s).trans (enable ..)) ((modTimer_steady _ s).trans (setEnable_steady ..))) q _

theorem serves_portConfig : Serves runPortConfig := fun q s h room => by
  unfold runPortConfig
  split
  · exact h.answer room q _
  · exact h.answer room q _
  · split
    · exact h.answer room q _
    · split
      · exact h.answer room q _
      · split
        · exact h.answer room q _
        · split
          · exact h.answer room q _
          · exact h.reply room ⟨applyConfig_keeps _ _ s, applyConfig_planned _ _⟩ q _

theorem serves_portRestart : Serves runPortRestart := fun q s h room => by
  unfold runPortRestart
  split
  · exact h.answer room q _
  · exact h.reply room (.steady ((modPort_keeps _ _ s).trans ((phyReport_keeps ..).trans (noiseRestart_keeps ..)))
      ((modPort_steady _ _ s).trans ((phyReport_steady ..).trans (noiseRestart_steady ..)))) q _

theorem serves_portStatus : Serves runPortStatus := fun q s h room => by
  unfold runPortStatus
  split <;> exact h.answer room q _

theorem serves_setFilter : Serves runSetFilter := fun q s h room => by
  unfold runSetFilter
  split
  · exact h.answer room q _
  · split
    · exact h.answer room q _
    · split
      · exact h.answer room q _
      · exact h.reply room (.steady (modPort_keeps _ _ s) (modPort_steady _ _ s)) q _

theorem serves_clearFlags : Serves runClearFlags := fun q s h room => by
  unfold runClearFlags
  split
  · exact h.answer room q _
  · exact h.reply room (.steady (modPort_keeps _ _ s) (modPort_steady _ _ s)) q _

theorem serves_streamStatus : Serves runStreamStatus := fun q s h room => by
  unfold runStreamStatus
  split
  · exact h.answer room q _
  · split <;> exact h.answer room q _

theorem serves_legStatus : Serves runLegStatus := fun q s h room => by
  unfold runLegStatus
  split
  · exact h.answer room q _
  · exact h.answer room q _
  · split <;> exact h.answer room q _

theorem serves_setCycle : Serves runSetCycle := fun q s h room => by
  unfold runSetCycle
  split
  · exact h.answer room q _
  · split
    · exact h.reply room (.steady (modTimer_keeps _ s) (modTimer_steady _ s)) q _
    · exact h.answer room q _

theorem serves_lock : Serves runLock := fun q s h room => by
  unfold runLock
  split
  · have locked : Sound (s.modEngine fun g => { g with locked := true }) :=
      ⟨h.tidy.same rfl rfl rfl, (modEngine_steady (by exact fun _ => rfl) s).planned h.planned⟩
    exact locked.answer room q _
  · exact h.answer room q _

theorem serves_timelineRead : Serves runTimelineRead := fun q s h room => by
  unfold runTimelineRead
  split
  · exact h.answer room q _
  · split <;> exact h.answer room q _

/-- The age of an entry that turns STATIC (R132). -/
theorem resetAge_young {x : AddrEntry} (young : x.age ≤ 3) : (if x.kind = .learned then 0 else x.age) ≤ 3 := by
  split
  · exact Nat.zero_le _
  · exact young

theorem serves_addrAddStatic : Serves runAddrAddStatic := fun q s h room => by
  unfold runAddrAddStatic
  dsimp only
  split
  · exact h.answer room q _
  · split
    · exact h.answer room q _
    · split
      · exact h.answer room q _
      · split
        · next new =>
          split
          · exact h.answer room q _
          · next full => exact h.reply room (.steady (addrInsert_keeps _ _ new (by simpa using full)) (.plain rfl rfl rfl)) q _
        · refine h.reply room (.steady (addrUpdate_keeps _ (by exact fun _ => ⟨rfl, rfl, rfl⟩) (by exact fun x young => resetAge_young young) s) (.plain rfl rfl rfl)) q _

/-- Entries leave the address table. -/
theorem fewerEntries_works {s : State} {f : AddrTable → AddrTable} (fewer : (f s.addr).entries.Sublist s.addr.entries) :
    Works s (s.modAddr f) :=
  .steady (modAddr_kept fun ok => addrOk_sublist ok fewer) (modAddr_steady f s)

theorem serves_addrRemove : Serves runAddrRemove := fun q s h room => by
  unfold runAddrRemove
  split
  · exact h.answer room q _
  · split
    · exact h.answer room q _
    · exact h.reply room (fewerEntries_works List.filter_sublist) q _

theorem serves_addrFlush : Serves runAddrFlush := fun q s h room => by
  unfold runAddrFlush
  split
  · exact h.answer room q _
  · refine h.reply room (fewerEntries_works ?_) q _
    dsimp only
    split
    · exact List.filter_sublist
    · exact List.nil_sublist _

theorem serves_addrRead : Serves runAddrRead := fun q s h room => by
  unfold runAddrRead
  split <;> exact h.answer room q _

theorem serves_setAging : Serves runSetAging := fun q s h room =>
  h.reply room (.steady (modAddr_same (by exact fun _ => rfl)) (modAddr_steady _ s)) q _

theorem serves_setArc : Serves runSetArc := fun q s h room =>
  h.reply room (.steady (modArc_keeps _ s) (modArc_steady _ s)) q _

/-- Clearing counters brings the lowest free cells to the free cells at most (R156). -/
theorem clearItems_works (g : CounterGroup) (lo hi : Nat) (s : State) : Works s (clearItems g lo hi s) := by
  cases g with
  | port p => exact .steady (modPort_keeps p _ s) (modPort_steady p _ s)
  | stream n => exact .steady (.plain rfl rfl rfl rfl rfl rfl rfl rfl) (.plain rfl rfl rfl)
  | leg n e => exact .steady (.plain rfl rfl rfl rfl rfl rfl rfl rfl) (.plain rfl rfl rfl)
  | device =>
    refine .steady ⟨rfl, rfl, rfl, rfl, rfl, rfl, fun _ => rfl, rfl, rfl, fun _ h => h, rfl, id, fun ok => ?_, id⟩ (.plain rfl rfl rfl)
    refine ⟨ok.motion, ok.bestEffort, ?_, ?_, ok.handles, ok.fresh⟩
    · unfold clearItems
      dsimp only
      split
      · exact le_refl _
      · exact ok.motionLow
    · unfold clearItems
      dsimp only
      split
      · exact le_refl _
      · exact ok.beLow

theorem serves_countersRead : Serves runCountersRead := fun q s h room => by
  unfold runCountersRead
  split
  · exact h.answer room q _
  · dsimp only
    split
    · exact h.answer room q _
    · split
      · exact h.answer room q _
      · exact h.reply room (ite_works (clearItems_works ..) (.refl s)) q _

theorem serves_countersClear : Serves runCountersClear := fun q s h room => by
  unfold runCountersClear
  split
  · exact h.answer room q _
  · exact h.reply room (clearItems_works ..) q _

/-- A change of the fault unit. -/
theorem modFault_sound {s : State} (h : Sound s) (f : FaultUnit → FaultUnit) : Sound (s.modFault f) :=
  ⟨h.tidy.same rfl rfl rfl, (modFault_steady f s).planned h.planned⟩

theorem serves_faultUnlock : Serves runFaultUnlock := fun q _ h room => (modFault_sound h _).answer room q _
theorem serves_setCaptureMask : Serves runSetCaptureMask := fun q _ h room => (modFault_sound h _).answer room q _

theorem serves_probeArm : Serves runProbeArm := fun q s h room => by
  unfold runProbeArm
  split
  · exact h.answer room q _
  · exact h.answer room q _
  · exact h.answer room q _
  · split
    · exact h.reply room (.steady (setProbe_keeps _ _ s) (setProbe_steady _ _ s)) q _
    · exact h.answer room q _

theorem serves_probeRead : Serves runProbeRead := fun q s h room => by
  unfold runProbeRead
  split <;> exact h.answer room q _

theorem serves_probeCancel : Serves runProbeCancel := fun q s h room => by
  unfold runProbeCancel
  split
  · exact h.answer room q _
  · exact h.reply room (.steady (setProbe_keeps _ _ s) (setProbe_steady _ _ s)) q _

/-! ### PLACE, RELEASE and RESTART -/

theorem Tidy.answer {s : State} (h : Tidy s) (room : s.mgmt.outbound.length < 16) (q : Request) (r : Reply) :
    Tidy (answer q r s) := h.push room fun isNotice => (by cases isNotice)

/-- A request is carried out by operations of the blocks, answered, and may be followed by more of them. -/
theorem Tidy.reply {s t u : State} (h : Tidy s) (room : s.mgmt.outbound.length < 16) (k : Kept s t) {q : Request} {r : Reply}
    (more : Kept (Machine.answer q r t) u) : Tidy u :=
  ((h.kept k).answer (by rw [k.outbound]; exact room) q r).kept more

theorem serves_place : Serves runPlace := fun q s h room => by
  refine ⟨?_, runPlace_planned q h.planned⟩
  have refused (r : Reply) : Tidy (answer q r s) := h.tidy.answer room q r
  unfold runPlace
  split
  · exact refused _
  · split
    · exact refused _
    · split
      · exact refused _
      · split
        · exact refused _
        · split
          · exact refused _
          · split
            · exact refused _
            · exact h.tidy.kept ((setStream_keeps _ _ s).trans ((modEngine_kept (by exact fun _ => rfl)).trans (engineTake_keeps _)))

theorem releaseQueuedStream_tidy (q : Request) (n : StreamNo) {s : State} (h : Tidy s) (room : s.mgmt.outbound.length < 16) :
    Tidy (releaseQueuedStream q n s) := by
  unfold releaseQueuedStream
  dsimp only
  rw [cancelPlace_eq]
  exact h.reply room ((setStream_keeps _ _ s).trans ((modEngine_kept (by exact fun _ => rfl)).trans (finishReply_keeps ..))) (.refl _)

theorem releaseSearching_tidy (q : Request) (n : StreamNo) {s : State} (h : Tidy s) (room : s.mgmt.outbound.length < 16) :
    Tidy (releaseSearching q n s) := by
  unfold releaseSearching
  split
  · exact h.reply room ((setStream_keeps _ _ s).trans ((setCurrent_keeps _ _).trans (finishReply_keeps ..))) (engineTake_keeps _)
  · exact h.reply room (setStream_keeps n none s) (.refl _)

theorem releasePlaced_tidy (q : Request) (n : StreamNo) {s : State} (h : Tidy s) (room : s.mgmt.outbound.length < 16) :
    Tidy (releasePlaced q n s) := by
  unfold releasePlaced
  dsimp only
  rw [cancelPlace_eq]
  exact h.reply room ((dropPending_keeps n s).trans ((setStream_keeps _ _ _).trans ((modEngine_kept (by exact fun _ => rfl)).trans
    (finishReply_keeps ..)))) (.refl _)

theorem serves_release : Serves runRelease := fun q s h room => by
  refine ⟨?_, runRelease_planned q h.planned⟩
  have refused (r : Reply) : Tidy (answer q r s) := h.tidy.answer room q r
  unfold runRelease
  split
  · exact refused _
  · split
    · exact refused _
    · split
      · exact refused _
      · split
        · exact refused _
        · split
          · exact releaseQueuedStream_tidy q _ h.tidy room
          · exact releaseSearching_tidy q _ h.tidy room
          · exact releasePlaced_tidy q _ h.tidy room
          · split
            · exact refused _
            · split
              · exact refused _
              · exact h.tidy.kept ((modStream_keeps _ _ s).trans ((modEngine_kept (by exact fun _ => rfl)).trans (engineTake_keeps _)))

/-! ### The reset values -/

theorem resetSources_pending (i : Fin 12) : resetSources[i].pending = [] := by
  revert i
  decide

theorem streamsOk_none {s : State} (none : ∀ n : StreamNo, s.streams[n] = none) : StreamsOk s :=
  ⟨fun n x found => (by rw [none] at found; cases found), fun n m x y found => (by rw [none] at found; cases found)⟩

/-- Every block at its reset values is in order, whatever the numbering and the levels of the lines. -/
theorem reset_sound {s : State} (outbound : s.mgmt.outbound = []) (inbound : s.mgmt.inbound = [])
    (sources : s.mgmt.sources = resetSources) (buffer : s.buffer = .reset) (addr : s.addr.entries = [])
    (streams : ∀ n : StreamNo, s.streams[n] = none) (engine : ledger s.engine = .reset)
    (egress : ∀ e : Port, s.egress[e].timeline = []) : Sound s := by
  have waiting : s.engine.waiting = [] := (congrArg Engine.waiting engine :)
  have current : s.engine.current = none := (congrArg Engine.current engine :)
  have deferred : s.engine.deferred = [] := (congrArg Engine.deferred engine :)
  have finished : s.engine.finished = [] := (congrArg Engine.finished engine :)
  have pool : s.engine.pool = 0 := (congrArg Engine.pool engine :)
  have timelines : s.engine.timelines = .replicate 8 [] := (congrArg Engine.timelines engine :)
  refine ⟨⟨by rw [outbound]; exact Nat.zero_le _, ?_, by rw [inbound]; exact Nat.zero_le _, fun i => ?_, ?_, ?_⟩,
    streamsOk_none streams, ?_, ?_⟩
  · rw [MgmtLink.notices, outbound]
    exact Nat.zero_le _
  · rw [sources, resetSources_pending]
    exact .nil
  · rw [buffer]
    exact ⟨rfl, rfl, le_refl _, le_refl _, .nil, fun r mem => (by cases mem)⟩
  · rw [addr]
    exact ⟨.nil, fun x mem => (by cases mem), .nil, fun x mem => (by cases mem)⟩
  · have stage (n : StreamNo) : (desk s).stage n = none := by
      simp only [desk, streams]; rfl
    have none : (desk s).waiting = [] ∧ (desk s).placing = none ∧ (desk s).deferred = [] ∧ (desk s).finished = 0 := by
      simp only [desk, waiting, current, deferred, finished]
      exact ⟨rfl, rfl, rfl, rfl⟩
    obtain ⟨waiting, placing, deferred, finished⟩ := none
    refine ⟨by simp [waiting, placing, deferred, finished], by simp [waiting], ?_, ?_, ?_, ?_⟩
    all_goals simp [stage, waiting, placing, deferred]
  · refine .free (by rw [pool]; exact Nat.zero_le _) (fun e => ?_) (fun e => by rw [egress]; exact timelineOk_nil) current
    have none : s.engine.timelines[e] = [] := by
      rw [timelines]
      exact Vector.getElem_replicate ..
    rw [none]
    exact timelineOk_nil

theorem reborn_sound (mode : StartMode) (s : State) : Sound (s.reborn mode) := by
  refine reset_sound rfl rfl rfl rfl rfl (fun n => ?_) rfl (fun e => ?_)
  · exact Vector.getElem_replicate ..
  · have egress : (s.reborn mode).egress[e] = Egress.reset := Vector.getElem_replicate ..
    rw [egress]
    rfl

theorem serves_restart : Serves runRestart := fun q s h room => by
  unfold runRestart
  split
  · exact h.answer room q _
  · have reborn := reborn_sound s.mgmt.mode s
    have transfer : Sound ((s.reborn s.mgmt.mode).modMgmt fun m =>
        { m with transfer := s.mgmt.transfer.map fun x => { x with detached := true } }) :=
      ⟨reborn.tidy.link (.refl _) reborn.tidy.requests (fun _ => .refl _) rfl rfl, (modMgmt_steady _ _).planned reborn.planned⟩
    exact transfer.answer (by exact Nat.zero_lt_succ _) q _

end Sys2Proof.MotionLaws
end

section
/-! Every command and every step keeps the invariant, and the reset values have it: the statements on the invariant. -/

namespace Sys2Proof.MotionLaws

open Sys2Proof.Machine Sys2Proof.Safety Sys2Proof.Laws Sys2Proof.CellTime Sys2Proof.PortLaws

/-- A command keeps the invariant. -/
def Guards (run : State → Host.Outcome State Fault Refusal) : Prop := ∀ s t, Safety.Inv s → run s = .next t → Safety.Inv t

/-! ### Events -/

theorem takeReport_inbox (s : State) (r : Report) : (takeReport s r).fault.inbox = s.fault.inbox := by
  unfold takeReport
  dsimp only
  split <;> rfl

theorem takeReports_inbox (s : State) : (takeReports s).fault.inbox = [] := by
  have loop (rs : List Report) (t : State) : (rs.foldl takeReport t).fault.inbox = t.fault.inbox := by
    induction rs generalizing t with
    | nil => rfl
    | cons r rs ih => exact (ih _).trans (takeReport_inbox t r)
  exact loop ..

theorem takeReports_works (s : State) : Works s (takeReports s) := .steady (takeReports_keeps s) (takeReports_steady s)

theorem guards_event {f : State → State} (h : ∀ s, Sound s → Sound (f s)) : Guards (event f) := by
  intro s t inv run
  obtain ⟨-, sound⟩ := inv_iff.1 inv
  cases run
  unfold Machine.running
  split
  · exact inv
  · exact inv_iff.2 ⟨takeReports_inbox _, (h s sound).works (takeReports_works _)⟩

/-- An event of a block keeps the invariant. -/
theorem guards_works {f : State → State} (h : ∀ s, Works s (f s)) : Guards (event f) := guards_event fun s sound => sound.works (h s)

theorem guards_taking {kind : Byte} {len : Nat} {run : Request → State → State} (h : Serves run) :
    Guards (event (Machine.taking kind len run)) := guards_event fun _ => taking_sound h

/-! ### The egresses -/

theorem choose_works (e : Port) (s : State) : Works s (choose e s) := .steady (choose_keeps e s) (choose_steady e s)

theorem modEgress_works {e : Port} {f : Egress → Egress} (h : ∀ x, (f x).timeline = x.timeline) (s : State) :
    Works s (s.modEgress e f) := .steady (modEgress_keeps e f s) (modEgress_steady h s)

theorem guards_windowOpen (e : Port) : Guards (execWindowOpen e) := guards_works fun s => by
  split
  · exact ite_works (.steady (openPrimary_keeps ..) (openPrimary_steady ..)) (.refl s)
  · exact .refl s

theorem guards_twinWindowOpen (e : Port) : Guards (execTwinWindowOpen e) := guards_works fun s => by
  split
  · exact ite_works (.steady (openTwin_keeps ..) (openTwin_steady ..)) (.refl s)
  · exact .refl s

theorem guards_windowClose (e : Port) : Guards (execWindowClose e) := guards_works fun s => by
  split
  · next o _ =>
    have closed : Works s (closeLeg e o s) := .steady (closeLeg_keeps ..) (closeLeg_steady ..)
    exact ite_works (closed.trans ((modEgress_works (by exact fun _ => rfl) _).trans (choose_works ..))) (.refl s)
  · exact .refl s

theorem guards_twinWindowClose (e : Port) : Guards (execTwinWindowClose e) := guards_works fun s => by
  split
  · next o _ =>
    have gone : Works s (letGo o.window.stream e s) := .steady (letGo_keeps ..) (letGo_steady ..)
    exact ite_works (gone.trans ((modEgress_works (by exact fun _ => rfl) _).trans (choose_works ..))) (.refl s)
  · exact .refl s

theorem guards_transmissionEnd (e : Port) : Guards (execTransmissionEnd e) := guards_works fun s => by
  split
  · next x _ =>
    have ended : Works s (endTransmission e x s) := .steady (endTransmission_keeps ..) (endTransmission_steady ..)
    exact ended.trans (choose_works ..)
  · exact .refl s

theorem guards_readyTime (e : Port) : Guards (execReadyTime e) := guards_works fun s =>
  ite_works ((modEgress_works (by exact fun _ => rfl) s).trans (choose_works ..)) (.refl s)

/-! ### The ports -/

theorem phyReport_works (p : Port) (r : LinkState) (s : State) : Works s (phyReport p r s) :=
  .steady (phyReport_keeps ..) (phyReport_steady ..)

theorem modPort_works (p : Port) (f : PortUnit → PortUnit) (s : State) : Works s (s.modPort p f) :=
  .steady (modPort_keeps ..) (modPort_steady ..)

theorem guards_receptionStart (p : Port) : Guards (execReceptionStart p) := guards_works fun s =>
  ite_works (modPort_works p _ s) (.refl s)

theorem guards_frameEnd (p : Port) (f : RxFrame) : Guards (execFrameEnd p f) := guards_works fun s => by
  split
  · exact .refl s
  · refine Works.trans (t := s.modPort p fun u => { u with receiving := none }) (modPort_works ..) ?_
    dsimp only
    split
    · exact .steady (portDrop_keeps ..) (portDrop_steady ..)
    · exact .steady ((bumpPort_keeps ..).trans (classify_keeps ..)) ((bumpPort_steady ..).trans (classify_steady ..))

theorem checkAhead_works (p : Port) (s : State) : Works s (checkAhead p s) := .steady (checkAhead_keeps ..) (checkAhead_steady ..)

theorem guards_quietCoolDown (p : Port) : Guards (execQuietCoolDown p) := guards_works fun s =>
  ite_works (checkAhead_works p s) (.refl s)

theorem guards_calmCoolDown (p : Port) : Guards (execCalmCoolDown p) := guards_works fun s =>
  ite_works (checkAhead_works p s) (.refl s)

/-! ### The cycle timer, the probes, the address table and the engine -/

theorem guards_cycleStart : Guards execCycleStart := guards_works fun s =>
  ite_works ⟨cycleStart_keeps s, cycleStart_planned⟩ (.refl s)

theorem guards_syncLost : Guards execSyncLost := guards_works fun s =>
  ite_works (.steady (endCheck_keeps s) (endCheck_steady s)) (.refl s)

theorem qualifyCyc_works (level : Bool) (s : State) : Works s (qualifyCyc level s) :=
  .steady (qualifyCyc_keeps ..) (qualifyCyc_steady ..)

theorem qualifyArc_works (level : Bool) (s : State) : Works s (qualifyArc level s) :=
  .steady (qualifyArc_keeps ..) (qualifyArc_steady ..)

theorem guards_filterSample (line : Line) (level : Bool) : Guards (execFilterSample line level) := guards_works fun s => by
  cases line with
  | cyc => exact ite_works (.steady (sampleCyc_keeps ..) (sampleCyc_steady ..)) (.refl s)
  | arc => exact ite_works (.steady (sampleArc_keeps ..) (sampleArc_steady ..)) (.refl s)

theorem guards_probeExpiry (q : Fin 4) : Guards (execProbeExpiry q) := guards_works fun s => by
  split
  · exact ite_works (.steady (probeCount_keeps ..) (probeCount_steady ..)) (.refl s)
  · exact .refl s

theorem guards_agingSweep : Guards execAgingSweep := guards_works fun s =>
  ite_works (.steady ((ageTable_keeps s).trans (modAddr_same (by exact fun _ => rfl)))
    ((ageTable_steady s).trans (modAddr_steady ..))) (.refl s)

theorem guards_legStep : Guards execLegStep := guards_works fun s => ⟨takeLegStep_keeps s, takeLegStep_planned⟩
theorem guards_placeOpEnd : Guards execPlaceOpEnd := guards_works fun s => ⟨endPlace_keeps s, endPlace_planned⟩
theorem guards_repairEnd : Guards execRepairEnd := guards_works fun s => ⟨endRepair_keeps s, endRepair_planned⟩

/-! ### The management link -/

theorem reborn_inv (mode : StartMode) (s : State) : Safety.Inv (s.reborn mode) := inv_iff.2 ⟨rfl, reborn_sound mode s⟩

theorem guards_resetN (high : Bool) : Guards (execResetN high) := fun s t _ run => by
  cases run
  exact reborn_inv _ s

theorem guards_resetNLow : Guards execResetNLow := fun s t inv run => by
  obtain ⟨silent, sound⟩ := inv_iff.1 inv
  cases run
  exact inv_iff.2 ⟨silent, sound.tidy.same rfl rfl rfl, Steady.planned (s := s) (.plain rfl rfl rfl) sound.planned⟩

/-- A change of the management link that leaves the rest. -/
theorem Sound.link {s : State} (h : Sound s) {f : MgmtLink → MgmtLink} (outbound : (f s.mgmt).outbound.Sublist s.mgmt.outbound)
    (requests : (f s.mgmt).inbound.length ≤ 4)
    (sources : ∀ i : Fin 12, (f s.mgmt).sources[i].pending.Sublist s.mgmt.sources[i].pending) : Sound (s.modMgmt f) :=
  ⟨h.tidy.link outbound requests sources rfl rfl, (modMgmt_steady f s).planned h.planned⟩

theorem guards_transferStart : Guards execTransferStart := guards_event fun s sound => by
  unfold beginTransfer
  split
  · exact sound
  · exact sound.link (.refl _) sound.tidy.requests fun _ => .refl _

theorem afterShift_sublist (x : Transfer) (k : Nat) (out : List OutRecord) : (afterShift x k out).Sublist out := by
  unfold afterShift
  split
  · split
    · exact List.tail_sublist out
    · exact .refl _
  · exact .refl _

/-- What the end of a transfer makes of the queues: a record may leave, and a request joins where it has a place. -/
theorem endOf_bounds (x : Transfer) (mosi : List Byte) {m : MgmtLink} (requests : m.inbound.length ≤ 4) :
    (endOf x mosi m).outbound.Sublist m.outbound ∧ (endOf x mosi m).inbound.length ≤ 4 ∧ (endOf x mosi m).sources = m.sources := by
  cases mosi with
  | nil => exact ⟨.refl _, requests, rfl⟩
  | cons n rest =>
    have shifted := afterShift_sublist x (n :: rest).length m.outbound
    unfold endOf
    dsimp only
    generalize verdict : judge m.inbound n.toNat rest = j
    cases j with
    | joins q =>
      refine ⟨shifted, ?_, rfl⟩
      have place : ¬4 ≤ m.inbound.length := fun full => by
        unfold judge at verdict
        split at verdict
        · cases verdict
        · split at verdict
          · cases verdict
          · split at verdict
            · cases verdict
            · split at verdict
              · cases verdict
              · rw [if_pos (by exact full)] at verdict
                cases verdict
      show (m.inbound ++ [q]).length ≤ 4
      rw [List.length_append, List.length_singleton]
      omega
    | nothing => exact ⟨shifted, requests, rfl⟩
    | form => exact ⟨shifted, requests, rfl⟩
    | short => exact ⟨shifted, requests, rfl⟩
    | crc => exact ⟨shifted, requests, rfl⟩
    | overflow => exact ⟨shifted, requests, rfl⟩

theorem guards_transferEnd (mosi : List Byte) : Guards (execTransferEnd mosi) := guards_event fun s sound => by
  split
  · exact sound
  · next x _ =>
    obtain ⟨outbound, requests, sources⟩ := endOf_bounds x mosi sound.tidy.requests
    exact sound.link outbound requests fun i => by rw [sources]

theorem offered_room {s : State} (offered : s.requestOffered = true) : s.mgmt.outbound.length < 16 := by
  simp only [State.requestOffered, Bool.and_eq_true, decide_eq_true_eq] at offered
  exact offered.2

theorem guards_badKind : Guards execBadKind := guards_event fun s sound => by
  split
  · exact sound
  · next q rest inbound =>
    split
    · next offered =>
      have requests := sound.tidy.requests
      rw [inbound, List.length_cons] at requests
      have taken : Sound (s.modMgmt fun m => { m with inbound := rest }) :=
        sound.link (.refl _) (by exact Nat.le_of_succ_le requests) fun _ => .refl _
      exact taken.push (offered_room (Bool.and_eq_true_iff.1 offered).1) fun isNotice => (by cases isNotice)
    · exact sound

/-- The records of a finished reply enter the outbound queue, where each has a place. -/
theorem pushReplies_sound (kind tag : Byte) (rs : List Reply) {s : State} (h : Sound s)
    (room : s.mgmt.outbound.length + rs.length ≤ 16) : Sound (forAll rs (fun r => push (.reply kind tag r)) s) := by
  induction rs generalizing s with
  | nil => exact h
  | cons r rs ih =>
    rw [List.length_cons] at room
    refine ih (h.push (by omega) fun isNotice => (by cases isNotice)) ?_
    show (s.mgmt.outbound ++ [_]).length + rs.length ≤ 16
    rw [List.length_append, List.length_singleton]
    omega

/-- A finished reply leaves its host queue entry free (R81, R94). -/
theorem entryFreed_planned {s : State} (h : Planned s) {x : FinishedReply} {xs : List FinishedReply}
    (finished : s.engine.finished = x :: xs) : Planned (s.modEngine fun g => { g with finished := xs }) where
  streams := streamsOk_same h.streams rfl
  desk := by
    obtain ⟨entries, once, queued, searching, placed, releases⟩ := h.desk
    refine ⟨?_, once, queued, searching, placed, releases⟩
    have fewer : (desk (s.modEngine fun g => { g with finished := xs })).finished + 1 = (desk s).finished := by
      simp only [desk, finished]; rfl
    refine le_trans (Nat.add_le_add_left ?_ _) entries
    omega
  books := books_stand h.books rfl rfl rfl h.books.active
    ⟨fun _ y _ found => ⟨y, found, rfl⟩, fun _ x found stage => ⟨x, found, stage, rfl⟩⟩

theorem guards_finishedReplyMove : Guards execFinishedReplyMove := guards_event fun s sound => by
  split
  · exact sound
  · next x xs finished =>
    split
    · next room =>
      have freed : Sound (s.modEngine fun g => { g with finished := xs }) :=
        ⟨sound.tidy.same rfl rfl rfl, entryFreed_planned sound.planned finished⟩
      exact pushReplies_sound x.kind x.tag (replyParts x.body) freed room
    · exact sound

theorem guards_noticePick : Guards execNoticePick := guards_event fun s sound => by
  split
  · next src n _ =>
    split
    · next offered =>
      simp only [State.noticeOffered, Bool.and_eq_true, decide_eq_true_eq] at offered
      obtain ⟨⟨room, -⟩, few⟩ := offered
      have moved : Sound (s.modMgmt fun m =>
          { m with sources := Table.upd m.sources src fun x => { x with pending := x.pending.filter (· != n) } }) := by
        refine sound.link (.refl _) sound.tidy.requests fun i => ?_
        rw [upd_get]
        split
        · next same => rw [same]; exact List.filter_sublist
        · exact .refl _
      exact moved.push (offered_room room) fun _ => few
    · exact sound
  · exact sound

/-! ### Every command and every step -/

theorem guards_exec (c : Instr) : Guards (exec c) := by
  cases c with
  | resetN high => exact guards_resetN high
  | transferStart => exact guards_transferStart
  | transferEnd mosi => exact guards_transferEnd mosi
  | badKind => exact guards_badKind
  | identify => exact guards_taking serves_identify
  | restart => exact guards_taking serves_restart
  | linkStatus => exact guards_taking serves_linkStatus
  | setSync => exact guards_taking serves_setSync
  | syncStatus => exact guards_taking serves_syncStatus
  | portConfig => exact guards_taking serves_portConfig
  | portRestart => exact guards_taking serves_portRestart
  | portStatus => exact guards_taking serves_portStatus
  | setFilter => exact guards_taking serves_setFilter
  | clearFlags => exact guards_taking serves_clearFlags
  | streamStatus => exact guards_taking serves_streamStatus
  | legStatus => exact guards_taking serves_legStatus
  | place => exact guards_taking serves_place
  | release => exact guards_taking serves_release
  | setCycle => exact guards_taking serves_setCycle
  | lock => exact guards_taking serves_lock
  | timelineRead => exact guards_taking serves_timelineRead
  | addrAddStatic => exact guards_taking serves_addrAddStatic
  | addrRemove => exact guards_taking serves_addrRemove
  | addrFlush => exact guards_taking serves_addrFlush
  | addrRead => exact guards_taking serves_addrRead
  | setAging => exact guards_taking serves_setAging
  | setArc => exact guards_taking serves_setArc
  | countersRead => exact guards_taking serves_countersRead
  | countersClear => exact guards_taking serves_countersClear
  | faultRead => exact guards_taking serves_faultRead
  | faultUnlock => exact guards_taking serves_faultUnlock
  | setCaptureMask => exact guards_taking serves_setCaptureMask
  | setNotice => exact guards_taking serves_setNotice
  | probeArm => exact guards_taking serves_probeArm
  | probeRead => exact guards_taking serves_probeRead
  | probeCancel => exact guards_taking serves_probeCancel
  | finishedReplyMove => exact guards_finishedReplyMove
  | noticePick => exact guards_noticePick
  | cycleStart => exact guards_cycleStart
  | syncLost => exact guards_syncLost
  | strobe => exact guards_works (qualifyCyc_works true)
  | cycFall => exact guards_works (qualifyCyc_works false)
  | arcOn => exact guards_works (qualifyArc_works true)
  | arcOff => exact guards_works (qualifyArc_works false)
  | linkDown p => exact guards_works (phyReport_works p .down)
  | linkUp p => exact guards_works fun s => phyReport_works p _ s
  | linkUpOtherSpeed p => exact guards_works fun s => phyReport_works p _ s
  | frameEnd p frame => exact guards_frameEnd p frame
  | readyTime e => exact guards_readyTime e
  | windowOpen e => exact guards_windowOpen e
  | windowClose e => exact guards_windowClose e
  | twinWindowOpen e => exact guards_twinWindowOpen e
  | twinWindowClose e => exact guards_twinWindowClose e
  | transmissionEnd e => exact guards_transmissionEnd e
  | legStep => exact guards_legStep
  | placeOpEnd => exact guards_placeOpEnd
  | repairEnd => exact guards_repairEnd
  | probeExpiry q => exact guards_probeExpiry q
  | agingSweep => exact guards_agingSweep
  | quietCoolDown p => exact guards_quietCoolDown p
  | calmCoolDown p => exact guards_calmCoolDown p
  | filterSample line level => exact guards_filterSample line level
  | receptionStart p => exact guards_receptionStart p
  | resetNLow => exact guards_resetNLow

theorem tick_inv {s : State} (inv : Safety.Inv s) : Safety.Inv (tick s) := by
  obtain ⟨silent, sound⟩ := inv_iff.1 inv
  unfold tick
  split
  · exact inv
  · refine inv_iff.2 ⟨silent, sound.tidy.same rfl rfl rfl,
      Steady.planned (s := s) ⟨fun _ => rfl, id, rfl, fun e => ?_⟩ sound.planned⟩
    have same := Vector.getElem_map (fun x : Egress => { x with readyTaken := false }) (xs := s.egress) e.isLt
    exact (congrArg Egress.timeline same :)

/-- Settles O58, by the three parts of the invariant: every command leaves the link's queues, the buffer and the address table
within their bounds (`Tidy`), and the stream table, the desk and the books of the engine in order (`Planned`). -/
theorem everyStepKeepsTheInvariant : Obligations.EveryStepKeepsTheInvariant := by
  intro s t inv run
  unfold step at run
  split at run
  · next c rest _ =>
    obtain ⟨silent, sound⟩ := inv_iff.1 inv
    have left : Safety.Inv { s with pending := rest } :=
      inv_iff.2 ⟨silent, sound.tidy.same rfl rfl rfl, Steady.planned (s := s) (.plain rfl rfl rfl) sound.planned⟩
    exact guards_exec c _ t left run
  · unfold idle at run
    split at run
    · next c _ => exact guards_exec c s t inv run
    · cases run
      exact tick_inv inv

/-- Settles O57. -/
theorem resetHasTheInvariant : Obligations.ResetHasTheInvariant := by
  refine inv_iff.2 ⟨rfl, reset_sound rfl rfl rfl rfl rfl (fun n => ?_) rfl fun e => ?_⟩
  · exact Vector.getElem_replicate ..
  · have egress : State.reset.egress[e] = Egress.reset := Vector.getElem_replicate ..
    rw [egress]
    rfl

end Sys2Proof.MotionLaws
end

section
/-! The queries on streams, legs, timelines and the address table (R58, R59, R97, R135), and the statement on them. -/

namespace Sys2Proof.MotionLaws

open Sys2Proof.Machine Sys2Proof.Safety Sys2Proof.Laws Sys2Proof.CellTime Sys2Proof.PortLaws

/-- A request that its rule only answers. -/
theorem request_answer {s : State} {q : Request} {rest : List Request} {kind : Byte} {len : Nat} {r : Reply}
    {run : Request → State → State} (offer : Offers s q rest) (hk : q.kind = kind) (hl : q.payload.length = len)
    (h : run q (took rest s) = answer q r (took rest s)) :
    event (Machine.taking kind len run) s = .next (replied q rest r s) := by
  rw [request_next offer hk hl (by rw [h]; exact offer.noReports), h, answer_took]

theorem asStream_of {v : Nat} {n : StreamNo} (h : v = n.val) : asStream v = some n := by
  subst h
  simp [asStream]

theorem asStream_none {v : Nat} (h : 128 ≤ v) : asStream v = none := by
  simp only [asStream, dite_eq_right_iff]
  omega

theorem exists_asStream {v : Nat} (h : v < 128) : ∃ n, asStream v = some n := ⟨⟨v, h⟩, asStream_of rfl⟩

/-! ### STREAM_STATUS and LEG_STATUS (R58, R59) -/

theorem runStreamStatus_stream {q : Request} (bad : 128 ≤ q.b 0) (s : State) : runStreamStatus q s = badField q 0 s := by
  rw [runStreamStatus, asStream_none bad]

theorem runStreamStatus_free {q : Request} {n : StreamNo} (number : q.b 0 = n.val) {s : State} (free : s.streams[n] = none) :
    runStreamStatus q s = answer q .streamFree s := by
  rw [runStreamStatus, asStream_of number]
  dsimp only
  rw [free]

theorem runStreamStatus_found {q : Request} {n : StreamNo} (number : q.b 0 = n.val) {s : State} {x : Stream}
    (found : s.streams[n] = some x) : runStreamStatus q s = answer q (.streamStatus (streamStatus s n x)) s := by
  rw [runStreamStatus, asStream_of number]
  dsimp only
  rw [found]

theorem runLegStatus_stream {q : Request} (bad : 128 ≤ q.b 0) (s : State) : runLegStatus q s = badField q 0 s := by
  rw [runLegStatus, asStream_none bad]

theorem runLegStatus_port {q : Request} (number : q.b 0 < 128) (bad : 8 ≤ q.b 1) (s : State) :
    runLegStatus q s = badField q 1 s := by
  obtain ⟨n, stream⟩ := exists_asStream number
  rw [runLegStatus, stream, asPort_none bad]

theorem runLegStatus_none {q : Request} {n : StreamNo} {e : Port} (number : q.b 0 = n.val) (port : q.b 1 = e.val) {s : State}
    (none : s.leg n e = none) : runLegStatus q s = refuse q .noSuch s := by
  rw [runLegStatus, asStream_of number, asPort_of port]
  dsimp only
  rw [none]
  split
  · next _ some => cases some
  · rfl

theorem runLegStatus_found {q : Request} {n : StreamNo} {e : Port} (number : q.b 0 = n.val) (port : q.b 1 = e.val) {s : State}
    {x : Stream} {l : Leg} (found : s.streams[n] = some x) (leg : s.leg n e = some l) :
    runLegStatus q s = answer q (.legStatus (legStatus x l)) s := by
  rw [runLegStatus, asStream_of number, asPort_of port]
  dsimp only
  rw [found, leg]

/-! ### TIMELINE_READ (R97) -/

theorem runTimelineRead_port {q : Request} (bad : 8 ≤ q.b 0) (s : State) : runTimelineRead q s = badField q 0 s := by
  rw [runTimelineRead, asPort_none bad]

theorem runTimelineRead_index {q : Request} (port : q.b 0 < 8) (bad : 255 < q.field 1 2) (s : State) :
    runTimelineRead q s = badField q 1 s := by
  obtain ⟨e, port⟩ := exists_asPort port
  rw [runTimelineRead, port]
  exact if_pos bad

theorem runTimelineRead_good {q : Request} {e : Port} (port : q.b 0 = e.val) (index : q.field 1 2 ≤ 255) (s : State) :
    runTimelineRead q s = answer q (.timeline ⟨e, s.engine.lastCommit, s.egress[e].timeline.length,
      reservedTime s.egress[e].timeline, q.field 1 2, (s.egress[e].timeline.drop (q.field 1 2)).take 4⟩) s := by
  rw [runTimelineRead, asPort_of port]
  exact if_neg (Nat.not_lt.2 index)

/-! ### ADDR_READ (R135) -/

/-- The entries at or above an index, and the page of them. -/
def entriesFrom (i : Nat) (xs : List AddrEntry) : List AddrEntry := xs.filter fun x => decide (i ≤ x.pos)

/-- The index of the next page: past the last entry of this one, where more entries follow. -/
def nextIndex (above : List AddrEntry) : Nat :=
  if above.length ≤ 4 then 1024 else (((above.take 4).getLast?.map (·.pos)).getD 0) + 1

theorem runAddrRead_index {q : Request} (bad : 1023 < q.field 0 2) (s : State) : runAddrRead q s = badField q 0 s := if_pos bad

theorem runAddrRead_good {q : Request} (index : q.field 0 2 ≤ 1023) (s : State) : runAddrRead q s =
    answer q (.addrPage s.addr.entries.length ((entriesFrom (q.field 0 2) s.addr.entries).take 4)
      (nextIndex (entriesFrom (q.field 0 2) s.addr.entries))) s := if_neg (Nat.not_lt.2 index)

theorem mem_entriesFrom {i : Nat} {xs : List AddrEntry} {x : AddrEntry} : x ∈ entriesFrom i xs ↔ x ∈ xs ∧ i ≤ x.pos := by
  simp [entriesFrom]

/-- What a page of ascending entries is (R135). -/
structure IsPage (above page : List AddrEntry) (next : Nat) : Prop where
  members : ∀ x, x ∈ page ↔ x ∈ above ∧ x.pos < next
  ends : next = 1024 ∨ (page.length = 4 ∧ (∃ x ∈ above, next ≤ x.pos) ∧ ∃ x ∈ page, next = x.pos + 1)

/-- A page that more entries follow ends past its last entry. -/
theorem page_followed {above front back : List AddrEntry} {last : AddrEntry} (split : above = (front ++ [last]) ++ back)
    (ascending : above.Pairwise fun x y => x.pos < y.pos) (x : AddrEntry) :
    x ∈ front ++ [last] ↔ x ∈ above ∧ x.pos < last.pos + 1 := by
  rw [split, List.pairwise_append, List.pairwise_append] at ascending
  obtain ⟨⟨-, -, before⟩, -, behind⟩ := ascending
  rw [split]
  constructor
  · intro mem
    refine ⟨List.mem_append_left _ mem, ?_⟩
    rcases List.mem_append.1 mem with early | at_last
    · have := before x early last (List.mem_singleton_self _)
      omega
    · rw [List.mem_singleton.1 at_last]
      omega
  · rintro ⟨mem, below⟩
    rcases List.mem_append.1 mem with inside | later
    · exact inside
    · have := behind last (by simp) x later
      omega

theorem page_isPage {above : List AddrEntry} (ascending : above.Pairwise fun x y => x.pos < y.pos)
    (bounded : ∀ x ∈ above, x.pos < 1024) : IsPage above (above.take 4) (nextIndex above) := by
  by_cases short : above.length ≤ 4
  · rw [nextIndex, if_pos short, List.take_of_length_le short]
    exact ⟨fun x => ⟨fun mem => ⟨mem, bounded x mem⟩, And.left⟩, .inl rfl⟩
  · have full : (above.take 4).length = 4 := by rw [List.length_take]; omega
    obtain ⟨front, last, page⟩ : ∃ front last, above.take 4 = front ++ [last] :=
      ⟨_, _, (List.dropLast_append_getLast (by intro none; rw [none] at full; cases full)).symm⟩
    have next : nextIndex above = last.pos + 1 := by
      rw [nextIndex, if_neg short, page, List.getLast?_append]
      rfl
    have split : above = (front ++ [last]) ++ above.drop 4 := by rw [← page, List.take_append_drop]
    rw [next]
    refine ⟨fun x => ?_, .inr ⟨full, ?_, last, by rw [page]; simp, rfl⟩⟩
    · rw [page]
      exact page_followed split ascending x
    · have more : above.drop 4 ≠ [] := by
        rw [Ne, List.drop_eq_nil_iff]
        exact short
      obtain ⟨x, mem⟩ := List.exists_mem_of_ne_nil _ more
      refine ⟨x, List.mem_of_mem_drop mem, ?_⟩
      rw [split, List.pairwise_append] at ascending
      exact ascending.2.2 last (by simp) x mem

/-- Settles O56: each query answers from the state it finds; the page of ADDR_READ is cut from the ascending entries. -/
theorem streamLegTimelineAndAddressQueries : Obligations.StreamLegTimelineAndAddressQueries := by
  unfold Obligations.StreamLegTimelineAndAddressQueries
  refine ⟨⟨fun s q rest offer kind length => ⟨fun bad => ?_, fun n number => ⟨fun free => ?_, fun x found => ?_⟩⟩,
    fun s q rest offer kind length => ⟨fun bad => ?_, fun number bad => ?_, fun n e number port => ⟨fun none => ?_, fun x l found leg => ?_⟩⟩,
    fun s q rest offer kind length => ⟨fun bad => ?_, fun port bad => ?_, fun e port index => ?_⟩⟩,
    fun s q rest offer ok kind length => ⟨fun bad => ?_, fun index => ?_⟩⟩
  · exact request_badField offer kind length (runStreamStatus_stream bad _)
  · exact request_answer offer kind length (runStreamStatus_free number free)
  · have run := request_answer offer kind length (runStreamStatus_found (s := took rest s) number found)
    rw [streamStatus, desc_cells] at run
    exact run
  · exact request_badField offer kind length (runLegStatus_stream bad _)
  · exact request_badField offer kind length (runLegStatus_port number bad _)
  · exact request_answer offer kind length (runLegStatus_none (s := took rest s) number port none)
  · exact request_answer offer kind length (runLegStatus_found (s := took rest s) number port found leg)
  · exact request_badField offer kind length (runTimelineRead_port bad _)
  · exact request_badField offer kind length (runTimelineRead_index port bad _)
  · exact request_answer offer kind length (runTimelineRead_good port index _)
  · exact request_badField offer kind length (runAddrRead_index bad _)
  · have ascending := ok.ascending.filter fun x => decide (q.field 0 2 ≤ x.pos)
    obtain ⟨members, ends⟩ := page_isPage (above := entriesFrom (q.field 0 2) s.addr.entries) ascending
      fun x mem => ok.bounded x (mem_entriesFrom.1 mem).1
    refine ⟨_, _, request_answer offer kind length (runAddrRead_good index _), List.length_take_le .., ?_, fun x => ?_, ?_⟩
    · exact List.pairwise_map.2 (ascending.sublist (List.take_sublist ..))
    · rw [← and_assoc, ← mem_entriesFrom]
      exact members x
    · refine ends.imp_right fun ⟨full, ⟨x, mem, beyond⟩, last⟩ => ⟨full, ⟨x, (mem_entriesFrom.1 mem).1, beyond⟩, last⟩

end Sys2Proof.MotionLaws
end

section
/-! An accepted PLACE (R41, R42, R47, R82): the description it takes, its op in the host queue or taken at once (R85), and the
statement on it. -/

namespace Sys2Proof.MotionLaws

open Sys2Proof.Machine Sys2Proof.Safety Sys2Proof.Laws Sys2Proof.CellTime Sys2Proof.PortLaws

/-! ### The checks (R40, R43, R82) -/

/-- The description that an accepted PLACE gives its stream (R41, R42). -/
def placeDesc (q : Request) (p : Port) (h : Handling) (tw : Twin) : Desc where
  key := ⟨p, BitVec.ofNat 48 (q.field 2 6), asVlan (q.field 8 2)⟩
  egressSet := BitVec.ofNat 8 (q.b 10)
  repeats := q.b 11
  rho := q.field 12 4
  bound := clamp 1 1000000 (q.field 16 4)
  lmax := clamp 64 1522 (q.field 20 2)
  k := q.b 22
  handling := if 1 < q.b 22 then .sequenced else h
  twin := tw
  missLimit := q.b 25

/-- The fields of a PLACE request that describe a stream pass the checks of R40. -/
structure Placeable (q : Request) (m : Nat) (p : Port) (h : Handling) (tw : Twin) : Prop where
  port : q.b 1 = p.val
  marked : BitVec.ofNat 8 (q.b 10) ≠ 0
  away : (BitVec.ofNat 8 (q.b 10)).getLsbD p.val = false
  vlan : q.field 8 2 ≤ 4095
  repeats : q.b 11 ∈ [1, 2, 4, 8]
  rho : q.field 12 4 < m / q.b 11
  least : 1 ≤ q.b 22
  most : q.b 22 ≤ 4
  handling : asHandling (q.b 23) = some h
  twin : asTwin (q.b 24) = some tw

theorem desc_placeable {q : Request} {m : Nat} {p : Port} {h : Handling} {tw : Twin} (good : Placeable q m p h tw) :
    q.desc m = .ok (placeDesc q p h tw) := by
  have set : ¬(BitVec.ofNat 8 (q.b 10) = 0 ∨ (BitVec.ofNat 8 (q.b 10)).getLsbD p.val = true) := by
    rw [not_or, good.away]
    exact ⟨good.marked, Bool.false_ne_true⟩
  have repeats : ¬¬(q.b 11 = 1 ∨ q.b 11 = 2 ∨ q.b 11 = 4 ∨ q.b 11 = 8) := not_not.2 (by simpa using good.repeats)
  have frames : ¬(q.b 22 < 1 ∨ 4 < q.b 22) := by
    have := good.least
    have := good.most
    omega
  unfold Request.desc
  rw [asPort_of good.port]
  dsimp only
  rw [if_neg set, if_neg (Nat.not_lt.2 good.vlan), if_neg repeats, if_neg (Nat.not_le.2 good.rho), if_neg frames, good.handling,
    good.twin]
  rfl

/-- A key that no stream has is held by none (R43). -/
theorem keyHeld_false {s : State} {k : Key} (unheld : ∀ (i : StreamNo) (x : Stream), s.streams[i] = some x → x.desc.key ≠ k) :
    s.keyHeld k.ingress.val k.dest k.vlan = false := by
  refine List.any_eq_false.2 fun n _ => ?_
  cases found : s.streams[n] with
  | none => simp
  | some x =>
    intro held
    simp only [Option.any_some, Bool.and_eq_true, beq_iff_eq] at held
    obtain ⟨⟨ingress, dest⟩, vlan⟩ := held
    exact unheld n x found (by rw [← show (⟨_, _, _⟩ : Key) = x.desc.key from rfl, Fin.ext ingress, dest, vlan])

/-- A PLACE that passes every check of R82. -/
structure PlaceAccepted (q : Request) (s : State) (n : StreamNo) (p : Port) (h : Handling) (tw : Twin) : Prop
    extends Placeable q s.planM p h tw where
  number : q.b 0 = n.val
  free : s.streams[n] = none
  unheld : ∀ (i : StreamNo) (x : Stream), s.streams[i] = some x → x.desc.key ≠ (placeDesc q p h tw).key
  unlocked : s.engine.locked = false
  room : s.engine.used < 8

theorem runPlace_accepted {q : Request} {s : State} {n : StreamNo} {p : Port} {h : Handling} {tw : Twin}
    (good : PlaceAccepted q s n p h tw) : runPlace q s = acceptPlace q.tag n (placeDesc q p h tw) s := by
  have unheld : s.keyHeld (q.b 1) (BitVec.ofNat 48 (q.field 2 6)) (asVlan (q.field 8 2)) = false := by
    rw [good.port]
    exact keyHeld_false good.unheld
  have room : s.engine.full = false := decide_eq_false (Nat.not_le.2 good.room)
  unfold runPlace
  rw [asStream_of good.number]
  dsimp only
  rw [good.free, if_neg (by simp), if_neg (by simp [unheld]), desc_placeable good.toPlaceable]
  dsimp only
  rw [if_neg (by simp [good.unlocked]), if_neg (by simp [room])]

/-! ### The op is taken (R85, R87) -/

/-- A free engine with no repair takes the PLACE op that waits first. -/
theorem arbitrate_place {s : State} (free : s.engine.current = none) (repairs : s.engine.nextRepair = none) {x : Entry}
    {xs : List Entry} (waiting : s.engine.waiting = x :: xs) {n : StreamNo} (op : x.op = .place n) (fuel : Nat) :
    arbitrate (fuel + 1) s = (setCurrent (some (.place (newPlace x.tag n (placeTaken n xs s)))) (placeTaken n xs s)).modEngine
      fun g => { g with mark := (placeTaken n xs s).timer.grain } := by
  rw [arbitrate, if_neg (by simp [free]), repairs]
  dsimp only
  rw [waiting]
  dsimp only
  rw [op]
  rfl

/-- The state after a PLACE that a free engine takes at once. -/
def placeBegun (tag : Byte) (n : StreamNo) (d : Desc) (s : State) : State :=
  let t := placeTaken n [] (placeAccepted tag n d s)
  (setCurrent (some (.place (newPlace tag n t))) t).modEngine fun g => { g with mark := t.timer.grain }

theorem acceptPlace_free {s : State} (free : s.engine.current = none) (nothing : NothingWaits s) (tag : Byte) (n : StreamNo)
    (d : Desc) : acceptPlace tag n d s = placeBegun tag n d s := by
  have waiting : (placeAccepted tag n d s).engine.waiting = [⟨tag, .place n⟩] := by
    show s.engine.waiting ++ _ = _
    rw [nothing.1]
    rfl
  have repairs : (placeAccepted tag n d s).engine.nextRepair = none := nextRepair_none nothing.2
  rw [acceptPlace_eq, engineTake, waiting]
  exact arbitrate_place (by exact free) repairs waiting rfl 17

theorem acceptPlace_rest (tag : Byte) (n : StreamNo) (d : Desc) (s : State) :
    { acceptPlace tag n d s with streams := s.streams, engine := s.engine } = s :=
  (congrArg (fun t : State => { t with streams := s.streams, engine := s.engine })
    (engineTake_arbitrated (placeAccepted tag n d s)).rest :)

/-- The stream's record once its op is taken. -/
theorem placeBegun_stream (tag : Byte) (n : StreamNo) (d : Desc) (s : State) :
    (placeBegun tag n d s).streams[n] = some { queuedStream d with stage := .searching } := by
  show (placeTaken n [] (placeAccepted tag n d s)).streams[n] = _
  rw [placeTaken, modStream_streams, if_pos rfl]
  have here : (placeAccepted tag n d s).streams[n] = some (queuedStream d) := (setStream_streams ..).trans (if_pos rfl)
  exact congrArg (Option.map _) here

theorem placeBegun_others (tag : Byte) {n i : StreamNo} (other : i ≠ n) (d : Desc) (s : State) :
    (placeBegun tag n d s).streams[i] = s.streams[i] := by
  show (placeTaken n [] (placeAccepted tag n d s)).streams[i] = _
  rw [placeTaken, modStream_streams, if_neg other]
  exact (setStream_streams ..).trans (if_neg other)

theorem queuedStream_ports (d : Desc) : (queuedStream d).legs.map (·.egress) = portsOf d.egressSet := by
  rw [queuedStream, List.map_map]
  exact List.map_id _

/-- The op as it begins: its inputs are read and its pool check is made (R60, R71). -/
theorem placeBegun_op (tag : Byte) (n : StreamNo) (d : Desc) (s : State) : (placeBegun tag n d s).engine.current =
    some (.place ⟨tag, n, s.planM, s.plannedSpeeds, portsOf d.egressSet, [],
      if 512 < s.engine.pool + d.cells then some ⟨none, none, d.cells, s.engine.pool, 0⟩ else none⟩) := by
  have stream := placeBegun_stream tag n d s
  have ports : (placeTaken n [] (placeAccepted tag n d s)).legPorts n = portsOf d.egressSet :=
    (legPorts_eq stream).trans (queuedStream_ports d)
  have cells : (placeTaken n [] (placeAccepted tag n d s)).reservedCells n = d.cells := reservedCells_eq stream
  show some (CurrentOp.place (newPlace _ _ _)) = _
  rw [newPlace, ports, cells]
  rfl

theorem asHandling_of {v : Nat} {h : Handling} (same : v = (match h with | .latest => 0 | .sequenced => 1)) :
    asHandling v = some h := by
  subst same
  cases h <;> rfl

theorem asTwin_of {v : Nat} {tw : Twin} (same : v = (match tw with | .off => 0 | .armed => 1 | .always => 2)) :
    asTwin v = some tw := by
  subst same
  cases tw <;> rfl

/-- Settles O36. -/
theorem placeQueuesTheStream : Obligations.PlaceQueuesTheStream := by
  intro s q rest n p h tw offer kind length number port free vlan set m unheld marked away vid repeats rho least most handling twin
    unlocked room lmax d ports legs cells
  have good : PlaceAccepted q (took rest s) n p h tw :=
    ⟨⟨port, marked, away, vid, repeats, rho, least, most, asHandling_of handling, asTwin_of twin⟩, number, free, unheld, unlocked, room⟩
  have accepted := runPlace_accepted good
  refine ⟨fun busy => ?_, fun idle nothing => ?_⟩
  · have queued : runPlace q (took rest s) = placeAccepted q.tag n (placeDesc q p h tw) (took rest s) := by
      rw [accepted, acceptPlace_eq]
      exact engineTake_busy busy
    have run := request_next (run := runPlace) offer kind length (by rw [queued]; exact offer.noReports)
    rw [queued] at run
    exact run
  · have taken : acceptPlace q.tag n (placeDesc q p h tw) (took rest s) = placeBegun q.tag n (placeDesc q p h tw) (took rest s) :=
      acceptPlace_free (s := took rest s) idle nothing _ _ _
    have others := acceptPlace_rest q.tag n (placeDesc q p h tw) (took rest s)
    have run := request_next (run := runPlace) offer kind length (by
      rw [accepted]
      exact (congrArg (fun t : State => t.fault.inbox) others).trans offer.noReports)
    rw [accepted, taken] at run
    rw [taken] at others
    refine ⟨_, run, placeBegun_stream .., fun i other => placeBegun_others _ other .., rfl, ?_, rfl, rfl,
      (congrArg (fun t : State => t.mgmt.inbound) others :), (congrArg (fun t : State => t.mgmt.outbound) others :), ?_⟩
    · rw [placeBegun_op, desc_cells]
      rfl
    · exact (congrArg (fun t : State => { t with streams := s.streams, engine := s.engine, mgmt := s.mgmt }) others :)

end Sys2Proof.MotionLaws
end

section
/-! SUPPORT. FRAME_END of a frame that the port lets pass (R32, R51, R52), and what the address table learns of it (R127, R128). -/

namespace Sys2Proof.MotionLaws

open Sys2Proof.Machine Sys2Proof.Safety Sys2Proof.Laws Sys2Proof.CellTime Sys2Proof.PortLaws

/-! ### The frame ends and is counted -/

/-- A port unit at which a good frame ended (R32). -/
def arriving (u : PortUnit) : PortUnit := counting .good (unreceiving u)

/-- The state in which a good frame is classified. -/
def arrivedState (p : Port) (s : State) : State := bumpPort p .good (s.modPort p unreceiving)

/-- Between two states a good frame ended at the port, and passes of a stream may have been counted. -/
structure Arrived (p : Port) (s w : State) : Prop where
  ports : w.ports = Table.upd s.ports p arriving
  rest : { w with ports := s.ports, streamCounters := s.streamCounters } = s

theorem arrivedState_arrived (p : Port) (s : State) : Arrived p s (arrivedState p s) :=
  ⟨upd_upd s.ports p unreceiving (counting .good), rfl⟩

theorem Arrived.bumpStream {p : Port} {s w : State} (h : Arrived p s w) (n : StreamNo) (c : StreamCounter) :
    Arrived p s (bumpStream n c w) :=
  ⟨h.ports, h.rest⟩

theorem Arrived.unit {p : Port} {s w : State} (h : Arrived p s w) : w.ports[p] = arriving s.ports[p] := by
  rw [h.ports, upd_get, if_pos rfl]

theorem Arrived.otherUnit {p e : Port} {s w : State} (h : Arrived p s w) (other : e ≠ p) : w.ports[e] = s.ports[e] := by
  rw [h.ports, upd_other _ _ _ _ other]

/-- What an arrival keeps of a port unit. -/
theorem Arrived.keeps {α : Type} {p : Port} {s w : State} (h : Arrived p s w) (view : PortUnit → α)
    (apart : ∀ u, view (arriving u) = view u) (e : Port) : view w.ports[e] = view s.ports[e] := by
  by_cases he : e = p
  · subst he; rw [h.unit, apart]
  · rw [h.otherUnit he]

theorem frameIsGood_cause {s : State} {p : Port} {f : RxFrame} {start : Stamp} (good : FrameIsGood s p f start) :
    portCause s.ports[p] f = none := by
  rw [portCause_eq]
  simp [good.noError, good.fcs, Nat.not_lt.2 good.long, Nat.not_lt.2 good.short, good.enabled, good.passes, -Fin.getElem_fin]

/-- A good frame is classified, and the reports of the event are taken (R32, R51). -/
theorem exec_frameEnd_good {s : State} {p : Port} {f : RxFrame} {start : Stamp} (good : FrameIsGood s p f start) :
    exec (.frameEnd p f) s = .next (takeReports (classify p start f (arrivedState p s))) := by
  have same : portCause (s.modPort p fun u => { u with receiving := none }).ports[p] f = none := by
    rw [State.modPort_ports, upd_get, if_pos rfl, ← frameIsGood_cause good]; rfl
  refine (event_high good.high _).trans (congrArg (fun t => Host.Outcome.next (takeReports t)) ?_)
  simp only [good.receiving, same]
  rfl

/-! ### The classifier (R51, R52) -/

theorem streamOf_key {s : State} {key : Key} {n : StreamNo} {x : Stream} (found : s.streamOf key = some n)
    (stream : s.streams[n] = some x) : x.desc.key = key := by
  have holds := List.find?_some found
  rw [stream] at holds
  simpa using holds

/-- A key that one stream alone holds is that stream's (R43). -/
theorem streamOf_unique {s : State} {key : Key} {n : StreamNo} {x : Stream} (stream : s.streams[n] = some x)
    (own : x.desc.key = key) (once : ∀ (i : StreamNo) (y : Stream), s.streams[i] = some y → y.desc.key = key → i = n) :
    s.streamOf key = some n := by
  cases found : s.streamOf key with
  | none =>
    have missing := List.find?_eq_none.1 found n (mem_allStreams n)
    rw [stream] at missing
    simp [own] at missing
  | some i =>
    have holds := List.find?_some found
    cases hy : s.streams[i] with
    | none => rw [hy] at holds; cases holds
    | some y =>
      have key' : y.desc.key = key := by rw [hy] at holds; simpa using holds
      rw [once i y hy key']

/-- A frame whose key no ACTIVE stream holds takes the best-effort path (R52). -/
theorem classify_passes {p : Port} {f : RxFrame} {start : Stamp} {s : State}
    (inactive : ∀ (n : StreamNo) (x : Stream), s.streams[n] = some x → x.desc.key = ⟨p, frameDest f, frameVlan f⟩ →
      x.stage ≠ .active) :
    ∃ w, Arrived p s w ∧ classify p start f (arrivedState p s) = bestEffort p start f w := by
  have arrived := arrivedState_arrived p s
  have streams : (arrivedState p s).streams = s.streams := rfl
  unfold classify
  cases found : (arrivedState p s).streamOf ⟨p, frameDest f, frameVlan f⟩ with
  | none => exact ⟨_, arrived, rfl⟩
  | some n =>
    dsimp only
    cases stream : (arrivedState p s).streams[n] with
    | none => exact ⟨_, arrived, rfl⟩
    | some x =>
      dsimp only
      rw [if_neg (inactive n x (streams ▸ stream) (streamOf_key found stream))]
      exact ⟨_, arrived.bumpStream n .unreserved, rfl⟩

/-! ### The entry of a key (R126) -/

/-- Keys being distinct, an entry is found under its own. -/
theorem addrEntry_of_mem {s : State} (ok : AddrOk s.addr.entries) {x : AddrEntry} (mem : x ∈ s.addr.entries) :
    s.addrEntry x.mac x.vlan = some x := by
  cases found : s.addrEntry x.mac x.vlan with
  | none => exact absurd ⟨rfl, rfl⟩ (addrEntry_none found x mem)
  | some y =>
    have key : y.mac = x.mac ∧ y.vlan = x.vlan := by simpa using List.find?_some found
    by_contra other
    have ne : y ≠ x := fun e => other (congrArg some e)
    have apart : Std.Symm fun x y : AddrEntry => ¬(x.mac = y.mac ∧ x.vlan = y.vlan) :=
      ⟨fun _ _ h e => h ⟨e.1.symm, e.2.symm⟩⟩
    exact (ok.keys.forall (List.mem_of_find?_eq_some found) mem ne) key

theorem addrEntry_unknown {s : State} {mac : Mac} {vlan : Option Nat}
    (unknown : ∀ x ∈ s.addr.entries, ¬(x.mac = mac ∧ x.vlan = vlan)) : s.addrEntry mac vlan = none :=
  List.find?_eq_none.2 fun x mem holds => unknown x mem (by simpa using holds)

/-- Every position below the lowest free one is held. -/
theorem lowestFree_below (p : Nat) (xs : List AddrEntry) : ∀ i, p ≤ i → i < lowestFree p xs → ∃ x ∈ xs, x.pos = i := by
  induction xs generalizing p with
  | nil => intro i low high; exact absurd high (Nat.not_lt.2 low)
  | cons x xs ih =>
    intro i low high
    unfold lowestFree at high
    split at high
    · next here =>
      by_cases same : i = p
      · exact ⟨x, List.mem_cons_self .., here.trans same.symm⟩
      · obtain ⟨y, mem, pos⟩ := ih (p + 1) i (by omega) high
        exact ⟨y, List.mem_cons_of_mem _ mem, pos⟩
    · exact absurd high (Nat.not_lt.2 low)

/-! ### What the table learns, case by case (R127, R128) -/

section
variable {p : Port} {f : RxFrame} {s : State}

theorem learn_group (group : isGroup (frameSource f) = true) : learn p f s = s := by rw [learn, if_pos group]

/-- The entry learned takes the port and is young again. -/
def refreshed (p : Port) (x : AddrEntry) : AddrEntry := { x with port := p, age := 0 }

theorem learn_new (single : isGroup (frameSource f) = false) (unknown : s.addrEntry (frameSource f) (frameVlan f) = none)
    (room : s.addr.entries.length < 1024) :
    learn p f s = bumpDevice .learn (addrInsert (frameSource f) (frameVlan f) p .learned s) := by
  have free : s.addrFull = false := decide_eq_false (Nat.not_le.2 room)
  simp [learn, single, unknown, free]

theorem learn_full (single : isGroup (frameSource f) = false) (unknown : s.addrEntry (frameSource f) (frameVlan f) = none)
    (full : 1024 ≤ s.addr.entries.length) :
    learn p f s = raise (srcPort p) s.timer.cycle (.learnFull p (frameSource f) (frameVlan f))
      (report .learnFull (.ingress p) none s) := by
  have none : s.addrFull = true := decide_eq_true full
  simp [learn, single, unknown, none]

theorem learn_learned {x : AddrEntry} (single : isGroup (frameSource f) = false)
    (known : s.addrEntry (frameSource f) (frameVlan f) = some x) (kind : x.kind = .learned) :
    learn p f s = if x.port = p then addrUpdate x.pos (refreshed p) s
      else bumpDevice .move (addrUpdate x.pos (refreshed p) s) := by
  simp only [learn, single, known, kind, Bool.false_eq_true, if_false]
  rfl

theorem learn_static {x : AddrEntry} (single : isGroup (frameSource f) = false)
    (known : s.addrEntry (frameSource f) (frameVlan f) = some x) (kind : x.kind = .static) :
    learn p f s = if x.port = p then s else bumpDevice .staticConflict s := by
  simp only [learn, single, known, kind, Bool.false_eq_true, if_false]

end

/-- Between two states the table learned of a frame's source: its entries, the counts of learning, and a LEARN_FULL with its
notice. -/
structure Learned (s t : State) : Prop where
  rest : { t with addr := s.addr, deviceCounters := s.deviceCounters, fault := s.fault, mgmt := s.mgmt } = s
  addr : { t.addr with entries := s.addr.entries } = s.addr
  device : ∀ i : Fin 28, i.val < 22 ∨ 24 < i.val → t.deviceCounters[i] = s.deviceCounters[i]
  reports : ∀ i : Fin 28, i.val ≠ 21 → reportsOf i t.fault.inbox = reportsOf i s.fault.inbox

theorem Learned.refl (s : State) : Learned s s := ⟨rfl, rfl, fun _ _ => rfl, fun _ _ => rfl⟩

theorem addrUpdate_learned (pos : Nat) (f : AddrEntry → AddrEntry) (s : State) : Learned s (addrUpdate pos f s) :=
  ⟨rfl, rfl, fun _ _ => rfl, fun _ _ => rfl⟩

theorem Learned.bumpDevice {s t : State} (h : Learned s t) {c : DeviceCounter}
    (learning : 22 ≤ c.index.val ∧ c.index.val ≤ 24) : Learned s (bumpDevice c t) where
  rest := h.rest
  addr := h.addr
  device i apart := (upd_other _ _ _ _ (by rintro rfl; omega)).trans (h.device i apart)
  reports := h.reports

theorem learn_is_learned (p : Port) (f : RxFrame) (s : State) : Learned s (learn p f s) := by
  cases group : isGroup (frameSource f) with
  | true => rw [learn_group group]; exact .refl s
  | false =>
    cases found : s.addrEntry (frameSource f) (frameVlan f) with
    | none =>
      by_cases room : s.addr.entries.length < 1024
      · rw [learn_new group found room]
        have inserted : Learned s (addrInsert (frameSource f) (frameVlan f) p .learned s) :=
          ⟨rfl, rfl, fun _ _ => rfl, fun _ _ => rfl⟩
        exact inserted.bumpDevice ⟨by decide, by decide⟩
      · rw [learn_full group found (Nat.le_of_not_lt room)]
        refine ⟨rfl, rfl, fun _ _ => rfl, fun i other => ?_⟩
        show reportsOf i (s.fault.inbox ++ [_]) = _
        rw [reportsOf_append, reportsOf_cons, reportsOf_nil, Nat.zero_add, if_neg]
        · rfl
        · exact fun same => other (congrArg Fin.val same).symm
    | some x =>
      have updated := addrUpdate_learned x.pos (refreshed p) s
      cases kind : x.kind with
      | learned =>
        rw [learn_learned group found kind]
        split
        · exact updated
        · exact updated.bumpDevice ⟨by decide, by decide⟩
      | static =>
        rw [learn_static group found kind]
        split
        · exact .refl s
        · exact (Learned.refl s).bumpDevice ⟨by decide, by decide⟩

end Sys2Proof.MotionLaws
end

section
/-! FRAME_END on the best-effort path and the address table (R126 to R128): what the forwarding of a frame leaves, and the
statement on what is learned. -/

namespace Sys2Proof.MotionLaws

open Sys2Proof.Machine Sys2Proof.Safety Sys2Proof.Laws Sys2Proof.CellTime Sys2Proof.PortLaws

/-! ### Counts, flags and reports alone -/

/-- Between two states these figures were counted, and nothing but counters, flags and reports changed. -/
structure Noted (s t : State) (a : Tally) : Prop extends Tallied s t a where
  only : { t with ports := s.ports, legCounters := s.legCounters, fault := s.fault } = s

theorem Noted.trans {s t u : State} {a b : Tally} (h : Noted s t a) (k : Noted t u b) : Noted s u (a.add b) :=
  ⟨h.toTallied.trans k.toTallied,
    (congrArg (fun x : State => { x with ports := s.ports, legCounters := s.legCounters, fault := s.fault }) k.only).trans h.only⟩

theorem Noted.refl (s : State) : Noted s s .none :=
  ⟨(Lossy.quiet rfl fun _ => rfl : Lossy s s .none).toTallied, rfl⟩

theorem bumpPort_noted (p : Port) (c : PortCounter) (s : State) : Noted s (bumpPort p c s) (.ofPort p c) :=
  ⟨(bumpPort_lossy p c s).toTallied, rfl⟩

theorem setFlag_noted (p : Port) (x : Flag) (s : State) : Noted s (setFlag p x s) (.ofFlag p x) :=
  ⟨(setFlag_lossy p x s).toTallied, rfl⟩

theorem makeReport_noted (r : Report) (s : State) : Noted s (makeReport r s) (.ofReport r.fields.cause) :=
  ⟨(makeReport_lossy r s).toTallied, rfl⟩

theorem bumpLeg_noted (n : StreamNo) (e : Port) (c : LegCounter) (s : State) : Noted s (bumpLeg n e c s) (.ofLeg n e c) :=
  ⟨(bumpLeg_lossy n e c s).toTallied, rfl⟩

/-- One operation after another of a list, each with figures of its own. -/
theorem forAll_noted {α : Type} {f : α → State → State} {a : α → Tally} (xs : List α)
    (step : ∀ x ∈ xs, ∀ s, Noted s (f x s) (a x)) (s : State) : Noted s (forAll xs f s) (.sum (xs.map a)) := by
  induction xs generalizing s with
  | nil => exact .refl s
  | cons x xs ih =>
    exact (step x (List.mem_cons_self ..) s).trans (ih (fun y mem => step y (List.mem_cons_of_mem _ mem)) _)

/-- A drop of an ingress cause (R33). -/
def ingressTally (p : Port) (cause : Cause) : Tally := (Tally.ofPort p (.ingress cause)).add (.ofReport cause)

theorem ingressDrop_noted (p : Port) (cause : Cause) (n : Option StreamNo) (s : State) :
    Noted s (ingressDrop p cause n s) (ingressTally p cause) :=
  (bumpPort_noted p (.ingress cause) s).trans (makeReport_noted _ _)

/-- A frame whose one target is its own port is dropped (R129). -/
def samePortDrop (p : Port) (s : State) : State :=
  setFlag p .beDrop (report .samePort (.ingress p) none (bumpPort p .samePort s))

def samePortTally (p : Port) : Tally := (Tally.ofPort p .samePort).add ((Tally.ofReport .samePort).add (.ofFlag p .beDrop))

theorem samePortDrop_noted (p : Port) (s : State) : Noted s (samePortDrop p s) (samePortTally p) :=
  (bumpPort_noted p .samePort s).trans ((makeReport_noted _ _).trans (setFlag_noted p .beDrop _))

/-- A drop of a best-effort frame for one egress (R138). -/
def beTally (cause : Cause) (c : PortCounter) (e : Port) : Tally :=
  (Tally.ofPort e c).add ((Tally.ofReport cause).add (.ofFlag e .beDrop))

theorem beDrop_noted (cause : Cause) (c : PortCounter) (p e : Port) (s : State) :
    Noted s (beDrop cause c p e s) (beTally cause c e) :=
  (bumpPort_noted e c s).trans ((makeReport_noted _ _).trans (setFlag_noted e .beDrop _))

/-- What a target that does not take the frame counts, by whether its link is DOWN (R137, R138). -/
def targetTally (down : Bool) (e : Port) : Tally :=
  if down then beTally .linkDown .beLinkDown e else beTally .noBuffer .beNoBuffer e

theorem targetDrop_noted (p e : Port) (s : State) :
    Noted s (targetDrop p e s) (targetTally (s.ports[e].link == .down) e) := by
  unfold targetDrop targetTally
  by_cases down : s.ports[e].link = .down
  · simp only [down, beq_self_eq_true, if_true]; exact beDrop_noted ..
  · simp only [down, beq_eq_false_iff_ne.2 down, if_false, Bool.false_eq_true]; exact beDrop_noted ..

/-- Counts and flags leave the link of every port. -/
theorem Tallied.link {s t : State} {a : Tally} (h : Tallied s t a) (e : Port) : t.ports[e].link = s.ports[e].link :=
  (congrArg PortUnit.link (h.ports e).rest :)

theorem forAll_targetDrop_noted (p : Port) (es : List Port) (s : State) :
    Noted s (forAll es (targetDrop p) s) (.sum (es.map fun e => targetTally (s.ports[e].link == .down) e)) := by
  induction es generalizing s with
  | nil => exact .refl s
  | cons e es ih =>
    have step := targetDrop_noted p e s
    have rest := ih (targetDrop p e s)
    simp only [Tallied.link step.toTallied] at rest
    exact step.trans rest

/-! ### What the forwarding of a frame leaves -/

/-- Between two states a frame was forwarded: of the blocks that a forwarding touches, these parts stand. -/
structure Forwarded (u t : State) : Prop where
  rest : { t with
    ports := u.ports, streams := u.streams, legCounters := u.legCounters, egress := u.egress, buffer := u.buffer
    fault := u.fault, probes := u.probes, mgmt := u.mgmt } = u
  units : ∀ e : Port, { t.ports[e] with counters := u.ports[e].counters, flags := u.ports[e].flags } = u.ports[e]
  good : ∀ e : Port, t.ports[e].counters[0] = u.ports[e].counters[0]
  sources : ∀ j : Fin 12, j ≠ srcProbe → t.mgmt.sources[j] = u.mgmt.sources[j]
  reports : ∀ i : Fin 28, 21 ≤ i.val → reportsOf i t.fault.inbox = reportsOf i u.fault.inbox

theorem Forwarded.refl (s : State) : Forwarded s s := ⟨rfl, fun _ => rfl, fun _ => rfl, fun _ _ => rfl, fun _ _ => rfl⟩

theorem Forwarded.trans {s t u : State} (h : Forwarded s t) (k : Forwarded t u) : Forwarded s u where
  rest := (congrArg (fun x : State => { x with
    ports := s.ports, streams := s.streams, legCounters := s.legCounters, egress := s.egress, buffer := s.buffer
    fault := s.fault, probes := s.probes, mgmt := s.mgmt }) k.rest).trans h.rest
  units e := (congrArg (fun x : PortUnit => { x with counters := s.ports[e].counters, flags := s.ports[e].flags }) (k.units e)).trans
    (h.units e)
  good e := (k.good e).trans (h.good e)
  sources j other := (k.sources j other).trans (h.sources j other)
  reports i high := (k.reports i high).trans (h.reports i high)

theorem Noted.forwarded {s t : State} {a : Tally} (h : Noted s t a) (port : ∀ e, a.port e 0 = 0)
    (reports : ∀ i : Fin 28, 21 ≤ i.val → a.reports i = 0) : Forwarded s t where
  rest := (congrArg (fun x : State => { x with
    streams := s.streams, egress := s.egress, buffer := s.buffer, probes := s.probes, mgmt := s.mgmt }) h.only :)
  units e := (h.ports e).rest
  good e := ((h.ports e).counters 0).trans (by rw [port, satAdd_zero]; rfl)
  sources j _ := (congrArg (fun x : State => x.mgmt.sources[j]) h.only :)
  reports i high := by rw [h.reports, reports i high, Nat.add_zero]

/-- A choice of the egress reports frames dropped STALE or LATE alone (R104, R152). -/
theorem dropHead_reports {cause : Cause} (tried : cause = .stale ∨ cause = .late) (n : StreamNo) (e : Port) (id : FrameId)
    (s : State) (i : Fin 28) (other : i ≠ 8 ∧ i ≠ 9) :
    reportsOf i (dropHead cause n e id s).fault.inbox = reportsOf i s.fault.inbox := by
  have counter : ∃ c, cause.legCounter = some c ∧ (DeviceCounter.total cause).index ≠ i := by
    rcases tried with rfl | rfl
    · exact ⟨_, rfl, other.2.symm⟩
    · exact ⟨_, rfl, other.1.symm⟩
  obtain ⟨c, leg, total⟩ := counter
  have lossy := (modLeg_lossy n e (fun l => { l with slot := l.slot.tail }) s).trans (legDrop_lossy leg n e id _)
  have count := lossy.reports i
  have zero : (Tally.none.add (slotTally cause c n e [id])).reports i = 0 := by
    rw [Tally.none_add]; exact if_neg total.symm
  exact count.trans (by rw [zero]; rfl)

theorem probeStart_fault (n : StreamNo) (e : Port) (r : FrameRecord) (w : Window) (g : Nat) (s : State) :
    (probeStart n e r w g s).fault = s.fault := (congrArg State.fault (probeStart_rest n e r w g s) :)

theorem startMotion_fault (e : Port) (g : Nat) (o : OpenWindow) (d : Desc) (r : FrameRecord) (s : State) :
    (startMotion e g o d r s).fault = s.fault := probeStart_fault ..

theorem chooseBestEffort_fault (e : Port) (g : Nat) (cs : List ClassNo) (s : State) :
    (chooseBestEffort e g cs s).fault = s.fault := by
  induction cs with
  | nil => rfl
  | cons c cs ih =>
    rw [chooseBestEffort]
    cases s.headStarts e g c with
    | some id => rfl
    | none => exact ih

/-- A head that a try drops is STALE or LATE (R104). -/
theorem tryHead_drop {s : State} {g : Nat} {o : OpenWindow} {d : Desc} {slot : List FrameId} {cause : Cause} {id : FrameId}
    (tried : s.tryHead g o d slot = .drop cause id) : cause = .stale ∨ cause = .late := by
  unfold State.tryHead at tried
  split at tried
  · cases tried
  · split at tried
    · cases tried
    · split at tried
      · cases tried; exact .inl rfl
      · split at tried <;> cases tried
        exact .inr rfl

theorem chooseAgain_reports (e : Port) (g fuel : Nat) (s : State) (i : Fin 28) (other : i ≠ 8 ∧ i ≠ 9) :
    reportsOf i (chooseAgain e g fuel s).fault.inbox = reportsOf i s.fault.inbox := by
  induction fuel generalizing s with
  | zero => rfl
  | succ fuel ih =>
    unfold chooseAgain
    split
    · rw [chooseBestEffort_fault]
    · split
      · rw [chooseBestEffort_fault]
      · split
        · split
          · split
            · rfl
            · next tried => rw [ih, dropHead_reports (tryHead_drop tried) _ _ _ _ _ other]
            · rw [startMotion_fault]
          · rfl
        · split
          · exact ih _
          · split
            · rfl
            · exact ih _

theorem choose_forwarded (e : Port) (s : State) : Forwarded s (choose e s) where
  rest := (choose_chosen e s).rest
  units p := by
    by_cases here : p = e
    · subst here; exact (choose_chosen p s).unit
    · rw [((choose_chosen e s).others p here).1]
  good p := by
    by_cases here : p = e
    · subst here; exact (choose_chosen p s).counters 0 (by decide) (by decide) (by decide)
    · rw [((choose_chosen e s).others p here).1]
  sources := (choose_chosen e s).sources
  reports i high := by
    have other : i ≠ 8 ∧ i ≠ 9 := ⟨by rintro rfl; revert high; decide, by rintro rfl; revert high; decide⟩
    unfold choose
    split
    · rfl
    · split
      · rfl
      · exact chooseAgain_reports _ _ _ _ i other

/-! ### The best-effort path forwards (R129, R136 to R138) -/

/-- A cause but LEARN_FULL has a code below 21. -/
theorem ofReport_low {cause : Cause} (low : cause.code.val < 21) (i : Fin 28) (high : 21 ≤ i.val) :
    (Tally.ofReport cause).reports i = 0 :=
  if_neg fun same => by rw [same] at high; exact absurd low (Nat.not_lt.2 high)

theorem ingressDrop_forwarded {cause : Cause} (low : cause.code.val < 21) (counter : (PortCounter.ingress cause).index ≠ 0)
    (p : Port) (n : Option StreamNo) (s : State) : Forwarded s (ingressDrop p cause n s) :=
  (ingressDrop_noted p cause n s).forwarded
    (fun e => by simp [ingressTally, Tally.add, Tally.ofPort, Tally.ofReport, Tally.none, counter.symm])
    fun i high => by
      have none := ofReport_low low i high
      simp [ingressTally, Tally.add, Tally.ofPort, Tally.none, none]

theorem setFlag_forwarded (p : Port) (x : Flag) (s : State) : Forwarded s (setFlag p x s) :=
  (setFlag_noted p x s).forwarded (fun _ => rfl) fun _ _ => rfl

theorem samePortDrop_forwarded (p : Port) (s : State) : Forwarded s (samePortDrop p s) :=
  (samePortDrop_noted p s).forwarded
    (fun _ => by simp [samePortTally, Tally.add, Tally.ofPort, Tally.ofReport, Tally.ofFlag, Tally.none, PortCounter.index])
    fun i high => by
      have none := ofReport_low (cause := .samePort) (by decide) i high
      simp [samePortTally, Tally.add, Tally.ofPort, Tally.ofFlag, Tally.none, none]

theorem targetDrop_forwarded (p e : Port) (s : State) : Forwarded s (targetDrop p e s) := by
  refine (targetDrop_noted p e s).forwarded (fun q => ?_) fun i high => ?_
  · unfold targetTally beTally
    split <;> simp [Tally.add, Tally.ofPort, Tally.ofReport, Tally.ofFlag, Tally.none, PortCounter.index]
  · have linkDown := ofReport_low (cause := .linkDown) (by decide) i high
    have noBuffer := ofReport_low (cause := .noBuffer) (by decide) i high
    unfold targetTally beTally
    split <;> simp [Tally.add, Tally.ofPort, Tally.ofFlag, Tally.none, linkDown, noBuffer]

theorem forAll_forwarded {α : Type} {f : α → State → State} (step : ∀ x s, Forwarded s (f x s)) (xs : List α) (s : State) :
    Forwarded s (forAll xs f s) := by
  induction xs generalizing s with
  | nil => exact .refl s
  | cons x xs ih => exact (step x s).trans (ih _)

theorem joinClass_forwarded (cls : ClassNo) (c : Nat) (id : FrameId) (e : Port) (s : State) :
    Forwarded s (joinClass cls c id e s) :=
  Forwarded.trans (t := s.modEgress e _) ⟨rfl, fun _ => rfl, fun _ => rfl, fun _ _ => rfl, fun _ _ => rfl⟩ (choose_forwarded e _)

theorem storeFrame_forwarded (pool : Pool) (refs : Nat) (p : Port) (start : Stamp) (n : Option StreamNo) (cls : Option ClassNo)
    (f : RxFrame) (s : State) : Forwarded s (storeFrame pool refs p start n cls f s) :=
  ⟨rfl, fun _ => rfl, fun _ => rfl, fun _ _ => rfl, fun _ _ => rfl⟩

theorem admitFrame_forwarded (p : Port) (start : Stamp) (f : RxFrame) (cls : ClassNo) (targets : List Port) (s : State) :
    Forwarded s (admitFrame p start f cls targets s) := by
  unfold admitFrame
  dsimp only
  generalize (if cellsOf (frameLen f) ≤ s.buffer.beFree then targets.filter (s.hasRoom (cellsOf (frameLen f))) else []) = takers
  split
  · have dropped := forAll_forwarded (targetDrop_forwarded p) (targets.filter fun e => s.ports[e].link == .down) s
    split
    · exact dropped.trans ((ingressDrop_forwarded (cause := .noBuffer) (by decide) (by decide) p none _).trans (setFlag_forwarded p .beDrop _))
    · exact dropped
  · exact (forAll_forwarded (targetDrop_forwarded p) _ s).trans ((storeFrame_forwarded ..).trans
      (forAll_forwarded (joinClass_forwarded _ _ _) _ _))

/-- Once the source is learned, the rest of the best-effort path forwards the frame. -/
theorem bestEffort_forwarded (p : Port) (start : Stamp) (f : RxFrame) (s : State) :
    Forwarded (learn p f s) (bestEffort p start f s) := by
  unfold bestEffort
  dsimp only
  split
  · exact samePortDrop_forwarded p _
  · exact admitFrame_forwarded ..

/-! ### The event of a frame that is learned -/

/-- What an event that forwards a frame leaves of what it learned: `s` before the event, `w` as it is classified, `t` after. -/
structure LearnedThen (p : Port) (f : RxFrame) (s w t : State) : Prop where
  arrived : Arrived p s w
  addr : t.addr = (learn p f w).addr
  timer : t.timer = s.timer
  engine : t.engine = s.engine
  receiving : t.ports[p].receiving = none
  good : t.ports[p].counters[0] = satInc s.ports[p].counters[0]
  device : ∀ i : Fin 28, 21 ≤ i.val →
    t.deviceCounters[i] = satAdd (learn p f w).deviceCounters[i] (reportsOf i (learn p f w).fault.inbox)
  source : t.mgmt.sources[srcPort p] = (learn p f w).mgmt.sources[srcPort p]

theorem exec_frameEnd_learns {s : State} {p : Port} {f : RxFrame} {start : Stamp} (good : FrameIsGood s p f start)
    (inactive : ∀ (n : StreamNo) (x : Stream), s.streams[n] = some x → x.desc.key = ⟨p, frameDest f, frameVlan f⟩ →
      x.stage ≠ .active) : ∃ w t, exec (.frameEnd p f) s = .next t ∧ LearnedThen p f s w t := by
  obtain ⟨w, arrived, passes⟩ := classify_passes (start := start) inactive
  have learned := learn_is_learned p f w
  have forwarded := bestEffort_forwarded p start f w
  have only := takeReports_only (bestEffort p start f w)
  have units : (learn p f w).ports = w.ports := (congrArg State.ports learned.rest :)
  have unit := arrived.unit
  refine ⟨w, _, (exec_frameEnd_good good).trans (by rw [passes]), arrived, ?_, ?_, ?_, ?_, ?_, fun i high => ?_, ?_⟩
  · exact (congrArg State.addr only.rest :).trans (congrArg State.addr forwarded.rest :)
  · exact only.timer.trans ((congrArg State.timer forwarded.rest :).trans
      ((congrArg State.timer learned.rest :).trans (congrArg State.timer arrived.rest :)))
  · exact (congrArg State.engine only.rest :).trans ((congrArg State.engine forwarded.rest :).trans
      ((congrArg State.engine learned.rest :).trans (congrArg State.engine arrived.rest :)))
  · rw [takeReports_ports, (congrArg PortUnit.receiving (forwarded.units p) :), units, unit]; rfl
  · rw [takeReports_ports, forwarded.good, units, unit]
    exact upd_same s.ports[p].counters 0 satInc
  · have device : (bestEffort p start f w).deviceCounters = (learn p f w).deviceCounters :=
      (congrArg State.deviceCounters forwarded.rest :)
    rw [takeReports_deviceCounters, forwarded.reports i high, device]
  · rw [only.sources _ (srcPort_ne_srcFault p), forwarded.sources _ (srcPort_ne_srcProbe p)]

/-- Settles O29: the source is learned case by case, and the forwarding leaves what was learned. -/
theorem goodFrameIsLearned : Obligations.GoodFrameIsLearned := by
  unfold Obligations.GoodFrameIsLearned
  intro s p f start good ok inactive group unknown
  obtain ⟨w, t, run, h⟩ := exec_frameEnd_learns good inactive
  have addr : w.addr = s.addr := (congrArg State.addr h.arrived.rest :)
  have device : w.deviceCounters = s.deviceCounters := (congrArg State.deviceCounters h.arrived.rest :)
  have mgmt : w.mgmt = s.mgmt := (congrArg State.mgmt h.arrived.rest :)
  have timer : w.timer = s.timer := (congrArg State.timer h.arrived.rest :)
  have inbox : w.fault.inbox = [] := (congrArg (fun x : State => x.fault.inbox) h.arrived.rest :).trans good.noReports
  have learned := learn_is_learned p f w
  have quiet (i : Fin 28) (other : i.val ≠ 21) : reportsOf i (learn p f w).fault.inbox = 0 := by
    rw [learned.reports i other, inbox, reportsOf_nil]
  have count (i : Fin 28) (high : 22 ≤ i.val) : t.deviceCounters[i] = (learn p f w).deviceCounters[i] := by
    rw [h.device i (by omega), quiet i (by omega), satAdd_zero]
  refine ⟨t, run, h.receiving, h.good, ?_, h.timer, h.engine, fun grouped => ?_, fun single new room => ?_,
    fun single new full => ?_, fun x mem single mac vlan => ⟨fun kind => ?_, fun kind => ?_⟩⟩
  · rw [h.addr, ← addr]; exact learned.addr
  · rw [h.addr, learn_group grouped, addr]
  · have run := learn_new (p := p) (s := w) single (addrEntry_unknown (by rw [addr]; exact new)) (by rw [addr]; exact room)
    have spec := lowestFree_spec 0 s.addr.entries ok.ascending fun _ _ => Nat.zero_le _
    have least := lowestFree_le 0 s.addr.entries
    refine ⟨lowestFree 0 s.addr.entries, by omega, spec.2, fun i below => lowestFree_below 0 _ i (Nat.zero_le _) below,
      fun x => ?_, ?_⟩
    · have entries : t.addr.entries = insertEntry ⟨lowestFree 0 w.addr.entries, frameSource f, frameVlan f, p, .learned, 0⟩
          w.addr.entries := by rw [h.addr, run]; rfl
      rw [entries, addr, mem_insertEntry, or_comm]
    · refine (count 22 (by decide)).trans ?_
      rw [run, ← device]
      exact upd_same w.deviceCounters 22 satInc
  · have run := learn_full (p := p) (s := w) single (addrEntry_unknown (by rw [addr]; exact new)) (by rw [addr]; exact full)
    refine ⟨?_, ?_, fun routed => ?_⟩
    · rw [h.addr, run]; exact addr
    · have reports : (learn p f w).fault.inbox = [⟨w.stamped .learnFull (.ingress p) none, none, none, false⟩] := by
        rw [run]; exact congrArg (· ++ [_]) inbox
      refine (h.device 21 (by decide)).trans ?_
      rw [reports, run]
      exact congrArg (fun v : Table Counter 28 => satInc v[21]) device
    · rw [← timer]
      show ∃ n ∈ t.mgmt.sources[srcPort p].pending, _
      rw [h.source, run]
      exact raise_pending (s := report .learnFull (.ingress p) none w) (by rw [← mgmt] at routed; exact routed) _ _
  · have found : w.addrEntry (frameSource f) (frameVlan f) = some x := by
      rw [← mac, ← vlan]; exact addrEntry_of_mem (by rw [addr]; exact ok) (by rw [addr]; exact mem)
    have run := learn_learned (p := p) (s := w) single found kind
    have counted := count 23 (by decide)
    by_cases same : x.port = p
    · rw [if_pos same] at run ⊢
      rw [run] at counted
      exact ⟨by rw [h.addr, run, ← addr]; simp [addrUpdate, refreshed], counted.trans (by rw [← device]; rfl)⟩
    · rw [if_neg same] at run ⊢
      rw [run] at counted
      exact ⟨by rw [h.addr, run, ← addr]; simp [addrUpdate, bumpDevice, refreshed],
        counted.trans (by rw [← device]; exact upd_same w.deviceCounters 23 satInc)⟩
  · have found : w.addrEntry (frameSource f) (frameVlan f) = some x := by
      rw [← mac, ← vlan]; exact addrEntry_of_mem (by rw [addr]; exact ok) (by rw [addr]; exact mem)
    have run := learn_static (p := p) (s := w) single found kind
    have counted := count 24 (by decide)
    by_cases same : x.port = p
    · rw [if_pos same] at run ⊢
      rw [run] at counted
      exact ⟨by rw [h.addr, run, addr], counted.trans (by rw [← device]; rfl)⟩
    · rw [if_neg same] at run ⊢
      rw [run] at counted
      exact ⟨by rw [h.addr, run]; exact addr,
        counted.trans (by rw [← device]; exact upd_same w.deviceCounters 24 satInc)⟩

end Sys2Proof.MotionLaws
end

section
/-! SUPPORT. An egress at which one frame more waits, behind all others and not yet ready, chooses as it did without it (R103, R112,
R137). -/

namespace Sys2Proof.MotionLaws

open Sys2Proof.Machine Sys2Proof.Safety Sys2Proof.Laws Sys2Proof.CellTime Sys2Proof.PortLaws

/-! ### What the egress sees -/

/-- What the egress `e` sees in `c` is what it sees in `s`, but for the unready frame `id`, which may wait behind the others, and
for frames that left their slots or lost references. -/
structure Nearly (e : Port) (id : FrameId) (s c : State) : Prop where
  timer : c.timer = s.timer
  engine : c.engine = s.engine
  link : c.ports[e].link = s.ports[e].link
  hold : c.ports[e].hold = s.ports[e].hold
  wire : c.egress[e].wire = s.egress[e].wire
  openWindow : c.egress[e].openWindow = s.egress[e].openWindow
  timeline : c.egress[e].timeline = s.egress[e].timeline
  nextWindow : c.egress[e].nextWindow = s.egress[e].nextWindow
  queues : ∀ k : ClassNo, c.egress[e].queues[k] = s.egress[e].queues[k] ∨ c.egress[e].queues[k] = s.egress[e].queues[k] ++ [id]
  unready : ∀ r, c.frame id = some r → c.since r.received < 120
  frames : ∀ i r, i ≠ id → c.frame i = some r → ∃ q, s.frame i = some q ∧ q.received = r.received ∧ q.len = r.len
  descs : ∀ n : StreamNo, c.streams[n].map (·.desc) = s.streams[n].map (·.desc)
  legs : ∀ n, (c.leg n e).isSome = (s.leg n e).isSome
  slots : ∀ n, ∀ i ∈ c.slotOf n e, i = id ∨ i ∈ s.slotOf n e

/-- What the egress sees differs by the unready frame `id` alone, which waits behind the others. -/
structure Behind (e : Port) (id : FrameId) (s c : State) : Prop extends Nearly e id s c where
  absent : s.frame id = none
  others : ∀ i, i ≠ id → c.frame i = s.frame i
  appended : ∀ n, c.slotOf n e = s.slotOf n e ∨ c.slotOf n e = s.slotOf n e ++ [id]

section
variable {e : Port} {id : FrameId} {s c : State}

theorem Nearly.phase (h : Nearly e id s c) : c.phase = s.phase := by rw [State.phase, h.timer]; rfl

theorem Nearly.since (h : Nearly e id s c) (t : Stamp) : c.since t = s.since t := by rw [State.since, h.timer]; rfl

theorem Nearly.fits (h : Nearly e id s c) (len g : Nat) : Fits c e len g ↔ Fits s e len g := by
  simp only [Fits, h.timeline, h.nextWindow, h.engine, h.timer, h.phase]

theorem Nearly.turn (h : Nearly e id s c) {v : Speed} (turn : BestEffortTurn s e v) : BestEffortTurn c e v :=
  ⟨h.link.trans turn.up, h.wire.trans turn.idle, by rw [h.openWindow]; exact turn.free⟩

/-- A class queue whose head is another frame had that head. -/
theorem Nearly.head (h : Nearly e id s c) {k : ClassNo} {i : FrameId} (first : c.egress[e].queues[k].head? = some i)
    (other : i ≠ id) : s.egress[e].queues[k].head? = some i := by
  rcases h.queues k with same | more
  · rw [← same]; exact first
  · rw [more, List.head?_append] at first
    cases queue : s.egress[e].queues[k].head? with
    | none => rw [queue] at first; cases first; exact absurd rfl other
    | some j => rw [queue] at first; exact first

theorem Nearly.headStarts (h : Nearly e id s c) {k : ClassNo} {g : Nat} (starts : HeadStarts c e k g) : HeadStarts s e k g := by
  obtain ⟨r, stored, ready, fits⟩ := starts
  obtain ⟨i, first, stored⟩ := Option.bind_eq_some_iff.1 stored
  have other : i ≠ id := by
    rintro rfl
    exact absurd (h.unready r stored) (Nat.not_lt.2 ready)
  obtain ⟨q, stored', received, len⟩ := h.frames i r other stored
  refine ⟨q, by rw [h.head first other]; exact stored', ?_, ?_⟩
  · rw [received, ← h.since]; exact ready
  · rw [len, ← h.fits]; exact fits

/-- The stream of an open window, and its leg, seen from the other state. -/
theorem Nearly.leg (h : Nearly e id s c) {n : StreamNo} {x : Stream} {l : Leg} (stream : s.streams[n] = some x)
    (leg : s.leg n e = some l) : ∃ y k, c.streams[n] = some y ∧ y.desc = x.desc ∧ c.leg n e = some k := by
  have desc := h.descs n
  rw [stream] at desc
  obtain ⟨y, hy, same⟩ := Option.map_eq_some_iff.1 desc
  have there := h.legs n
  rw [leg] at there
  obtain ⟨k, hk⟩ := Option.isSome_iff_exists.1 there
  exact ⟨y, k, hy, same, hk⟩

theorem slotOf_leg {s : State} {n : StreamNo} {e : Port} {l : Leg} (leg : s.leg n e = some l) : s.slotOf n e = l.slot := by
  rw [slotOf_eq, leg]; rfl

theorem Nearly.waits (h : Nearly e id s c) (waits : MotionWaits s e) : MotionWaits c e := by
  obtain ⟨o, x, l, opened, primary, unreleased, stream, leg, why⟩ := waits
  obtain ⟨y, k, stream', desc, leg'⟩ := h.leg stream leg
  refine ⟨o, y, k, h.openWindow.trans opened, primary, unreleased, stream', leg', ?_⟩
  rcases why with full | late | unready
  · exact .inl (by rw [desc]; exact full)
  · exact .inr (.inl (by rw [h.phase]; exact late))
  · refine .inr (.inr fun i mem r stored => ?_)
    by_cases new : i = id
    · subst new; exact h.unready r stored
    · obtain ⟨q, stored', received, -⟩ := h.frames i r new stored
      have old := (h.slots _ i (by rw [slotOf_leg leg']; exact mem)).resolve_left new
      rw [slotOf_leg leg] at old
      rw [h.since, ← received]
      exact unready i old q stored'

/-- Where a choice would start nothing and drop nothing, it still would (R112). -/
theorem Nearly.settled (h : Nearly e id s c) (settled : Settled s e) : Settled c e := by
  rcases settled with busy | held | down | waits | ⟨v, turn, none⟩
  · exact .inl (by rw [h.wire]; exact busy)
  · exact .inr (.inl (h.hold.trans held))
  · exact .inr (.inr (.inl (h.link.trans down)))
  · exact .inr (.inr (.inr (.inl (h.waits waits))))
  · exact .inr (.inr (.inr (.inr ⟨v, h.turn turn, fun k head => none k (h.headStarts head)⟩)))

theorem Behind.stored (h : Behind e id s c) {i : FrameId} {r : FrameRecord} (stored : s.frame i = some r) : c.frame i = some r := by
  by_cases new : i = id
  · rw [new, h.absent] at stored; cases stored
  · rw [h.others i new]; exact stored

/-- The frame that may start in best effort's turn still does, the frames behind it waiting (R116). -/
theorem Behind.bestEffort (h : Behind e id s c) {k : ClassNo} {r : FrameRecord} {rest : List FrameId} {v : Speed}
    (start : BestEffortStart s e k r rest v) : BestEffortStart c e k r c.egress[e].queues[k].tail v where
  toBestEffortTurn := h.turn start.toBestEffortTurn
  queue := by
    rcases h.queues k with same | more
    · rw [same, start.queue]; rfl
    · rw [more, start.queue]; rfl
  stored := h.stored start.stored
  ready := by rw [h.since]; exact start.ready
  fits := (h.fits _ _).2 start.fits
  first k' higher head := start.first k' higher (h.headStarts head)

/-- The motion frame that may start still does (R104). -/
theorem Behind.motion (h : Behind e id s c) {o : OpenWindow} {x : Stream} {l : Leg} {r : FrameRecord} {rest : List FrameId}
    {v : Speed} (start : MotionStart s e o x l r rest v) :
    ∃ y k, y.desc = x.desc ∧ MotionStart c e o y k r (c.slotOf o.window.stream e).tail v := by
  obtain ⟨y, k, stream, desc, leg⟩ := h.leg start.stream start.leg
  have slot : k.slot = r.id :: (c.slotOf o.window.stream e).tail := by
    have old : s.slotOf o.window.stream e = r.id :: rest := (slotOf_leg start.leg).trans start.slot
    rw [← slotOf_leg leg]
    rcases h.appended o.window.stream with same | more
    · rw [same, old]; rfl
    · rw [more, old]; rfl
  exact ⟨y, k, desc,
    { up := h.link.trans start.up
      idle := h.wire.trans start.idle
      opened := h.openWindow.trans start.opened
      primary := start.primary
      unreleased := start.unreleased
      stream := stream
      leg := leg
      slot := slot
      stored := h.stored start.stored
      room := by rw [desc]; exact start.room
      within := by rw [h.phase]; exact start.within
      ready := by rw [h.since]; exact start.ready
      fresh := by rw [h.since, desc]; exact start.fresh
      inTime := by rw [h.phase]; exact start.inTime }⟩

end

/-! ### A choice that drops nothing -/

/-- Between two states the egress chose and dropped nothing: the frames stand, and the legs on other egresses. -/
structure Started (e : Port) (s t : State) : Prop extends Chosen e s t where
  buffer : t.buffer = s.buffer
  fault : t.fault = s.fault
  beCount : t.egress[e].beCount = s.egress[e].beCount
  legs : ∀ (n : StreamNo) (p : Port), p ≠ e → t.leg n p = s.leg n p

theorem Started.refl (e : Port) (s : State) : Started e s s := ⟨.refl e s, rfl, rfl, rfl, fun _ _ _ => rfl⟩

theorem leg_of_streams {s t : State} (h : t.streams = s.streams) (n : StreamNo) (p : Port) : t.leg n p = s.leg n p := by
  rw [State.leg, h]; rfl

theorem startBestEffort_started (e : Port) (c : ClassNo) (id : FrameId) (s : State) : Started e s (startBestEffort e c id s) :=
  ⟨startBestEffort_chosen e c id s, rfl, rfl, by rw [startBestEffort_egress], fun _ _ _ => rfl⟩

/-- The streams after a motion frame started: its own leg's head is sent (R105). -/
theorem startMotion_leg (e : Port) (g : Nat) (o : OpenWindow) (d : Desc) (r : FrameRecord) (s : State) (n : StreamNo) (p : Port) :
    (startMotion e g o d r s).leg n p =
      if n = o.window.stream ∧ p = e then (s.leg n p).map (headSent r.id (d.twin != .off)) else s.leg n p := by
  unfold startMotion
  dsimp only
  generalize sent : bumpPort e .motionSent _ = u
  have streams : (probeStart o.window.stream e r o.window g u).streams = u.streams :=
    (congrArg State.streams (probeStart_rest o.window.stream e r o.window g u) :)
  rw [leg_of_streams streams, ← sent]
  refine (modLeg_leg (f := headSent r.id (d.twin != .off)) (fun _ => rfl) o.window.stream e s n p).trans ?_
  split
  · next own => rw [own.1, own.2]
  · rfl

theorem startMotion_buffer (e : Port) (g : Nat) (o : OpenWindow) (d : Desc) (r : FrameRecord) (s : State) :
    (startMotion e g o d r s).buffer = s.buffer := by
  unfold startMotion
  dsimp only
  generalize sent : bumpPort e .motionSent _ = u
  have buffer : (probeStart o.window.stream e r o.window g u).buffer = u.buffer :=
    (congrArg State.buffer (probeStart_rest o.window.stream e r o.window g u) :)
  rw [buffer, ← sent]
  rfl

theorem startMotion_dropless (e : Port) (g : Nat) (o : OpenWindow) (d : Desc) (r : FrameRecord) (s : State) :
    Started e s (startMotion e g o d r s) :=
  ⟨startMotion_chosen e g o d r s, startMotion_buffer .., startMotion_fault .., by rw [(startMotion_started e g o d r s).egress],
    fun n p other => (startMotion_leg e g o d r s n p).trans (if_neg fun own => other own.2)⟩

end Sys2Proof.MotionLaws
end

section
/-! SUPPORT. A stored best-effort frame joins each egress that takes it, and the egress chooses (R137). -/

namespace Sys2Proof.MotionLaws

open Sys2Proof.Machine Sys2Proof.Safety Sys2Proof.Laws Sys2Proof.CellTime Sys2Proof.PortLaws

/-- A choice of the egress would drop no frame. -/
def NoDrop (s : State) (e : Port) : Prop :=
  Settled s e ∨ (∃ c r rest v, BestEffortStart s e c r rest v) ∨ ∃ o x l r rest v, MotionStart s e o x l r rest v

theorem Behind.started {e : Port} {id : FrameId} {s c : State} (h : Behind e id s c) (noDrop : NoDrop s e) :
    Started e c (choose e c) := by
  by_cases hold : c.ports[e].hold = true
  · rw [choose_settled (.inr (.inl hold))]; exact .refl e c
  · have free := Bool.eq_false_iff.2 hold
    rcases noDrop with settled | ⟨k, r, rest, v, start⟩ | ⟨o, x, l, r, rest, v, start⟩
    · rw [choose_settled (h.settled settled)]; exact .refl e c
    · rw [choose_bestEffort (h.bestEffort start) free]; exact startBestEffort_started ..
    · obtain ⟨y, k, -, start'⟩ := h.motion start
      rw [choose_motion start' free]; exact startMotion_dropless ..

/-! ### One egress -/

/-- The egress `e` sees in `c` what it sees in `s`, and the unready frame `id`, stored anew, waits at none of its places. -/
structure Sees (e : Port) (id : FrameId) (s c : State) : Prop extends Behind e id s c where
  egress : c.egress[e] = s.egress[e]
  sameSlots : ∀ n, c.slotOf n e = s.slotOf n e

/-- An egress that a frame of `n` cells joins (R137). -/
def joining (cls : ClassNo) (n : Nat) (id : FrameId) (x : Egress) : Egress :=
  { x with beCount := x.beCount + n, queues := Table.upd x.queues cls fun q => q ++ [id] }

theorem joinClass_eq (cls : ClassNo) (n : Nat) (id : FrameId) (e : Port) (s : State) :
    joinClass cls n id e s = choose e (s.modEgress e (joining cls n id)) := rfl

theorem joining_egress (cls : ClassNo) (n : Nat) (id : FrameId) (e : Port) (s : State) :
    (s.modEgress e (joining cls n id)).egress[e] = joining cls n id s.egress[e] := by
  rw [State.modEgress_egress, upd_get, if_pos rfl]

theorem Sees.join {e : Port} {id : FrameId} {s c : State} (h : Sees e id s c) (cls : ClassNo) (n : Nat) :
    Behind e id s (c.modEgress e (joining cls n id)) := by
  have egress := joining_egress cls n id e c
  exact
    { h with
      wire := by rw [egress]; exact h.wire
      openWindow := by rw [egress]; exact h.openWindow
      timeline := by rw [egress]; exact h.timeline
      nextWindow := by rw [egress]; exact h.nextWindow
      queues := fun k => by
        rw [egress, ← h.egress]
        by_cases own : k = cls
        · subst own; exact .inr ((upd_get ..).trans (if_pos rfl))
        · exact .inl (upd_other _ _ _ _ own)
      appended := h.appended }

/-- What the egress `e` makes of a frame of `n` cells that joins it (R137). -/
structure JoinedAt (s : State) (e : Port) (cls : ClassNo) (n : Nat) (id : FrameId) (t : State) : Prop where
  count : t.egress[e].beCount = s.egress[e].beCount + n
  settled : Settled s e → t.egress[e] = joining cls n id s.egress[e]
  bestEffort : ∀ c r rest v, s.ports[e].hold = false → BestEffortStart s e c r rest v →
    t.egress[e].wire = some ⟨r.id, s.timer.grain, .bestEffort⟩ ∧
    t.egress[e].queues = Table.upd (Table.upd s.egress[e].queues c fun _ => rest) cls (· ++ [id])
  motion : ∀ o x l r rest v, s.ports[e].hold = false → MotionStart s e o x l r rest v →
    t.egress[e].wire = some ⟨r.id, s.timer.grain, .motion o.window.stream (x.desc.twin != .off)⟩ ∧
    t.slotOf o.window.stream e = rest ∧ t.egress[e].queues = Table.upd s.egress[e].queues cls (· ++ [id])

theorem table_ext {α : Type} {n : Nat} {v w : Table α n} (h : ∀ i : Fin n, v[i] = w[i]) : v = w :=
  Vector.ext fun i hi => h ⟨i, hi⟩

/-- The head of a queue leaves it after a frame joined one. -/
theorem upd_tail_append {q : Table (List FrameId) 4} {c cls : ClassNo} {id i : FrameId} {rest : List FrameId}
    (queue : q[c] = i :: rest) : Table.upd (Table.upd q cls (· ++ [id])) c List.tail =
      Table.upd (Table.upd q c fun _ => rest) cls (· ++ [id]) := by
  refine table_ext fun j => ?_
  by_cases out : j = c
  · subst out
    by_cases own : j = cls
    · subst own; simp only [upd_get, if_true, queue, List.cons_append, List.tail_cons]
    · simp only [upd_get, if_true, if_neg own, queue, List.tail_cons]
  · by_cases own : j = cls
    · subst own; simp only [upd_get, if_true, if_neg out]
    · simp only [upd_get, if_neg own, if_neg out]

theorem Sees.joined {e : Port} {id : FrameId} {s c : State} (h : Sees e id s c) (cls : ClassNo) (n : Nat) (noDrop : NoDrop s e) :
    JoinedAt s e cls n id (joinClass cls n id e c) := by
  have behind := h.join cls n
  have egress := (joining_egress cls n id e c).trans (congrArg _ h.egress)
  rw [joinClass_eq]
  refine ⟨?_, fun settled => ?_, fun k r rest v hold start => ?_, fun o x l r rest v hold start => ?_⟩
  · rw [(behind.started noDrop).beCount, egress]; rfl
  · rw [choose_settled (behind.settled settled), egress]
  · rw [choose_bestEffort (behind.bestEffort start) (behind.hold.trans hold), startBestEffort_egress, egress]
    exact ⟨by rw [behind.timer], upd_tail_append start.queue⟩
  · obtain ⟨y, k, desc, start'⟩ := behind.motion start
    have started := startMotion_started e v.factor o y.desc r (c.modEgress e (joining cls n id))
    have slot : (c.modEgress e (joining cls n id)).slotOf o.window.stream e = r.id :: rest :=
      (h.sameSlots _).trans ((slotOf_leg start.leg).trans start.slot)
    rw [choose_motion start' (behind.hold.trans hold)]
    refine ⟨?_, by rw [started.slot, slot]; rfl, by rw [started.egress, egress]; rfl⟩
    rw [started.egress, desc, behind.timer]

/-! ### Several egresses -/

/-- Between two states some egresses chose and dropped nothing; the others and the frames stand. -/
structure Joins (es : List Port) (c t : State) : Prop where
  rest : { t with
    ports := c.ports, streams := c.streams, legCounters := c.legCounters, egress := c.egress, buffer := c.buffer
    fault := c.fault, probes := c.probes, mgmt := c.mgmt } = c
  buffer : t.buffer = c.buffer
  fault : t.fault = c.fault
  others : ∀ p : Port, p ∉ es → t.ports[p] = c.ports[p] ∧ t.egress[p] = c.egress[p]
  legs : ∀ (n : StreamNo) (p : Port), p ∉ es → t.leg n p = c.leg n p
  descs : ∀ n : StreamNo, t.streams[n].map (·.desc) = c.streams[n].map (·.desc)

theorem Joins.refl (s : State) : Joins [] s s := ⟨rfl, rfl, rfl, fun _ _ => ⟨rfl, rfl⟩, fun _ _ _ => rfl, fun _ => rfl⟩

theorem Joins.cons {e : Port} {es : List Port} {c t u : State} (h : Joins [e] c t) (k : Joins es t u) : Joins (e :: es) c u where
  rest := (congrArg (fun x : State => { x with
    ports := c.ports, streams := c.streams, legCounters := c.legCounters, egress := c.egress, buffer := c.buffer
    fault := c.fault, probes := c.probes, mgmt := c.mgmt }) k.rest).trans h.rest
  buffer := k.buffer.trans h.buffer
  fault := k.fault.trans h.fault
  others p away := by
    obtain ⟨ne, rest⟩ := not_or.1 (mt List.mem_cons.2 away)
    have first := h.others p (by simpa using ne)
    have then_ := k.others p rest
    exact ⟨then_.1.trans first.1, then_.2.trans first.2⟩
  legs n p away := by
    obtain ⟨ne, rest⟩ := not_or.1 (mt List.mem_cons.2 away)
    exact (k.legs n p rest).trans (h.legs n p (by simpa using ne))
  descs n := (k.descs n).trans (h.descs n)

theorem desc_of_settled {s t : State} {n : StreamNo} (h : t.streams[n].map settledStream = s.streams[n].map settledStream) :
    t.streams[n].map (·.desc) = s.streams[n].map (·.desc) := by
  have same := congrArg (Option.map fun x : Stream => x.desc) h
  rw [Option.map_map, Option.map_map] at same
  exact same

theorem Sees.joins_one {e : Port} {id : FrameId} {s c : State} (h : Sees e id s c) (cls : ClassNo) (n : Nat)
    (noDrop : NoDrop s e) : Joins [e] c (joinClass cls n id e c) := by
  have started := (h.join cls n).started noDrop
  rw [joinClass_eq]
  refine ⟨(congrArg (fun x : State => { x with egress := c.egress }) started.rest :), started.buffer, started.fault,
    fun p away => ?_, fun m p away => started.legs m p (by simpa using away), fun m => desc_of_settled (started.streams m)⟩
  have other : p ≠ e := by simpa using away
  have stays := started.others p other
  exact ⟨stays.1, stays.2.trans (upd_other _ _ _ _ other)⟩

theorem slotOf_of_leg {s t : State} {n : StreamNo} {e : Port} (h : t.leg n e = s.leg n e) : t.slotOf n e = s.slotOf n e := by
  rw [slotOf_eq, h, slotOf_eq]

theorem Sees.joins {e : Port} {id : FrameId} {s c t : State} {es : List Port} (h : Sees e id s c) (joins : Joins es c t)
    (away : e ∉ es) : Sees e id s t := by
  have timer : t.timer = c.timer := (congrArg State.timer joins.rest :)
  have buffer := joins.buffer
  have engine : t.engine = c.engine := (congrArg State.engine joins.rest :)
  have frame (i : FrameId) : t.frame i = c.frame i := by rw [State.frame, buffer]; rfl
  have since (x : Stamp) : t.since x = c.since x := by rw [State.since, timer]; rfl
  obtain ⟨unit, egress⟩ := joins.others e away
  have slot (n) : t.slotOf n e = c.slotOf n e := slotOf_of_leg (joins.legs n e away)
  exact
    { timer := timer.trans h.timer
      engine := engine.trans h.engine
      link := by rw [unit]; exact h.link
      hold := by rw [unit]; exact h.hold
      wire := by rw [egress]; exact h.wire
      openWindow := by rw [egress]; exact h.openWindow
      timeline := by rw [egress]; exact h.timeline
      nextWindow := by rw [egress]; exact h.nextWindow
      queues := by rw [egress]; exact h.queues
      unready := fun r stored => by rw [since]; exact h.unready r ((frame id).symm.trans stored)
      frames := fun i r other stored => h.frames i r other ((frame i).symm.trans stored)
      descs := fun n => (joins.descs n).trans (h.descs n)
      legs := fun n => by rw [joins.legs n e away]; exact h.legs n
      slots := fun n i mem => h.slots n i (by rw [← slot]; exact mem)
      sameSlots := fun n => (slot n).trans (h.sameSlots n)
      absent := h.absent
      others := fun i other => (frame i).trans (h.others i other)
      appended := fun n => by rw [slot]; exact h.appended n
      egress := egress.trans h.egress }

theorem JoinedAt.joins {s t u : State} {e : Port} {cls : ClassNo} {n : Nat} {id : FrameId} {es : List Port}
    (h : JoinedAt s e cls n id t) (joins : Joins es t u) (away : e ∉ es) : JoinedAt s e cls n id u := by
  have egress := (joins.others e away).2
  have slot (m) : u.slotOf m e = t.slotOf m e := slotOf_of_leg (joins.legs m e away)
  refine ⟨by rw [egress]; exact h.count, fun settled => by rw [egress]; exact h.settled settled,
    fun c r rest v hold start => by rw [egress]; exact h.bestEffort c r rest v hold start,
    fun o x l r rest v hold start => by rw [egress, slot]; exact h.motion o x l r rest v hold start⟩

/-- Each of several egresses makes of the frame what it would alone. -/
theorem forAll_joined {s c : State} {id : FrameId} (cls : ClassNo) (n : Nat) {es : List Port} (once : es.Nodup)
    (sees : ∀ e ∈ es, Sees e id s c) (noDrop : ∀ e ∈ es, NoDrop s e) :
    Joins es c (forAll es (joinClass cls n id) c) ∧ ∀ e ∈ es, JoinedAt s e cls n id (forAll es (joinClass cls n id) c) := by
  induction es generalizing c with
  | nil => exact ⟨.refl c, fun _ mem => absurd mem (List.not_mem_nil)⟩
  | cons e es ih =>
    obtain ⟨first, once⟩ := List.nodup_cons.1 once
    have own := sees e (List.mem_cons_self ..)
    have ownNoDrop := noDrop e (List.mem_cons_self ..)
    have step := own.joins_one cls n ownNoDrop
    have later : ∀ d ∈ es, Sees d id s (joinClass cls n id e c) := fun d mem =>
      (sees d (List.mem_cons_of_mem _ mem)).joins step (by simpa using fun same : d = e => first (same ▸ mem))
    obtain ⟨joins, joined⟩ := ih once later fun d mem => noDrop d (List.mem_cons_of_mem _ mem)
    refine ⟨step.cons joins, fun d mem => ?_⟩
    rcases List.mem_cons.1 mem with rfl | mem
    · exact (own.joined cls n ownNoDrop).joins joins first
    · exact joined d mem

end Sys2Proof.MotionLaws
end

section
/-! SUPPORT. Where a best-effort frame goes once its source is learned (R127, R129). -/

namespace Sys2Proof.MotionLaws

open Sys2Proof.Machine Sys2Proof.Safety Sys2Proof.Laws Sys2Proof.CellTime Sys2Proof.PortLaws

/-! ### The entries after learning -/

/-- No two entries share a position. -/
theorem pos_unique {xs : List AddrEntry} (ok : AddrOk xs) {x y : AddrEntry} (hx : x ∈ xs) (hy : y ∈ xs) (same : y.pos = x.pos) :
    y = x := by
  by_contra ne
  have apart : Std.Symm fun x y : AddrEntry => x.pos ≠ y.pos := ⟨fun _ _ h => h.symm⟩
  exact (ok.ascending.imp fun h => Nat.ne_of_lt h).forall hy hx ne same

section
variable {p : Port} {f : RxFrame} {s : State}

/-- The key is that of the frame's source, which is an individual address. -/
def IsSource (f : RxFrame) (mac : Mac) (vlan : Option Nat) : Prop :=
  isGroup (frameSource f) = false ∧ mac = frameSource f ∧ vlan = frameVlan f

/-- An entry stands, the LEARNED one of the source on the frame's port. -/
theorem learn_mem (ok : AddrOk s.addr.entries) {x : AddrEntry} (mem : x ∈ s.addr.entries) :
    ∃ y ∈ (learn p f s).addr.entries, y.mac = x.mac ∧ y.vlan = x.vlan ∧
      (IsSource f x.mac x.vlan ∧ x.kind = .learned → y.port = p) ∧
      (¬(IsSource f x.mac x.vlan ∧ x.kind = .learned) → y.port = x.port) := by
  cases group : isGroup (frameSource f) with
  | true =>
    rw [learn_group group]
    exact ⟨x, mem, rfl, rfl, fun h => absurd (group ▸ h.1.1) (by decide), fun _ => rfl⟩
  | false =>
    cases found : s.addrEntry (frameSource f) (frameVlan f) with
    | none =>
      have other : ¬IsSource f x.mac x.vlan := fun h => addrEntry_none found x mem h.2
      have stays (t : State) (mem : x ∈ t.addr.entries) : ∃ y ∈ t.addr.entries, y.mac = x.mac ∧ y.vlan = x.vlan ∧
          (IsSource f x.mac x.vlan ∧ x.kind = .learned → y.port = p) ∧
          (¬(IsSource f x.mac x.vlan ∧ x.kind = .learned) → y.port = x.port) :=
        ⟨x, mem, rfl, rfl, fun h => absurd h.1 other, fun _ => rfl⟩
      by_cases room : s.addr.entries.length < 1024
      · rw [learn_new group found room]
        exact stays _ (mem_insertEntry.2 (.inr mem))
      · rw [learn_full group found (Nat.le_of_not_lt room)]
        exact stays _ mem
    | some z =>
      have hz : z ∈ s.addr.entries := List.mem_of_find?_eq_some found
      have key : z.mac = frameSource f ∧ z.vlan = frameVlan f := by simpa using List.find?_some found
      have own (h : IsSource f x.mac x.vlan) : z = x := by
        have same := addrEntry_of_mem ok mem
        rw [h.2.1, h.2.2, found] at same
        exact Option.some.inj same
      cases kind : z.kind with
      | learned =>
        have entries : (learn p f s).addr.entries = s.addr.entries.map fun y => if y.pos == z.pos then refreshed p y else y := by
          rw [learn_learned group found kind]; split <;> rfl
        refine ⟨if x.pos == z.pos then refreshed p x else x, ?_, ?_, ?_, fun h => ?_, fun h => ?_⟩
        · rw [entries]; exact List.mem_map.2 ⟨x, mem, rfl⟩
        · split <;> rfl
        · split <;> rfl
        · rw [own h.1]; simp [refreshed]
        · split
          · next at_ =>
            have same := pos_unique ok hz mem (by simpa using at_)
            exact absurd ⟨⟨group, by rw [same, key.1], by rw [same, key.2]⟩, by rw [same, kind]⟩ h
          · rfl
      | static =>
        have entries : (learn p f s).addr = s.addr := by
          rw [learn_static group found kind]; split <;> rfl
        rw [entries]
        refine ⟨x, mem, rfl, rfl, fun h => ?_, fun _ => rfl⟩
        rw [own h.1, h.2] at kind
        cases kind

/-- Every entry stood before, but for that of a source newly learned. -/
theorem mem_learn {y : AddrEntry} (mem : y ∈ (learn p f s).addr.entries) :
    (∃ x ∈ s.addr.entries, x.mac = y.mac ∧ x.vlan = y.vlan) ∨
      (y.mac = frameSource f ∧ s.addr.entries.length < 1024) := by
  cases group : isGroup (frameSource f) with
  | true => rw [learn_group group] at mem; exact .inl ⟨y, mem, rfl, rfl⟩
  | false =>
    cases found : s.addrEntry (frameSource f) (frameVlan f) with
    | none =>
      by_cases room : s.addr.entries.length < 1024
      · rw [learn_new group found room] at mem
        rcases mem_insertEntry.1 mem with rfl | old
        · exact .inr ⟨rfl, room⟩
        · exact .inl ⟨y, old, rfl, rfl⟩
      · rw [learn_full group found (Nat.le_of_not_lt room)] at mem
        exact .inl ⟨y, mem, rfl, rfl⟩
    | some z =>
      cases kind : z.kind with
      | learned =>
        have entries : (learn p f s).addr.entries = s.addr.entries.map fun y => if y.pos == z.pos then refreshed p y else y := by
          rw [learn_learned group found kind]; split <;> rfl
        rw [entries] at mem
        obtain ⟨x, hx, rfl⟩ := List.mem_map.1 mem
        exact .inl ⟨x, hx, by split <;> rfl, by split <;> rfl⟩
      | static =>
        have entries : (learn p f s).addr = s.addr := by
          rw [learn_static group found kind]; split <;> rfl
        rw [entries] at mem
        exact .inl ⟨y, mem, rfl, rfl⟩

/-- The source of an individual address that no entry held is learned where there is room. -/
theorem new_mem_learn (single : isGroup (frameSource f) = false)
    (unknown : ∀ x ∈ s.addr.entries, ¬(x.mac = frameSource f ∧ x.vlan = frameVlan f)) (room : s.addr.entries.length < 1024) :
    ∃ y ∈ (learn p f s).addr.entries, y.mac = frameSource f ∧ y.vlan = frameVlan f ∧ y.port = p := by
  rw [learn_new single (addrEntry_unknown unknown) room]
  exact ⟨⟨lowestFree 0 s.addr.entries, frameSource f, frameVlan f, p, .learned, 0⟩, mem_insertEntry.2 (.inl rfl), rfl, rfl, rfl⟩

end

/-! ### The targets (R129) -/

/-- Once the source is learned, the destination is known on the port `target` (R127, R129). -/
def Known (s : State) (p : Port) (f : RxFrame) (target : Port) : Prop :=
  isGroup (frameDest f) = false ∧
    ((∃ x ∈ s.addr.entries, x.mac = frameDest f ∧ x.vlan = frameVlan f ∧
        target = if frameDest f = frameSource f ∧ x.kind = .learned then p else x.port) ∨
     ((∀ x ∈ s.addr.entries, ¬(x.mac = frameDest f ∧ x.vlan = frameVlan f)) ∧ frameDest f = frameSource f ∧
        s.addr.entries.length < 1024 ∧ target = p))

/-- The ports but the frame's own. -/
abbrev flood (p : Port) : List Port := [0, 1, 2, 3, 4, 5, 6, 7].filter fun e => e ≠ p

section
variable {p : Port} {f : RxFrame} {w : State}

theorem targets_single {s : State} (single : isGroup (frameDest f) = false) (ok : AddrOk s.addr.entries) {y : AddrEntry}
    (mem : y ∈ s.addr.entries) (mac : y.mac = frameDest f) (vlan : y.vlan = frameVlan f) :
    s.targets p f = if y.port = p then none else some [y.port] := by
  have found := addrEntry_of_mem ok mem
  rw [mac, vlan] at found
  simp only [State.targets, single, found, Bool.false_eq_true, if_false]

theorem targets_known (ok : AddrOk w.addr.entries) {target : Port} (known : Known w p f target) :
    (learn p f w).targets p f = if target = p then none else some [target] := by
  have ok' : AddrOk (learn p f w).addr.entries := (learn_keeps p f w).addr ok
  obtain ⟨single, ⟨x, mem, mac, vlan, rfl⟩ | ⟨unknown, same, room, rfl⟩⟩ := known
  · obtain ⟨y, mem', mac', vlan', refreshed, stays⟩ := learn_mem (p := p) (f := f) ok mem
    have source : IsSource f x.mac x.vlan ↔ frameDest f = frameSource f :=
      ⟨fun h => mac.symm.trans h.2.1, fun e => ⟨e ▸ single, mac.trans e, vlan⟩⟩
    have port : y.port = if frameDest f = frameSource f ∧ x.kind = .learned then p else x.port := by
      by_cases h : frameDest f = frameSource f ∧ x.kind = .learned
      · rw [if_pos h]; exact refreshed ⟨source.2 h.1, h.2⟩
      · rw [if_neg h]; exact stays fun k => h ⟨source.1 k.1, k.2⟩
    rw [targets_single single ok' mem' (mac'.trans mac) (vlan'.trans vlan), port]
  · rw [same] at single unknown
    obtain ⟨y, mem, mac, vlan, port⟩ := new_mem_learn (p := target) single unknown room
    rw [targets_single (same ▸ single) ok' mem (mac.trans same.symm) vlan, port]

theorem targets_flood (unknown : ∀ target, ¬Known w p f target) : (learn p f w).targets p f = some (flood p) := by
  have all : allPorts.filter (fun e => e != p) = flood p := List.filter_congr fun e _ => by
    by_cases h : e = p <;> simp [h]
  unfold State.targets
  rw [all]
  cases group : isGroup (frameDest f) with
  | true => rfl
  | false =>
    have none : (learn p f w).addrEntry (frameDest f) (frameVlan f) = none := addrEntry_unknown fun y mem key => by
      have absent : ∀ x ∈ w.addr.entries, ¬(x.mac = frameDest f ∧ x.vlan = frameVlan f) := fun x hx k =>
        unknown _ ⟨group, .inl ⟨x, hx, k.1, k.2, rfl⟩⟩
      rcases mem_learn mem with ⟨x, hx, mac, vlan⟩ | ⟨mac, room⟩
      · exact absent x hx ⟨mac.trans key.1, vlan.trans key.2⟩
      · exact unknown p ⟨group, .inr ⟨absent, key.1.symm.trans mac, room, rfl⟩⟩
    simp only [none, Bool.false_eq_true, if_false]

end

/-! ### The state in which the frame is forwarded -/

/-- A good frame of port `p` has ended and its source is learned. -/
structure Learnt (p : Port) (f : RxFrame) (s u : State) : Prop where
  ports : u.ports = Table.upd s.ports p arriving
  timer : u.timer = s.timer
  engine : u.engine = s.engine
  egress : u.egress = s.egress
  buffer : u.buffer = s.buffer
  streams : u.streams = s.streams
  unlearned : isGroup (frameSource f) = true → u.addr = s.addr
  books : ∀ i : Fin 28, isGroup (frameSource f) = true ∨ i.val < 21 ∨ 24 < i.val →
    u.deviceCounters[i] = s.deviceCounters[i] ∧ reportsOf i u.fault.inbox = 0

/-- What the best-effort path makes of a frame whose targets are known (R129, R136). -/
def forwarded (p : Port) (start : Stamp) (f : RxFrame) (cls : ClassNo) (targets : Option (List Port)) (u : State) : State :=
  match targets with
  | none => samePortDrop p u
  | some ts => admitFrame p start f cls ts u

section
variable {s : State} {p : Port} {f : RxFrame} {start : Stamp}

theorem learn_learnt {w : State} (quiet : s.fault.inbox = []) (arrived : Arrived p s w) : Learnt p f s (learn p f w) := by
  have learned := learn_is_learned p f w
  have inbox : w.fault.inbox = [] := (congrArg (fun x : State => x.fault.inbox) arrived.rest :).trans quiet
  have device : w.deviceCounters = s.deviceCounters := (congrArg State.deviceCounters arrived.rest :)
  refine
    { ports := (congrArg State.ports learned.rest :).trans arrived.ports
      timer := (congrArg State.timer learned.rest :).trans (congrArg State.timer arrived.rest :)
      engine := (congrArg State.engine learned.rest :).trans (congrArg State.engine arrived.rest :)
      egress := (congrArg State.egress learned.rest :).trans (congrArg State.egress arrived.rest :)
      buffer := (congrArg State.buffer learned.rest :).trans (congrArg State.buffer arrived.rest :)
      streams := (congrArg State.streams learned.rest :).trans (congrArg State.streams arrived.rest :)
      unlearned := fun group => by rw [learn_group group]; exact (congrArg State.addr arrived.rest :)
      books := fun i which => ?_ }
  cases group : isGroup (frameSource f) with
  | true => rw [learn_group group, device, inbox]; exact ⟨rfl, rfl⟩
  | false =>
    have apart : i.val < 21 ∨ 24 < i.val := which.resolve_left (by rw [group]; decide)
    rw [learned.device i (by omega), device, learned.reports i (by omega), inbox]
    exact ⟨rfl, rfl⟩

/-- A good frame on the best-effort path is forwarded as its targets say, once its source is learned. -/
theorem exec_frameEnd_bestEffort (good : FrameIsGood s p f start)
    (inactive : ∀ (n : StreamNo) (x : Stream), s.streams[n] = some x → x.desc.key = ⟨p, frameDest f, frameVlan f⟩ →
      x.stage ≠ .active) (ok : AddrOk s.addr.entries) :
    ∃ u, Learnt p f s u ∧
      (∀ ts, ((∃ target, Known s p f target ∧ ts = if target = p then none else some [target]) ∨
          (∀ target, ¬Known s p f target) ∧ ts = some (flood p)) →
        exec (.frameEnd p f) s =
          .next (takeReports (forwarded p start f (frameClass f s.ports[p].defaultClass) ts u))) := by
  obtain ⟨w, arrived, passes⟩ := classify_passes (start := start) inactive
  have addr : w.addr = s.addr := (congrArg State.addr arrived.rest :)
  have known (target : Port) : Known w p f target ↔ Known s p f target := by simp only [Known, addr]
  refine ⟨learn p f w, learn_learnt good.noReports arrived, fun ts which => (exec_frameEnd_good good).trans ?_⟩
  have targets : (learn p f w).targets p f = ts := by
    rcases which with ⟨target, is, rfl⟩ | ⟨none, rfl⟩
    · exact targets_known (by rw [addr]; exact ok) ((known target).2 is)
    · exact targets_flood fun target is => none target ((known target).1 is)
  have cls : w.ports[p].defaultClass = s.ports[p].defaultClass := arrived.keeps (·.defaultClass) (fun _ => rfl) p
  rw [passes, bestEffort, targets, cls]
  cases ts <;> rfl

end

end Sys2Proof.MotionLaws
end

section
/-! SUPPORT. What the targets that do not take a best-effort frame count (R136 to R138), and the frame stored for those that do. -/

namespace Sys2Proof.MotionLaws

open Sys2Proof.Machine Sys2Proof.Safety Sys2Proof.Laws Sys2Proof.CellTime Sys2Proof.PortLaws

/-! ### Figures of several targets -/

theorem sum_port (as : List Tally) (e : Port) (i : Fin 21) : (Tally.sum as).port e i = (as.map fun a => a.port e i).sum := by
  induction as with
  | nil => rfl
  | cons a as ih => rw [Tally.sum_cons, List.map_cons, List.sum_cons, ← ih]; rfl

/-- A figure that one of several distinct places alone counts. -/
theorem sum_once {α : Type} [DecidableEq α] {xs : List α} (once : xs.Nodup) (x : α) (k : α → Nat) :
    (xs.map fun y => if x = y then k y else 0).sum = if x ∈ xs then k x else 0 := by
  induction xs with
  | nil => rfl
  | cons y ys ih =>
    obtain ⟨away, once⟩ := List.nodup_cons.1 once
    rw [List.map_cons, List.sum_cons, ih once]
    by_cases here : x = y
    · subst here; simp [away]
    · simp [here]

/-- A figure counted once for each place that has it. -/
theorem sum_indicator {α : Type} (xs : List α) (b : α → Bool) : (xs.map fun x => if b x then 1 else 0).sum = xs.countP b := by
  induction xs with
  | nil => rfl
  | cons x xs ih => rw [List.map_cons, List.sum_cons, ih, List.countP_cons, Nat.add_comm]

theorem targetTally_port (down : Bool) (d e : Port) (i : Fin 21) : (targetTally down e).port d i =
    if d = e then (if i = (if down then 16 else 15) then 1 else 0) else 0 := by
  cases down <;> by_cases h : d = e <;>
    simp [targetTally, beTally, Tally.add, Tally.ofPort, Tally.ofReport, Tally.ofFlag, Tally.none, PortCounter.index, h]

theorem targetTally_reports (down : Bool) (e : Port) (i : Fin 28) : (targetTally down e).reports i =
    if i = (if down then 11 else 7) then 1 else 0 := by
  cases down <;>
    simp [targetTally, beTally, Tally.add, Tally.ofPort, Tally.ofReport, Tally.ofFlag, Tally.none] <;> rfl

/-- What targets count that do not take the frame. -/
def targetsTally (down : Port → Bool) (es : List Port) : Tally := .sum (es.map fun e => targetTally (down e) e)

theorem targetsTally_port {es : List Port} (once : es.Nodup) (down : Port → Bool) (e : Port) (i : Fin 21) :
    (targetsTally down es).port e i = if e ∈ es then (if i = (if down e then 16 else 15) then 1 else 0) else 0 := by
  rw [targetsTally, sum_port, List.map_map]
  simp only [Function.comp_def, targetTally_port]
  exact sum_once once e fun d => if i = (if down d then 16 else 15) then 1 else 0

theorem targetsTally_reports (es : List Port) (down : Port → Bool) (i : Fin 28) : (targetsTally down es).reports i =
    if i = 7 then es.countP (fun e => !down e) else if i = 11 then es.countP down else 0 := by
  rw [targetsTally, Tally.sum_reports, List.map_map]
  simp only [Function.comp_def, targetTally_reports]
  by_cases seven : i = 7
  · subst seven
    rw [if_pos rfl, ← sum_indicator]
    congr 2; funext e; cases down e <;> rfl
  · rw [if_neg seven]
    by_cases eleven : i = 11
    · subst eleven
      rw [if_pos rfl, ← sum_indicator]
      congr 2; funext e; cases down e <;> rfl
    · rw [if_neg eleven, List.sum_eq_zero]
      intro k mem
      obtain ⟨e, -, rfl⟩ := List.mem_map.1 mem
      cases down e
      · exact if_neg seven
      · exact if_neg eleven

/-! ### The frame stored -/

theorem cellsOf_eq (n : Nat) : cellsOf n = (n + 127) / 128 := by
  rw [cellsOf, ceilDiv, show n + 128 - 1 = n + 127 by omega]

theorem storeFrame_other {s : State} (pool : Pool) (refs : Nat) (p : Port) (start : Stamp) (n : Option StreamNo)
    (cls : Option ClassNo) (f : RxFrame) {i : FrameId} (other : i ≠ s.buffer.nextId) :
    (storeFrame pool refs p start n cls f s).frame i = s.frame i := by
  cases pool <;>
    simp [State.frame, storeFrame, takeCells, State.modBuffer, List.find?_append, Ne.symm other]

/-- No stored frame has the next handle. -/
theorem frame_fresh {s : State} (ok : CellsOk s.buffer) : s.frame s.buffer.nextId = none :=
  List.find?_eq_none.2 fun r mem => by
    have below := ok.fresh r mem
    simpa using Nat.ne_of_lt below

theorem since_now (s : State) : s.since s.timer.grain = 0 := by simp [State.since]

theorem Tallied.hold {s t : State} {a : Tally} (h : Tallied s t a) (e : Port) : t.ports[e].hold = s.ports[e].hold :=
  (congrArg PortUnit.hold (h.ports e).rest :)

section
variable {s u v : State} {p : Port} {f : RxFrame} {a : Tally}

theorem Learnt.otherUnit (h : Learnt p f s u) {e : Port} (other : e ≠ p) : u.ports[e] = s.ports[e] := by
  rw [h.ports, upd_other _ _ _ _ other]

/-- An egress that is not the frame's ingress sees the stored frame as one it does not hold yet. -/
theorem Learnt.sees (h : Learnt p f s u) (ok : CellsOk s.buffer) (noted : Noted u v a) {e : Port} (other : e ≠ p) (pool : Pool)
    (refs : Nat) (start : Stamp) (n : Option StreamNo) (cls : Option ClassNo) :
    Sees e s.buffer.nextId s (storeFrame pool refs p start n cls f v) := by
  have buffer : v.buffer = s.buffer := (congrArg State.buffer noted.only :).trans h.buffer
  have egress : v.egress = s.egress := (congrArg State.egress noted.only :).trans h.egress
  have streams : v.streams = s.streams := (congrArg State.streams noted.only :).trans h.streams
  have timer : v.timer = s.timer := (congrArg State.timer noted.only :).trans h.timer
  have engine : v.engine = s.engine := (congrArg State.engine noted.only :).trans h.engine
  have unit := h.otherUnit other
  have own := storeFrame_frame (s := v) (by rw [buffer]; exact ok) pool refs p start n cls f
  rw [buffer] at own
  have others (i : FrameId) (ne : i ≠ s.buffer.nextId) : (storeFrame pool refs p start n cls f v).frame i = s.frame i := by
    rw [storeFrame_other pool refs p start n cls f (by rw [buffer]; exact ne), State.frame, buffer]; rfl
  have leg (m) : (storeFrame pool refs p start n cls f v).leg m e = s.leg m e := leg_of_streams streams m e
  have slot (m) := slotOf_of_leg (leg m)
  exact
    { timer := timer
      engine := engine
      link := (Tallied.link noted.toTallied e).trans (by rw [unit])
      hold := (Tallied.hold noted.toTallied e).trans (by rw [unit])
      wire := by rw [← egress]; rfl
      openWindow := by rw [← egress]; rfl
      timeline := by rw [← egress]; rfl
      nextWindow := by rw [← egress]; rfl
      queues := fun k => .inl (by rw [← egress]; rfl)
      unready := fun r stored => by
        rw [own] at stored
        cases stored
        show v.since v.timer.grain < 120
        rw [since_now]; decide
      frames := fun i r ne stored => ⟨r, (others i ne).symm.trans stored, rfl, rfl⟩
      descs := fun m => by rw [← streams]; rfl
      legs := fun m => by rw [leg]
      slots := fun m i mem => .inr (by rw [← slot]; exact mem)
      absent := frame_fresh ok
      others := others
      appended := fun m => .inl (slot m)
      egress := by rw [← egress]; rfl
      sameSlots := slot }

end

end Sys2Proof.MotionLaws
end

section
/-! The admission of a best-effort frame to its targets (R136 to R138), and the statement on it. -/

namespace Sys2Proof.MotionLaws

open Sys2Proof.Machine Sys2Proof.Safety Sys2Proof.Laws Sys2Proof.CellTime Sys2Proof.PortLaws

/-! ### Which targets take the frame -/

def isDown (s : State) (e : Port) : Bool := s.ports[e].link == .down

/-- A target takes a frame of `n` cells: it is UP, has room within its limit, and the pool holds the frame (R136). -/
def takesFrame (s : State) (n : Nat) (e : Port) : Bool :=
  !isDown s e && decide (s.egress[e].beCount + n ≤ s.ports[e].beLimit ∧ n ≤ s.buffer.beFree)

/-- What the state `t` books beside what was learned: these reports (R153). -/
def Reported (f : RxFrame) (s t : State) (k : Fin 28 → Nat) : Prop := ∀ i : Fin 28,
  isGroup (frameSource f) = true ∨ i.val < 21 ∨ 24 < i.val → t.deviceCounters[i] = satAdd s.deviceCounters[i] (k i)

theorem Reported.congr {f : RxFrame} {s t : State} {k j : Fin 28 → Nat} (h : Reported f s t k) (same : ∀ i, k i = j i) :
    Reported f s t j := fun i which => (h i which).trans (by rw [same])

section
variable {s u : State} {p : Port} {f : RxFrame} {ts : List Port}

theorem Learnt.reported (h : Learnt p f s u) {x : State} {k : Fin 28 → Nat} (device : x.deviceCounters = u.deviceCounters)
    (reports : ∀ i, reportsOf i x.fault.inbox = reportsOf i u.fault.inbox + k i) : Reported f s (takeReports x) k := by
  intro i which
  obtain ⟨counter, none⟩ := h.books i which
  rw [takeReports_deviceCounters, device, reports, counter, none, Nat.zero_add]

theorem Learnt.linkDown (h : Learnt p f s u) {e : Port} (other : e ≠ p) : (u.ports[e].link == .down) = isDown s e := by
  rw [h.otherUnit other]; rfl

theorem Learnt.takers (h : Learnt p f s u) (away : p ∉ ts) (n : Nat) :
    (if n ≤ u.buffer.beFree then ts.filter (u.hasRoom n) else []) = ts.filter (takesFrame s n) := by
  rw [h.buffer]
  split
  · next fits =>
    refine List.filter_congr fun e mem => ?_
    have other : e ≠ p := fun same => away (same ▸ mem)
    have up : (s.ports[e].link != .down) = !isDown s e := rfl
    rw [State.hasRoom, h.egress, h.otherUnit other, takesFrame, up, Bool.decide_and, decide_eq_true fits, Bool.and_true]
  · next fits =>
    refine (List.filter_eq_nil_iff.2 fun e _ => ?_).symm
    simp [takesFrame, fits]

/-- The targets that do not take the frame count their drops. -/
theorem Learnt.targetDrops (h : Learnt p f s u) {es : List Port} (away : p ∉ es) :
    Noted u (forAll es (targetDrop p) u) (targetsTally (isDown s) es) := by
  have same : es.map (fun e => targetTally (u.ports[e].link == .down) e) =
      es.map fun e => targetTally (isDown s e) e :=
    List.map_congr_left fun e mem => by rw [h.linkDown fun same => away (same ▸ mem)]
  rw [targetsTally, ← same]
  exact forAll_targetDrop_noted p es u

/-! ### Refused everywhere (R137) -/

/-- What a frame that no target takes leaves: DOWN targets count it, and its ingress where a target is UP. -/
structure Refused (p : Port) (f : RxFrame) (ts : List Port) (s t : State) : Prop where
  buffer : t.buffer = s.buffer
  egress : t.egress = s.egress
  unlearned : isGroup (frameSource f) = true → t.addr = s.addr
  down : ∀ e ∈ ts, isDown s e = true → t.ports[e].counters[16] = satInc s.ports[e].counters[16]
  ingress : t.ports[p].counters[8] = satAdd s.ports[p].counters[8] (if ts.all (isDown s) then 0 else 1)
  reported : Reported f s t fun i =>
    if i = 7 then (if ts.all (isDown s) then 0 else 1) else if i = 11 then ts.countP (isDown s) else 0

/-- What the ingress counts where a target was UP. -/
def refusalTally (p : Port) (all : Bool) : Tally :=
  if all then .none else (ingressTally p .noBuffer).add (.ofFlag p .beDrop)

theorem refusalTally_port (p : Port) (all : Bool) (e : Port) (i : Fin 21) : (refusalTally p all).port e i =
    if e = p ∧ i = 8 then (if all then 0 else 1) else 0 := by
  cases all with
  | true => simp [refusalTally, Tally.none]
  | false =>
    simp [refusalTally, ingressTally, Tally.add, Tally.ofPort, Tally.ofReport, Tally.ofFlag, Tally.none]
    rfl

theorem refusalTally_reports (p : Port) (all : Bool) (i : Fin 28) : (refusalTally p all).reports i =
    if i = 7 then (if all then 0 else 1) else 0 := by
  cases all with
  | true => simp [refusalTally, Tally.none]
  | false =>
    simp [refusalTally, ingressTally, Tally.add, Tally.ofPort, Tally.ofReport, Tally.ofFlag, Tally.none]
    rfl

theorem down_all (ts : List Port) (down : Port → Bool) : (ts.filter down).length < ts.length ↔ ts.all down = false := by
  have total := List.length_filter_eq_length_iff (p := down) (l := ts)
  have bound := List.length_filter_le down ts
  rw [← Bool.not_eq_true, List.all_eq_true, ← total]
  omega

theorem admitFrame_refused (h : Learnt p f s u) (away : p ∉ ts) (start : Stamp) (cls : ClassNo)
    (refuse : ∀ e ∈ ts, takesFrame s ((f.bytes.length + 127) / 128) e = false) :
    Noted u (admitFrame p start f cls ts u)
      ((targetsTally (isDown s) (ts.filter (isDown s))).add (refusalTally p (ts.all (isDown s)))) := by
  have takers : ts.filter (takesFrame s ((f.bytes.length + 127) / 128)) = [] :=
    List.filter_eq_nil_iff.2 fun e mem => by simp [refuse e mem]
  have downs : ts.filter (fun e => u.ports[e].link == .down) = ts.filter (isDown s) :=
    List.filter_congr fun e mem => h.linkDown fun same => away (same ▸ mem)
  have dropped := h.targetDrops (es := ts.filter (isDown s)) fun mem => away (List.mem_of_mem_filter mem)
  have cells : cellsOf (frameLen f) = (f.bytes.length + 127) / 128 := cellsOf_eq _
  unfold admitFrame
  dsimp only
  rw [h.takers away, cells, takers, downs]
  simp only [List.isEmpty_nil, if_true, down_all]
  cases all : ts.all (isDown s) with
  | true =>
    rw [if_neg (by decide)]
    exact (Tally.add_none _).symm ▸ dropped
  | false =>
    rw [if_pos rfl]
    exact dropped.trans ((ingressDrop_noted p .noBuffer none _).trans (setFlag_noted p .beDrop _))

theorem Learnt.refused (h : Learnt p f s u) (once : ts.Nodup) (away : p ∉ ts) (start : Stamp) (cls : ClassNo)
    (refuse : ∀ e ∈ ts, takesFrame s ((f.bytes.length + 127) / 128) e = false) :
    Refused p f ts s (takeReports (admitFrame p start f cls ts u)) := by
  have noted := admitFrame_refused h away start cls refuse
  have device : (admitFrame p start f cls ts u).deviceCounters = u.deviceCounters := (congrArg State.deviceCounters noted.only :)
  have addr : (takeReports (admitFrame p start f cls ts u)).addr = u.addr :=
    (congrArg State.addr (takeReports_only _).rest :).trans (congrArg State.addr noted.only :)
  refine ⟨?_, ?_, fun group => addr.trans (h.unlearned group), fun e mem down => ?_, ?_, h.reported device fun i => ?_⟩
  · rw [takeReports_buffer]; exact (congrArg State.buffer noted.only :).trans h.buffer
  · rw [takeReports_egress]; exact (congrArg State.egress noted.only :).trans h.egress
  · have other : e ≠ p := fun same => away (same ▸ mem)
    rw [takeReports_ports]
    refine ((noted.ports e).counters 16).trans ?_
    have one : ((targetsTally (isDown s) (ts.filter (isDown s))).add (refusalTally p (ts.all (isDown s)))).port e 16 = 1 := by
      show (targetsTally _ _).port e 16 + (refusalTally p _).port e 16 = 1
      rw [targetsTally_port (once.filter _), if_pos (List.mem_filter.2 ⟨mem, down⟩), down, refusalTally_port]
      simp [other]
    rw [one, satAdd_one, h.otherUnit other]; rfl
  · rw [takeReports_ports]
    refine ((noted.ports p).counters 8).trans ?_
    have figure : ((targetsTally (isDown s) (ts.filter (isDown s))).add (refusalTally p (ts.all (isDown s)))).port p 8 =
        if ts.all (isDown s) then 0 else 1 := by
      show (targetsTally _ _).port p 8 + (refusalTally p _).port p 8 = _
      rw [targetsTally_port (once.filter _), if_neg fun mem => away (List.mem_of_mem_filter mem), refusalTally_port,
        if_pos ⟨rfl, rfl⟩, Nat.zero_add]
    have kept : u.ports[p].counters[(8 : Fin 21)] = s.ports[p].counters[(8 : Fin 21)] := by
      rw [h.ports, upd_get, if_pos rfl]
      exact upd_other _ _ _ _ (by decide)
    rw [figure, kept]; rfl
  · rw [noted.reports]
    congr 1
    show (targetsTally _ _).reports i + (refusalTally p _).reports i = _
    rw [targetsTally_reports, refusalTally_reports]
    have up : (ts.filter (isDown s)).countP (fun e => !isDown s e) = 0 := by
      rw [List.countP_eq_zero]
      intro e mem
      simp [(List.mem_filter.1 mem).2]
    have downs : (ts.filter (isDown s)).countP (isDown s) = ts.countP (isDown s) := by
      rw [List.countP_filter]; simp
    rw [up, downs]
    by_cases seven : i = 7
    · simp only [if_pos seven, Nat.zero_add]
    · simp only [if_neg seven, Nat.add_zero]

/-! ### Stored for those that take it (R136, R137) -/

/-- The best-effort frame as it is stored. -/
def storedFrame (s : State) (p : Port) (start : Stamp) (f : RxFrame) (cls : ClassNo) (refs : Nat) : FrameRecord :=
  { id := s.buffer.nextId, pool := .bestEffort, cells := (f.bytes.length + 127) / 128, refs := refs, len := f.bytes.length
    ingress := p, ingressStart := start, received := s.timer.grain, stream := none, cls := some cls, orphan := false
    bytes := f.bytes }

/-- What a frame that targets take leaves: it is stored with a reference for each of them, which it joins; the others count it. -/
structure Admitted (p : Port) (start : Stamp) (f : RxFrame) (cls : ClassNo) (ts : List Port) (takes : Port → Bool) (s t : State) :
    Prop where
  stored : t.frame s.buffer.nextId = some (storedFrame s p start f cls (ts.countP takes))
  beFree : t.buffer.beFree = s.buffer.beFree - (f.bytes.length + 127) / 128
  motionFree : t.buffer.motionFree = s.buffer.motionFree
  joined : ∀ e ∈ ts, takes e = true → JoinedAt s e cls ((f.bytes.length + 127) / 128) s.buffer.nextId t
  left : ∀ e, (e ∈ ts → takes e = false) → t.egress[e] = s.egress[e]
  down : ∀ e ∈ ts, takes e = false → isDown s e = true → t.ports[e].counters[16] = satInc s.ports[e].counters[16]
  full : ∀ e ∈ ts, takes e = false → isDown s e = false → t.ports[e].counters[15] = satInc s.ports[e].counters[15]
  unlearned : isGroup (frameSource f) = true → t.addr = s.addr
  reported : Reported f s t fun i =>
    if i = 7 then ts.countP (fun e => !takes e && !isDown s e) else if i = 11 then ts.countP (isDown s) else 0

theorem JoinedAt.congr {s t v : State} {e : Port} {cls : ClassNo} {n : Nat} {id : FrameId} (h : JoinedAt s e cls n id t)
    (egress : v.egress = t.egress) (streams : v.streams = t.streams) : JoinedAt s e cls n id v := by
  have slot (m) : v.slotOf m e = t.slotOf m e := slotOf_congr streams m e
  exact ⟨by rw [egress]; exact h.count, fun settled => by rw [egress]; exact h.settled settled,
    fun c r rest v hold start => by rw [egress]; exact h.bestEffort c r rest v hold start,
    fun o x l r rest v hold start => by rw [egress, slot]; exact h.motion o x l r rest v hold start⟩

/-- The state in which the targets that take the frame join it. -/
def storedState (p : Port) (start : Stamp) (f : RxFrame) (cls : ClassNo) (ts : List Port) (takes : Port → Bool) (u : State) :
    State :=
  storeFrame .bestEffort (ts.countP takes) p start none (some cls) f (forAll (ts.filter fun e => !takes e) (targetDrop p) u)

theorem admitFrame_stored (h : Learnt p f s u) (away : p ∉ ts) (start : Stamp) (cls : ClassNo) {takes : Port → Bool}
    (taker : takes = takesFrame s ((f.bytes.length + 127) / 128)) (some_ : ∃ e ∈ ts, takes e = true) :
    admitFrame p start f cls ts u =
      forAll (ts.filter takes) (joinClass cls ((f.bytes.length + 127) / 128) s.buffer.nextId)
        (storedState p start f cls ts takes u) := by
  have cells : cellsOf (frameLen f) = (f.bytes.length + 127) / 128 := cellsOf_eq _
  have left : ts.filter (fun e => !(ts.filter takes).contains e) = ts.filter fun e => !takes e :=
    List.filter_congr fun e mem => by simp [List.contains_eq_mem, List.mem_filter, mem]
  have nonempty : (ts.filter takes).isEmpty = false := by
    obtain ⟨e, mem, takes_⟩ := some_
    rw [List.isEmpty_eq_false_iff]
    exact List.ne_nil_of_mem (List.mem_filter.2 ⟨mem, takes_⟩)
  unfold admitFrame
  dsimp only
  rw [h.takers away, cells, ← taker, nonempty, left, h.buffer, storedState, List.countP_eq_length_filter]
  exact if_neg (by decide)

theorem Learnt.admitted (h : Learnt p f s u) (ok : CellsOk s.buffer) (once : ts.Nodup) (away : p ∉ ts) (start : Stamp)
    (cls : ClassNo) {takes : Port → Bool} (taker : takes = takesFrame s ((f.bytes.length + 127) / 128))
    (some_ : ∃ e ∈ ts, takes e = true) (noDrop : ∀ e ∈ ts, takes e = true → NoDrop s e) :
    Admitted p start f cls ts takes s (takeReports (admitFrame p start f cls ts u)) := by
  have left : p ∉ ts.filter fun e => !takes e := fun mem => away (List.mem_of_mem_filter mem)
  have noted := h.targetDrops left
  have sees (e) (mem : e ∈ ts.filter takes) : Sees e s.buffer.nextId s (storedState p start f cls ts takes u) :=
    h.sees ok noted (fun same => away (same ▸ List.mem_of_mem_filter mem)) .bestEffort _ start none (some cls)
  obtain ⟨joins, joined⟩ := forAll_joined cls ((f.bytes.length + 127) / 128) (once.filter takes) sees fun e mem =>
    noDrop e (List.mem_of_mem_filter mem) (List.mem_filter.1 mem).2
  rw [admitFrame_stored h away start cls taker some_]
  generalize forAll (ts.filter takes) (joinClass cls ((f.bytes.length + 127) / 128) s.buffer.nextId)
    (storedState p start f cls ts takes u) = x at joins joined ⊢
  generalize drops : forAll (ts.filter fun e => !takes e) (targetDrop p) u = v at noted
  have state : storedState p start f cls ts takes u = storeFrame .bestEffort (ts.countP takes) p start none (some cls) f v := by
    rw [storedState, drops]
  rw [state] at joins
  have buffer : v.buffer = s.buffer := (congrArg State.buffer noted.only :).trans h.buffer
  have timer : v.timer = s.timer := (congrArg State.timer noted.only :).trans h.timer
  have egress : v.egress = s.egress := (congrArg State.egress noted.only :).trans h.egress
  have device : x.deviceCounters = u.deviceCounters :=
    (congrArg State.deviceCounters joins.rest :).trans (congrArg State.deviceCounters noted.only :)
  have addr : (takeReports x).addr = u.addr :=
    (congrArg State.addr (takeReports_only x).rest :).trans
      ((congrArg State.addr joins.rest :).trans (congrArg State.addr noted.only :))
  have counter {e : Port} (mem : e ∈ ts) (refuses : takes e = false) (i : Fin 21)
      (which : i = if isDown s e then 16 else 15) : x.ports[e].counters[i] = satInc s.ports[e].counters[i] := by
    have other : e ≠ p := fun same => away (same ▸ mem)
    have unit := (joins.others e fun k => by rw [(List.mem_filter.1 k).2] at refuses; cases refuses).1
    rw [unit]
    refine ((noted.ports e).counters i).trans ?_
    rw [targetsTally_port (once.filter _), if_pos (List.mem_filter.2 ⟨mem, by simp [refuses]⟩), if_pos which, satAdd_one,
      h.otherUnit other]
  refine ⟨?_, ?_, ?_, fun e mem takes_ => ?_, fun e refuses => ?_, fun e mem refuses down => ?_, fun e mem refuses up => ?_,
    fun group => addr.trans (h.unlearned group), h.reported device fun i => ?_⟩
  · have own := storeFrame_frame (s := v) (by rw [buffer]; exact ok) .bestEffort (ts.countP takes) p start none (some cls) f
    rw [State.frame, takeReports_buffer, joins.buffer, ← buffer]
    refine own.trans ?_
    rw [buffer, timer, cellsOf_eq]
    rfl
  · rw [takeReports_buffer, joins.buffer, ← buffer]
    exact congrArg (v.buffer.beFree - ·) (cellsOf_eq _)
  · rw [takeReports_buffer, joins.buffer, ← buffer]; rfl
  · exact (joined e (List.mem_filter.2 ⟨mem, takes_⟩)).congr (takeReports_egress x) (takeReports_streams x)
  · have away' : e ∉ ts.filter takes := fun k => by
      obtain ⟨mem, takes_⟩ := List.mem_filter.1 k
      rw [refuses mem] at takes_
      cases takes_
    rw [takeReports_egress, (joins.others e away').2, ← egress]
    rfl
  · rw [takeReports_ports]; exact counter mem refuses 16 (by rw [down]; rfl)
  · rw [takeReports_ports]; exact counter mem refuses 15 (by rw [up]; rfl)
  · rw [joins.fault]
    refine (noted.reports i).trans ?_
    congr 1
    rw [targetsTally_reports, List.countP_filter, List.countP_filter]
    have downs : ts.countP (fun e => isDown s e && !takes e) = ts.countP (isDown s) :=
      List.countP_congr fun e _ => by
        cases down : isDown s e <;> simp [taker, takesFrame, down]
    simp only [downs, Bool.and_comm (!takes _)]

end

/-! ### The event (R129, R136 to R138) -/

section
variable {s : State} {p : Port} {f : RxFrame} {start : Stamp}

/-- A frame for its own port is dropped (R129). -/
theorem Learnt.samePort {u : State} (h : Learnt p f s u) :
    (takeReports (samePortDrop p u)).buffer = s.buffer ∧ (takeReports (samePortDrop p u)).egress = s.egress ∧
      (takeReports (samePortDrop p u)).ports[p].counters[9] = satInc s.ports[p].counters[9] ∧
      Reported f s (takeReports (samePortDrop p u)) fun i => if i = 16 then 1 else 0 := by
  have noted := samePortDrop_noted p u
  refine ⟨?_, ?_, ?_, h.reported rfl fun i => (noted.reports i).trans ?_⟩
  · rw [takeReports_buffer]; exact h.buffer
  · rw [takeReports_egress]; exact h.egress
  · rw [takeReports_ports]
    refine ((noted.ports p).counters 9).trans ?_
    have kept : u.ports[p].counters[(9 : Fin 21)] = s.ports[p].counters[(9 : Fin 21)] := by
      rw [h.ports, upd_get, if_pos rfl]
      exact upd_other _ _ _ _ (by decide)
    have one : (samePortTally p).port p 9 = 1 := by
      simp [samePortTally, Tally.add, Tally.ofPort, Tally.ofReport, Tally.ofFlag, Tally.none, PortCounter.index]
    rw [one, satAdd_one, kept]; rfl
  · congr 1
    simp [samePortTally, Tally.add, Tally.ofPort, Tally.ofReport, Tally.ofFlag, Tally.none]
    rfl

theorem flood_once (p : Port) : (flood p).Nodup := (show ([0, 1, 2, 3, 4, 5, 6, 7] : List Port).Nodup by decide).filter _

theorem flood_away (p : Port) : p ∉ flood p := fun mem => by simpa using (List.mem_filter.1 mem).2

theorem takesFrame_iff {n : Nat} {e : Port} : takesFrame s n e = true ↔
    s.ports[e].link ≠ .down ∧ s.egress[e].beCount + n ≤ s.ports[e].beLimit ∧ n ≤ s.buffer.beFree := by
  simp [takesFrame, isDown, -Fin.getElem_fin]

theorem isDown_iff {e : Port} : isDown s e = true ↔ s.ports[e].link = .down := by simp [isDown, -Fin.getElem_fin]

/-- Settles O30: the source is learned, the targets are looked up, and the frame is dropped, stored or refused for them. -/
theorem bestEffortFramesGoToTheirTargets : Obligations.BestEffortFramesGoToTheirTargets := by
  unfold Obligations.BestEffortFramesGoToTheirTargets
  intro s p f start good ok cells inactive group n cls stored known starts joined noDrop reported unlearned
  obtain ⟨u, learnt, run⟩ := exec_frameEnd_bestEffort good inactive ok
  refine ⟨fun target is => ⟨fun same => ?_, fun other down => ?_, fun other up full => ?_, fun other up limit free starts => ?_⟩,
    fun unknown => ?_⟩
  · exact ⟨_, run _ (.inl ⟨target, is, (if_pos same).symm⟩), learnt.samePort⟩
  · have refused := learnt.refused (ts := [target]) (List.nodup_singleton _) (by simpa using Ne.symm other) start cls
      fun e mem => by
        rw [List.mem_singleton.1 mem, ← Bool.not_eq_true, takesFrame_iff]; exact fun k => k.1 down
    have gone := isDown_iff.2 down
    refine ⟨_, run _ (.inl ⟨target, is, (if_neg other).symm⟩), refused.buffer, refused.egress,
      refused.down target (List.mem_singleton_self _) gone, refused.reported.congr fun i => ?_⟩
    by_cases seven : i = 7 <;> simp [gone, seven]
  · have stays : isDown s target = false := by rw [← Bool.not_eq_true, isDown_iff]; exact up
    have refused := learnt.refused (ts := [target]) (List.nodup_singleton _) (by simpa using Ne.symm other) start cls
      fun e mem => by
        rw [List.mem_singleton.1 mem, ← Bool.not_eq_true, takesFrame_iff]
        rintro ⟨-, room, pool⟩
        exact full.elim (Nat.not_lt.2 room) (Nat.not_lt.2 pool)
    refine ⟨_, run _ (.inl ⟨target, is, (if_neg other).symm⟩), refused.buffer, refused.egress, ?_,
      refused.reported.congr fun i => ?_⟩
    · refine refused.ingress.trans ?_
      rw [List.all_cons, stays]; rfl
    · simp [stays]
  · have takes : takesFrame s n target = true := takesFrame_iff.2 ⟨up, limit, free⟩
    have stays : isDown s target = false := by rw [← Bool.not_eq_true, isDown_iff]; exact up
    have admitted := learnt.admitted (ts := [target]) cells (List.nodup_singleton _) (by simpa using Ne.symm other) start cls rfl
      ⟨target, List.mem_singleton_self _, takes⟩ fun e mem _ => by rw [List.mem_singleton.1 mem]; exact starts
    refine ⟨_, run _ (.inl ⟨target, is, (if_neg other).symm⟩), ?_, admitted.beFree, admitted.motionFree, ?_, fun e ne => ?_,
      admitted.unlearned, admitted.reported.congr fun i => ?_⟩
    · have frame := admitted.stored
      rw [List.countP_singleton, if_pos takes] at frame
      exact frame
    · have join := admitted.joined target (List.mem_singleton_self _) takes
      exact ⟨join.count, join.settled, join.bestEffort, join.motion⟩
    · exact admitted.left e fun mem => absurd (List.mem_singleton.1 mem) ne
    · rw [List.countP_singleton, List.countP_singleton, takes, stays]
      simp
  · intro others down takes counted
    have taker : takes = takesFrame s n := rfl
    refine ⟨fun some_ may => ?_, fun none => ?_⟩
    · have admitted := learnt.admitted cells (flood_once p) (flood_away p) start cls taker some_ may
      refine ⟨_, run _ (.inr ⟨unknown, rfl⟩), admitted.stored, admitted.beFree, admitted.motionFree, fun e mem =>
        ⟨fun takes_ => ?_, fun refuses => ⟨admitted.down e mem refuses, admitted.left e fun _ => refuses⟩,
          admitted.full e mem⟩, admitted.left p fun mem => absurd mem (flood_away p), admitted.unlearned, admitted.reported⟩
      have join := admitted.joined e mem takes_
      exact ⟨join.count, join.settled, join.bestEffort, join.motion⟩
    · have refused := learnt.refused (flood_once p) (flood_away p) start cls none
      exact ⟨_, run _ (.inr ⟨unknown, rfl⟩), refused.buffer, refused.unlearned, refused.egress,
        fun e mem => ⟨refused.down e mem, congrArg (fun v : Table Egress 8 => v[e]) refused.egress⟩, refused.ingress, refused.reported⟩

end

end Sys2Proof.MotionLaws
end

section
/-! SUPPORT. The tries of an open, unreleased primary window (R103, R104): the head of the slot starts, is dropped STALE or LATE, or
waits; and what a drop leaves. -/

namespace Sys2Proof.MotionLaws

open Sys2Proof.Machine Sys2Proof.Safety Sys2Proof.Laws Sys2Proof.CellTime Sys2Proof.PortLaws

/-! ### The try of a head -/

section
variable {s : State} {g : Nat} {o : OpenWindow} {d : Desc} {slot rest : List FrameId} {r : FrameRecord}

/-- With no frame in the slot nothing is tried. -/
theorem tryHead_empty : s.tryHead g o d [] = .nothing := rfl

/-- A frame that is not ready waits (R103). -/
theorem tryHead_unready (stored : s.frame r.id = some r) (soon : s.since r.received < 120) :
    s.tryHead g o d (r.id :: rest) = .nothing := by
  have ready : s.ready r.id = false := (ready_stored stored).trans (decide_eq_false (Nat.not_le.2 soon))
  simp only [State.tryHead, List.head?_cons, Option.bind_some, stored, ready, Bool.and_false, Bool.not_false, if_true]

/-- A ready frame, in an open window with room, is tried for being stale and then late. -/
theorem tryHead_ready (stored : s.frame r.id = some r) (ready : 120 ≤ s.since r.received) (room : o.sent < d.k)
    (within : s.phase < o.window.stop) : s.tryHead g o d (r.id :: rest) =
      if d.bound < s.since r.ingressStart then .drop .stale r.id
      else if o.window.stop - s.phase < wireTime r.len g then .drop .late r.id else .start r := by
  have ready' : s.ready r.id = true := (ready_stored stored).trans (decide_eq_true ready)
  simp only [State.tryHead, List.head?_cons, Option.bind_some, stored, ready', room, within, decide_true, Bool.and_true,
    Bool.not_true, Bool.false_eq_true, if_false]

/-- In an open, unreleased primary window the head of the slot is tried. -/
theorem chooseAgain_primary {e : Port} {x : Stream} {l : Leg} (fuel : Nat) (opened : s.egress[e].openWindow = some o)
    (primary : o.window.kind = .primary) (unreleased : o.released = false) (stream : s.streams[o.window.stream] = some x)
    (leg : s.leg o.window.stream e = some l) :
    chooseAgain e g (fuel + 1) s = afterTry e g fuel o x.desc s (s.tryHead g o x.desc l.slot) := by
  rw [chooseAgain]
  simp only [opened, unreleased, primary, stream, leg, Bool.false_eq_true, if_false]
  cases s.tryHead g o x.desc l.slot <;> rfl

/-- The choice whose first try drops the head goes on behind it (R104, R112). -/
theorem choose_drop {e : Port} {v : Speed} {x : Stream} {l : Leg} {cause : Cause} {id : FrameId}
    (up : s.ports[e].link = .up v) (idle : s.egress[e].wire = none) (free : s.ports[e].hold = false)
    (opened : s.egress[e].openWindow = some o) (primary : o.window.kind = .primary) (unreleased : o.released = false)
    (stream : s.streams[o.window.stream] = some x) (leg : s.leg o.window.stream e = some l)
    (tried : s.tryHead v.factor o x.desc l.slot = .drop cause id) :
    ∃ fuel, choose e s = chooseAgain e v.factor (fuel + 1) (dropHead cause o.window.stream e id s) := by
  have attempts : s.attempts e = l.slot.length + o.copies.length + 1 + 1 := by
    rw [State.attempts, opened]
    dsimp only
    rw [leg]; rfl
  refine ⟨l.slot.length + o.copies.length, ?_⟩
  rw [choose_up up idle free, attempts, chooseAgain_primary _ opened primary unreleased stream leg, tried, afterTry]

end

/-- A frame that fails its try is dropped with the cause that its leg counter and device total name (R49, R104, R152). -/
theorem fails_tried {s c : State} {w : Window} {x : Stream} {a : FrameRecord} {v : Speed} {k : Fin 13} {d : Fin 28} {o : OpenWindow}
    {rest : List FrameId} (fails : Fails s w x a v k d) (window : o.window = w) (timer : c.timer = s.timer)
    (stored : c.frame a.id = some a) (room : o.sent < x.desc.k) (within : s.phase < w.stop) :
    ∃ cause counter, c.tryHead v.factor o x.desc (a.id :: rest) = .drop cause a.id ∧ cause.legCounter = some counter ∧
      counter.index = k ∧ (DeviceCounter.total cause).index = d := by
  obtain ⟨-, ready, why⟩ := fails
  have since (i : Stamp) : c.since i = s.since i := by rw [State.since, timer]; rfl
  have phase : c.phase = s.phase := by rw [State.phase, timer]; rfl
  have tried := tryHead_ready (g := v.factor) (rest := rest) stored (by rw [since]; exact ready) room
    (by rw [phase, window]; exact within)
  rw [since, phase, window] at tried
  rcases why with ⟨stale, rfl, rfl⟩ | ⟨fresh, late, rfl, rfl⟩
  · exact ⟨.stale, .stale, by rw [tried, if_pos stale], rfl, rfl, rfl⟩
  · exact ⟨.late, .late, by rw [tried, if_neg (Nat.not_lt.2 fresh)]; exact if_pos late, rfl, rfl, rfl⟩

/-! ### What a dropped head leaves (R49, R121, R124) -/

/-- A leg whose slot lost its head. -/
def headGone (l : Leg) : Leg := { l with slot := l.slot.tail }

/-- Between two states the head `id` of a leg's slot was dropped, with this leg counter and device total. -/
structure HeadDropped (n : StreamNo) (e : Port) (id : FrameId) (k : Fin 13) (total : Fin 28) (s t : State) : Prop where
  rest : { t with
    ports := s.ports, streams := s.streams, legCounters := s.legCounters, buffer := s.buffer, fault := s.fault } = s
  ports : t.ports = Table.upd s.ports e (flagging .motionDrop)
  leg : ∀ m p, t.leg m p = if m = n ∧ p = e then (s.leg n e).map headGone else s.leg m p
  descs : ∀ m : StreamNo, t.streams[m].map (·.desc) = s.streams[m].map (·.desc)
  legCounters : t.legCounters = Table.upd s.legCounters (legIndex n e) fun c => Table.upd c k satInc
  inbox : ∃ r : Report, (DeviceCounter.total r.fields.cause).index = total ∧ t.fault.inbox = s.fault.inbox ++ [r]
  returned : Returned s t [id] fun _ => false

theorem dropHead_dropped {cause : Cause} {counter : LegCounter} (h : cause.legCounter = some counter) (n : StreamNo) (e : Port)
    (id : FrameId) (s : State) :
    HeadDropped n e id counter.index (DeviceCounter.total cause).index s (dropHead cause n e id s) := by
  have run : dropHead cause n e id s = returnRef id (setFlag e .motionDrop (report cause (.egress e) (some n)
      (bumpLeg n e counter (s.modLeg n e headGone)))) := by
    rw [dropHead, legDrop, h]; rfl
  rw [run]
  generalize flagged : setFlag e .motionDrop (report cause (.egress e) (some n) (bumpLeg n e counter (s.modLeg n e headGone))) = u
  have rest := returnRef_rest id u
  have ports : (returnRef id u).ports = u.ports := (congrArg State.ports rest :)
  have counters : (returnRef id u).legCounters = u.legCounters := (congrArg State.legCounters rest :)
  have fault : (returnRef id u).fault = u.fault := (congrArg State.fault rest :)
  have bare (m) := returnRef_bare id u m
  have leg (m p) : u.leg m p = if m = n ∧ p = e then (s.leg n e).map headGone else s.leg m p := by
    rw [← flagged]; exact modLeg_leg (f := headGone) (fun _ => rfl) n e s m p
  have buffer : u.buffer = s.buffer := by rw [← flagged]; rfl
  have returned := returnRef_returned id u
  let record := (bumpLeg n e counter (s.modLeg n e headGone)).stamped cause (.egress e) (some n)
  refine ⟨?_, ?_, fun m p => ?_, fun m => ?_, ?_, ⟨⟨record, none, none, false⟩, rfl, ?_⟩, ?_⟩
  · refine (congrArg (fun x : State => { x with
      ports := s.ports, streams := s.streams, legCounters := s.legCounters, buffer := s.buffer, fault := s.fault }) rest :).trans ?_
    rw [← flagged]; rfl
  · rw [ports, ← flagged]; rfl
  · rw [leg_congr (bare m), leg]
  · have desc : (returnRef id u).streams[m].map (·.desc) = u.streams[m].map (·.desc) :=
      desc_of_settled (settled_of_bare bare m)
    rw [desc, ← flagged]
    exact desc_of_settled (modLeg_settled (f := headGone) (fun _ => rfl) s m)
  · rw [counters, ← flagged]; rfl
  · rw [fault, ← flagged]; rfl
  · have frame (i) : u.frame i = s.frame i := by rw [State.frame, buffer]; rfl
    exact ⟨buffer ▸ returned.handles, fun i none => returned.absent i ((frame i).trans none),
      fun i r stored => returned.frames i r ((frame i).trans stored), buffer ▸ returned.cells⟩

section
variable {n : StreamNo} {e : Port} {id : FrameId} {k : Fin 13} {total : Fin 28} {s t : State}

theorem HeadDropped.timer (h : HeadDropped n e id k total s t) : t.timer = s.timer := (congrArg State.timer h.rest :)
theorem HeadDropped.egress (h : HeadDropped n e id k total s t) : t.egress = s.egress := (congrArg State.egress h.rest :)

theorem HeadDropped.unit (h : HeadDropped n e id k total s t) : t.ports[e] = flagging .motionDrop s.ports[e] := by
  rw [h.ports, upd_get, if_pos rfl]

/-- The head's own frame has one reference fewer, or is gone (R124). -/
theorem HeadDropped.head (h : HeadDropped n e id k total s t) {a : FrameRecord} (stored : s.frame id = some a) :
    t.frame id = if a.refs ≤ 1 then none else some { a with refs := a.refs - 1 } := by
  have frame := h.returned.frames id a stored
  have same : a.stream.any (fun _ => false) = false := by cases a.stream <;> rfl
  simpa [same] using frame

theorem HeadDropped.other (h : HeadDropped n e id k total s t) {r : FrameRecord} (other : r.id ≠ id)
    (stored : s.frame r.id = some r) : t.frame r.id = some r := by
  have frame := h.returned.frames r.id r stored
  have same : r.stream.any (fun _ => false) = false := by cases r.stream <;> rfl
  simpa [same, other.symm, List.count_singleton] using frame

/-- The stream of the leg, and the leg, after the drop. -/
theorem HeadDropped.stream (h : HeadDropped n e id k total s t) {x : Stream} {l : Leg} (stream : s.streams[n] = some x)
    (leg : s.leg n e = some l) :
    ∃ y, t.streams[n] = some y ∧ y.desc = x.desc ∧ t.leg n e = some (headGone l) := by
  have desc := h.descs n
  rw [stream] at desc
  obtain ⟨y, hy, same⟩ := Option.map_eq_some_iff.1 desc
  refine ⟨y, hy, same, ?_⟩
  rw [h.leg, if_pos ⟨rfl, rfl⟩, leg]; rfl

end

end Sys2Proof.MotionLaws
end

section
/-! SUPPORT. What a choice leaves of the open window and the pass (R100, R112), and all that the start of a motion frame does (R105,
R106, R166). -/

namespace Sys2Proof.MotionLaws

open Sys2Proof.Machine Sys2Proof.Safety Sys2Proof.Laws Sys2Proof.CellTime Sys2Proof.PortLaws

/-! ### The window through a choice -/

/-- Between two states the pass of the egress stands, and an open window stays open: the same, released for its whole length or
not, and not released less. -/
structure WindowKept (e : Port) (s t : State) : Prop where
  timeline : t.egress[e].timeline = s.egress[e].timeline
  nextWindow : t.egress[e].nextWindow = s.egress[e].nextWindow
  opened : ∀ o, s.egress[e].openWindow = some o → ∃ o', t.egress[e].openWindow = some o' ∧ o'.window = o.window ∧
    o'.openedFree = o.openedFree ∧ (o.released = true → o'.released = true)

theorem WindowKept.of_egress {e : Port} {s t : State} (h : t.egress[e] = s.egress[e]) : WindowKept e s t :=
  ⟨by rw [h], by rw [h], fun o opened => ⟨o, by rw [h]; exact opened, rfl, rfl, id⟩⟩

theorem WindowKept.trans {e : Port} {s t u : State} (h : WindowKept e s t) (k : WindowKept e t u) : WindowKept e s u where
  timeline := k.timeline.trans h.timeline
  nextWindow := k.nextWindow.trans h.nextWindow
  opened o opened := by
    obtain ⟨a, ha, window, free, released⟩ := h.opened o opened
    obtain ⟨b, hb, window', free', released'⟩ := k.opened a ha
    exact ⟨b, hb, window'.trans window, free'.trans free, fun was => released' (released was)⟩

theorem chooseBestEffort_window (e : Port) (g : Nat) (cs : List ClassNo) (s : State) :
    WindowKept e s (chooseBestEffort e g cs s) := by
  induction cs with
  | nil => exact .of_egress rfl
  | cons c cs ih =>
    rw [chooseBestEffort]
    cases s.headStarts e g c with
    | none => exact ih
    | some id =>
      have egress := startBestEffort_egress e c id s
      exact ⟨by rw [egress], by rw [egress], fun o opened => ⟨o, by rw [egress]; exact opened, rfl, rfl, fun was => was⟩⟩

/-- The open window is replaced by one like it. -/
theorem setWindow_window {e : Port} {o o' : OpenWindow} {s t : State} (opened : s.egress[e].openWindow = some o)
    (timeline : t.egress[e].timeline = s.egress[e].timeline) (nextWindow : t.egress[e].nextWindow = s.egress[e].nextWindow)
    (replaced : t.egress[e].openWindow = some o') (window : o'.window = o.window) (free : o'.openedFree = o.openedFree)
    (unreleased : o.released = false) : WindowKept e s t :=
  ⟨timeline, nextWindow, fun a ha => by
    rw [opened] at ha
    cases ha
    exact ⟨o', replaced, window, free, fun was => by rw [unreleased] at was; cases was⟩⟩

theorem dropHead_window (cause : Cause) (n : StreamNo) (e : Port) (id : FrameId) (s : State) :
    WindowKept e s (dropHead cause n e id s) :=
  .of_egress (by rw [dropHead, returnRef_egress, legDrop_egress]; rfl)

theorem chooseAgain_window (e : Port) (g fuel : Nat) (s : State) : WindowKept e s (chooseAgain e g fuel s) := by
  induction fuel generalizing s with
  | zero => exact .of_egress rfl
  | succ fuel ih =>
    have replaced (o o' : OpenWindow) (opened : s.egress[e].openWindow = some o) (unreleased : ¬o.released = true)
        (window : o'.window = o.window) (free : o'.openedFree = o.openedFree) :
        WindowKept e s (s.modEgress e fun x => { x with openWindow := some o' }) := by
      have egress : (s.modEgress e fun x => { x with openWindow := some o' }).egress[e] =
          { s.egress[e] with openWindow := some o' } := (upd_get ..).trans (if_pos rfl)
      exact setWindow_window opened (by rw [egress]) (by rw [egress]) (by rw [egress]) window free (Bool.eq_false_iff.2 unreleased)
    unfold chooseAgain
    split
    · exact chooseBestEffort_window ..
    · next o opened =>
      split
      · exact chooseBestEffort_window ..
      · next unreleased =>
        split
        · split
          · split
            · exact .of_egress rfl
            · exact (dropHead_window ..).trans (ih _)
            · next x _ _ _ _ r _ =>
              have egress := (startMotion_started e g o x.desc r s).egress
              exact setWindow_window (o' := { o with sent := o.sent + 1, released := decide (x.desc.k ≤ o.sent + 1) }) opened
                (by rw [egress]) (by rw [egress]) (by rw [egress]) rfl rfl (Bool.eq_false_iff.2 unreleased)
          · exact .of_egress rfl
        · split
          · exact (replaced o { o with released := true } opened unreleased rfl rfl).trans (ih _)
          · next id rest _ =>
            split
            · have egress : (startCopy e o id rest s).egress[e] = { s.egress[e] with
                  wire := some ⟨id, s.timer.grain, .copy o.window.stream⟩
                  openWindow := some { o with copies := rest, released := rest.isEmpty } } := (upd_get ..).trans (if_pos rfl)
              exact setWindow_window (o' := { o with copies := rest, released := rest.isEmpty }) opened
                (by rw [egress]) (by rw [egress]) (by rw [egress]) rfl rfl (Bool.eq_false_iff.2 unreleased)
            · exact (replaced o { o with copies := rest, released := rest.isEmpty } opened unreleased rfl rfl).trans (ih _)

theorem choose_window (e : Port) (s : State) : WindowKept e s (choose e s) := by
  unfold choose
  split
  · exact .of_egress rfl
  · split
    · exact .of_egress rfl
    · exact chooseAgain_window ..

/-! ### The probes at a frame start (R166) -/

/-- What a probe holds after a frame start on a stream and egress. -/
def captured (n : StreamNo) (e : Port) (cycle : CycleNo) (c : Capture) (x : Probe) : Probe :=
  match x with
  | .armed z => if z.stream = n ∧ z.egress = e then .captured z cycle c else x
  | _ => x

theorem probeCaptures_probes (n : StreamNo) (e : Port) (c : Capture) (q : Fin 4) (s : State) :
    (probeCaptures n e c q s).probes = Table.upd s.probes q (captured n e s.timer.cycle c) := by
  unfold probeCaptures
  cases h : s.probes[q] with
  | armed z =>
    dsimp only
    split
    · next own =>
      have set : captured n e s.timer.cycle c s.probes[q] = .captured z s.timer.cycle c := by rw [h, captured, if_pos own]
      show Table.upd s.probes q (fun _ => Probe.captured z s.timer.cycle c) = _
      rw [Table.upd, Table.upd, set]
    · next other =>
      exact (upd_id (by rw [h, captured, if_neg other])).symm
  | _ => exact (upd_id (by rw [h]; rfl)).symm

theorem probeCaptures_timer (n : StreamNo) (e : Port) (c : Capture) (q : Fin 4) (s : State) :
    (probeCaptures n e c q s).timer = s.timer := by
  unfold probeCaptures
  split
  · split <;> rfl
  · rfl

theorem captured_twice (n : StreamNo) (e : Port) (cycle : CycleNo) (c : Capture) (x : Probe) :
    captured n e cycle c (captured n e cycle c x) = captured n e cycle c x := by
  cases x with
  | armed z => by_cases own : z.stream = n ∧ z.egress = e <;> simp [captured, own]
  | _ => rfl

theorem mem_allProbes (q : Fin 4) : q ∈ allProbes := by revert q; decide

/-- Every probe that watches the start captures it, and no other changes. -/
theorem probeStart_probes (n : StreamNo) (e : Port) (r : FrameRecord) (w : Window) (g : Nat) (s : State) (q : Fin 4) :
    (probeStart n e r w g s).probes[q] = captured n e s.timer.cycle (captureOf s e r w g) s.probes[q] := by
  have loop (c : Capture) (qs : List (Fin 4)) (t : State) : (forAll qs (probeCaptures n e c) t).probes[q] =
      if q ∈ qs then captured n e t.timer.cycle c t.probes[q] else t.probes[q] := by
    induction qs generalizing t with
    | nil => rfl
    | cons j qs ih =>
      refine (ih (probeCaptures n e c j t)).trans ?_
      rw [probeCaptures_probes, probeCaptures_timer, upd_get]
      by_cases here : q = j
      · subst here
        simp only [if_true, captured_twice, ite_self, List.mem_cons, true_or]
      · simp only [here, if_false, List.mem_cons, false_or]
  exact (loop _ _ s).trans (if_pos (mem_allProbes q))

/-! ### The start of a motion frame -/

/-- What the start of a motion frame makes of the counters and probes (R105, R166). -/
structure MotionBooked (e : Port) (g : Nat) (o : OpenWindow) (r : FrameRecord) (s t : State) : Prop where
  legCounters : t.legCounters = Table.upd s.legCounters (legIndex o.window.stream e) fun c => Table.upd c 0 satInc
  deviceCounters : t.deviceCounters = s.deviceCounters
  probes : ∀ q : Fin 4, t.probes[q] = captured o.window.stream e s.timer.cycle (captureOf s e r o.window g) s.probes[q]

theorem startMotion_booked (e : Port) (g : Nat) (o : OpenWindow) (d : Desc) (r : FrameRecord) (s : State) :
    MotionBooked e g o r s (startMotion e g o d r s) := by
  unfold startMotion
  dsimp only
  generalize sent : bumpPort e .motionSent _ = u
  have rest := probeStart_rest o.window.stream e r o.window g u
  have counters : (probeStart o.window.stream e r o.window g u).legCounters = u.legCounters := (congrArg State.legCounters rest :)
  have device : (probeStart o.window.stream e r o.window g u).deviceCounters = u.deviceCounters :=
    (congrArg State.deviceCounters rest :)
  have probes := probeStart_probes o.window.stream e r o.window g u
  refine ⟨by rw [counters, ← sent]; rfl, by rw [device, ← sent]; rfl, fun q => ?_⟩
  rw [probes, ← sent]
  rfl

end Sys2Proof.MotionLaws
end

section
/-! WINDOW_OPEN (R100, R101): the primary window opens by the leg state, its leg's frames are tried (R103 to R106), and the statement
on it. -/

namespace Sys2Proof.MotionLaws

open Sys2Proof.Machine Sys2Proof.Safety Sys2Proof.Laws Sys2Proof.CellTime Sys2Proof.PortLaws

/-! ### The window opens -/

section
variable {s : State} {e : Port} {w : Window}

/-- The next window of the pass is the open one. -/
def opening (w : Window) (free : Bool) (x : Egress) : Egress :=
  { x with openWindow := some ⟨w, free, free, 0, []⟩, nextWindow := x.nextWindow + 1 }

/-- The state in which the window opens, before the choice. -/
abbrev openState (e : Port) (w : Window) (free : Bool) (s : State) : State := s.modEgress e (opening w free)

theorem openState_egress (free : Bool) : (openState e w free s).egress[e] = opening w free s.egress[e] :=
  (upd_get ..).trans (if_pos rfl)

theorem exec_windowOpen (high : s.resetLow = false) (shut : s.egress[e].openWindow = none)
    (next : (s.egress[e].timeline.drop s.egress[e].nextWindow).head? = some w) (primary : w.kind = .primary)
    (begun : w.start ≤ s.phase) :
    exec (.windowOpen e) s = .next (takeReports (choose e (openState e w (!s.legLive w.stream e) s))) := by
  have due : s.opening e = some w := by simp only [State.opening, shut, next, begun, Option.isSome_none, Bool.false_eq_true, if_false, if_true]
  refine (event_high high _).trans (congrArg (fun t => Host.Outcome.next (takeReports t)) ?_)
  simp only [due, primary, if_true]
  rfl

/-- A window that is not the primary one due to open stays as it is. -/
theorem exec_windowOpen_idle (awake : Awake s) (shut : s.egress[e].openWindow = none)
    (next : (s.egress[e].timeline.drop s.egress[e].nextWindow).head? = some w) (early : w.kind = .twin ∨ s.phase < w.start) :
    exec (.windowOpen e) s = .next s := by
  refine event_idle awake ?_
  simp only [State.opening, shut, next, Option.isSome_none, Bool.false_eq_true, if_false]
  by_cases begun : w.start ≤ s.phase
  · have twin := early.resolve_right (Nat.not_lt.2 begun)
    simp [begun, twin]
  · simp [begun]

theorem legLive_iff : s.legLive w.stream e = true ↔ (s.leg w.stream e).bind (·.state) = some .live := beq_iff_eq

/-- A window of a LIVE leg without frames opens, and nothing starts. -/
theorem openState_settled (primary : w.kind = .primary) (live : (s.leg w.stream e).bind (·.state) = some .live)
    (still : s.ports[e].hold = true ∨ s.ports[e].link = .down ∨ s.slotOf w.stream e = []) :
    Settled (openState e w false s) e := by
  rcases still with hold | down | empty
  · exact .inr (.inl hold)
  · exact .inr (.inr (.inl down))
  · refine .inr (.inr (.inr (.inl ?_)))
    obtain ⟨l, leg, -⟩ := Option.bind_eq_some_iff.1 live
    obtain ⟨x, stream, -⟩ := Option.bind_eq_some_iff.1 leg
    refine ⟨⟨w, false, false, 0, []⟩, x, l, by rw [openState_egress]; rfl, primary, rfl, stream, leg, .inr (.inr fun id mem => ?_)⟩
    rw [slotOf_leg leg] at empty
    rw [empty] at mem
    cases mem

/-- What WINDOW_OPEN leaves of all but the egress, its port and the streams' frames. -/
theorem choose_rest (e : Port) (c : State) : (takeReports (choose e c)).timer = c.timer ∧
    (takeReports (choose e c)).engine = c.engine ∧ (takeReports (choose e c)).noise = c.noise ∧
    (takeReports (choose e c)).addr = c.addr := by
  have only := (takeReports_only (choose e c)).rest
  have rest := (choose_chosen e c).rest
  exact ⟨(congrArg State.timer only :).trans (congrArg State.timer rest :),
    (congrArg State.engine only :).trans (congrArg State.engine rest :),
    (congrArg State.noise only :).trans (congrArg State.noise rest :),
    (congrArg State.addr only :).trans (congrArg State.addr rest :)⟩

end

/-! ### A frame starts as its window opens -/

section
variable {s : State} {e : Port} {w : Window} {x : Stream} {l : Leg} {v : Speed}

/-- The frame `r` has started in the window, `rest` behind it (R105, R106, R166). -/
structure FrameStarted (s : State) (e : Port) (w : Window) (x : Stream) (l : Leg) (v : Speed) (r : FrameRecord)
    (rest : List FrameId) (t : State) : Prop where
  wire : t.egress[e].wire = some ⟨r.id, s.timer.grain, .motion w.stream (x.desc.twin != .off)⟩
  opened : t.egress[e].openWindow = some ⟨w, false, decide (x.desc.k ≤ 1), 1, []⟩
  leg : (t.leg w.stream e).map (fun y => (y.slot, y.retained, y.missStreak, y.missNotified)) =
    some (rest, if x.desc.twin = .off then l.retained else l.retained ++ [r.id], 0, false)
  counters : t.ports[e].counters = Table.upd s.ports[e].counters 11 satInc
  capture : ∀ (q : Fin 4) (z : Watch), s.probes[q] = .armed z → z.stream = w.stream → z.egress = e →
    t.probes[q] = .captured z s.timer.cycle
      { cycle := s.timer.cycle, ingressStart := r.ingressStart, egressStart := s.timer.grain
        residence := s.timer.grain - r.ingressStart, windowStart := w.start, startPhase := s.phase
        slack := w.stop - (s.phase + (r.len + 20) * v.factor), len := r.len, noise := s.noise[e].state }
  probes : ∀ q : Fin 4, (∀ z, s.probes[q] = .armed z → ¬(z.stream = w.stream ∧ z.egress = e)) → t.probes[q] = s.probes[q]

/-- A state between the opening and the start, heads having been dropped or not: its leg `k` holds what is left. -/
structure Opened (s : State) (e : Port) (w : Window) (x : Stream) (l k : Leg) (d : State) : Prop where
  timer : d.timer = s.timer
  noise : d.noise = s.noise
  probes : d.probes = s.probes
  counters : d.ports[e].counters = s.ports[e].counters
  egress : d.egress[e] = opening w false s.egress[e]
  stream : ∃ y, d.streams[w.stream] = some y ∧ y.desc = x.desc
  leg : d.leg w.stream e = some k
  retained : k.retained = l.retained
  missStreak : k.missStreak = l.missStreak

theorem Opened.started {d : State} {k : Leg} {r : FrameRecord} {rest : List FrameId} (h : Opened s e w x l k d)
    (slot : k.slot = r.id :: rest) :
    FrameStarted s e w x l v r rest (takeReports (startMotion e v.factor ⟨w, false, false, 0, []⟩ x.desc r d)) := by
  have started := startMotion_started e v.factor ⟨w, false, false, 0, []⟩ x.desc r d
  have booked := startMotion_booked e v.factor ⟨w, false, false, 0, []⟩ x.desc r d
  have leg := startMotion_leg e v.factor ⟨w, false, false, 0, []⟩ x.desc r d w.stream e
  generalize startMotion e v.factor ⟨w, false, false, 0, []⟩ x.desc r d = u at started booked leg
  have probes : (takeReports u).probes = u.probes := (congrArg State.probes (takeReports_only u).rest :)
  have capture : captureOf d e r w v.factor = { cycle := s.timer.cycle, ingressStart := r.ingressStart, egressStart := s.timer.grain
                                                residence := s.timer.grain - r.ingressStart, windowStart := w.start
                                                startPhase := s.phase, slack := w.stop - (s.phase + (r.len + 20) * v.factor)
                                                len := r.len, noise := s.noise[e].state } := by
    simp only [captureOf, State.phase, h.timer, h.noise, wireTime]
  refine ⟨?_, ?_, ?_, ?_, fun q z armed stream egress => ?_, fun q apart => ?_⟩
  · rw [takeReports_egress, started.egress, h.timer]
  · rw [takeReports_egress, started.egress]
  · rw [leg_of_streams (takeReports_streams u), leg, if_pos ⟨rfl, rfl⟩, h.leg]
    simp only [Option.map_some, headSent, slot, List.tail_cons, h.retained]
    cases x.desc.twin <;> rfl
  · rw [takeReports_ports, started.unit, ← h.counters]; rfl
  · rw [probes, booked.probes, h.probes, armed, captured, if_pos ⟨stream, egress⟩, capture, h.timer]
  · rw [probes, booked.probes, h.probes]
    cases held : s.probes[q] with
    | armed z => exact if_neg (apart z held)
    | _ => rfl

/-- The open window's leg is LIVE and its egress idle. -/
theorem opensIdle_opened (h : OpensIdle s e w x l v) : Opened s e w x l l (openState e w false s) where
  timer := rfl
  noise := rfl
  probes := rfl
  counters := rfl
  egress := openState_egress false
  stream := ⟨x, h.stream, rfl⟩
  leg := h.leg
  retained := rfl
  missStreak := rfl

theorem opensIdle_exec (h : OpensIdle s e w x l v) :
    exec (.windowOpen e) s = .next (takeReports (choose e (openState e w false s))) := by
  have live : s.legLive w.stream e = true := legLive_iff.2 (by rw [h.leg]; exact h.live)
  rw [exec_windowOpen h.high h.shut h.next h.primary h.begun, live]
  rfl

/-- After a head is dropped as its window opens, the next is tried (R104). -/
theorem Opened.dropped {d t : State} {k : Leg} {id : FrameId} {i : Fin 13} {total : Fin 28} (h : Opened s e w x l k d)
    (drop : HeadDropped w.stream e id i total d t) : Opened s e w x l (headGone k) t := by
  obtain ⟨y, stream, desc⟩ := h.stream
  obtain ⟨z, stream', desc', leg⟩ := drop.stream stream h.leg
  exact
    { timer := drop.timer.trans h.timer
      noise := (congrArg State.noise drop.rest :).trans h.noise
      probes := (congrArg State.probes drop.rest :).trans h.probes
      counters := by rw [drop.unit]; exact h.counters
      egress := by rw [drop.egress]; exact h.egress
      stream := ⟨z, stream', desc'.trans desc⟩
      leg := leg
      retained := h.retained
      missStreak := h.missStreak }

/-- In the open window the head of the leg's slot is tried. -/
theorem Opened.tries {d : State} {k : Leg} (h : Opened s e w x l k d) (primary : w.kind = .primary) (g fuel : Nat) :
    chooseAgain e g (fuel + 1) d = afterTry e g fuel ⟨w, false, false, 0, []⟩ x.desc d
      (d.tryHead g ⟨w, false, false, 0, []⟩ x.desc k.slot) := by
  obtain ⟨y, stream, desc⟩ := h.stream
  rw [chooseAgain_primary (o := ⟨w, false, false, 0, []⟩) fuel (by rw [h.egress]; rfl) primary rfl stream h.leg, desc]

/-- A frame may start as its window opens: it is ready, neither stale nor late (R103, R104). -/
structure MayStart (s : State) (w : Window) (x : Stream) (v : Speed) (r : FrameRecord) : Prop where
  stored : s.frame r.id = some r
  ready : 120 ≤ s.since r.received
  fresh : s.since r.ingressStart ≤ x.desc.bound
  inTime : (r.len + 20) * v.factor ≤ w.stop - s.phase

theorem MayStart.tried {d : State} {k : Leg} {r : FrameRecord} {rest : List FrameId} (may : MayStart s w x v r)
    (opens : OpensIdle s e w x l v) (h : Opened s e w x l k d) (stored : d.frame r.id = some r) :
    d.tryHead v.factor ⟨w, false, false, 0, []⟩ x.desc (r.id :: rest) = .start r := by
  have since (t : Stamp) : d.since t = s.since t := by rw [State.since, h.timer]; rfl
  have phase : d.phase = s.phase := by rw [State.phase, h.timer]; rfl
  have tried := tryHead_ready (g := v.factor) (o := ⟨w, false, false, 0, []⟩) (d := x.desc) (rest := rest) stored
    (by rw [since]; exact may.ready) opens.takes (by rw [phase]; exact opens.within)
  rw [tried, since, phase,
    if_neg (Nat.not_lt.2 may.fresh)]
  exact if_neg (Nat.not_lt.2 may.inTime)

/-- The head that fails its try as the window opens is dropped, and the choice goes on (R104). -/
theorem opensIdle_drops (h : OpensIdle s e w x l v) {a : FrameRecord} {k : Fin 13} {d : Fin 28} {rest : List FrameId}
    (slot : l.slot = a.id :: rest) (fails : Fails s w x a v k d) :
    ∃ fuel u, choose e (openState e w false s) = chooseAgain e v.factor (fuel + 1) u ∧
      HeadDropped w.stream e a.id k d (openState e w false s) u := by
  have opened := opensIdle_opened h
  obtain ⟨cause, counter, tried, leg, index, total⟩ := fails_tried (c := openState e w false s) (o := ⟨w, false, false, 0, []⟩)
    (rest := rest) fails rfl rfl fails.1 h.takes h.within
  obtain ⟨fuel, run⟩ := choose_drop (s := openState e w false s) (o := ⟨w, false, false, 0, []⟩) h.up
    (by rw [opened.egress]; exact h.idle) h.noHold (by rw [opened.egress]; rfl) h.primary rfl h.stream h.leg
    (by rw [slot]; exact tried)
  exact ⟨fuel, _, run, index ▸ total ▸ dropHead_dropped leg w.stream e a.id _⟩

/-- A dropped head is counted, flagged and reported, and its reference is returned (R104, R121, R124). -/
structure HeadBooked (s : State) (e : Port) (a : FrameRecord) (d : Fin 28) (t : State) : Prop where
  device : t.deviceCounters = Table.upd s.deviceCounters d satInc
  flag : t.ports[e].flags.getLsbD 3 = (s.ports[e].flags.getLsbD 3 || s.ports[e].flagMask.getLsbD 3)
  frame : t.frame a.id = if a.refs ≤ 1 then none else some { a with refs := a.refs - 1 }

/-- What the drop booked stands when the event is over, what follows in the choice reporting nothing. -/
theorem HeadDropped.booked {c u z : State} {n : StreamNo} {a : FrameRecord} {k : Fin 13} {d : Fin 28}
    (drop : HeadDropped n e a.id k d c u) (quiet : c.fault.inbox = []) (stored : c.frame a.id = some a)
    (fault : z.fault = u.fault) (device : z.deviceCounters = u.deviceCounters) (buffer : z.buffer = u.buffer)
    (flags : z.ports[e].flags = u.ports[e].flags) : HeadBooked c e a d (takeReports z) := by
  obtain ⟨r, total, inbox⟩ := drop.inbox
  refine ⟨?_, ?_, ?_⟩
  · rw [takeReports_deviceCounters_one (r := r) (by rw [fault, inbox, quiet]; rfl), total, device]
    exact congrArg (Table.upd · d satInc) (congrArg State.deviceCounters drop.rest :)
  · rw [takeReports_ports, flags, drop.unit, flagging, flags_getLsbD, motionDrop_getLsbD]; rfl
  · rw [State.frame, takeReports_buffer, buffer]
    exact drop.head stored

end

/-- Settles O44: the window opens by the leg state, and the tries of the slot's heads are made one after the other. -/
theorem windowOpensAndItsFrameStarts : Obligations.WindowOpensAndItsFrameStarts := by
  unfold Obligations.WindowOpensAndItsFrameStarts
  constructor
  · intro s e w awake shut next
    refine ⟨fun primary begun => ?_, exec_windowOpen_idle awake shut next⟩
    let free := !s.legLive w.stream e
    let c := openState e w free s
    have egress : c.egress[e] = opening w free s.egress[e] := openState_egress free
    have window := choose_window e c
    obtain ⟨o, opened, same, openedFree, released⟩ := window.opened ⟨w, free, free, 0, []⟩ (by rw [egress]; rfl)
    have chosen := choose_chosen e c
    refine ⟨_, o, exec_windowOpen awake.high shut next primary begun, by rw [takeReports_egress]; exact opened, same, ?_, ?_,
      fun dead => ?_, fun live => ⟨?_, fun still => ?_⟩, fun f other => ?_, choose_rest e c⟩
    · rw [takeReports_egress]
      exact window.nextWindow.trans (by rw [egress]; rfl)
    · rw [takeReports_egress]
      exact window.timeline.trans (by rw [egress]; rfl)
    · have off : free = true := by
        show (!s.legLive w.stream e) = true
        rw [Bool.not_eq_true', ← Bool.not_eq_true, legLive_iff]; exact dead
      exact ⟨openedFree.trans off, released off⟩
    · rw [openedFree]
      show (!s.legLive w.stream e) = false
      rw [legLive_iff.2 live]; rfl
    · have on : free = false := by
        show (!s.legLive w.stream e) = false
        rw [legLive_iff.2 live]; rfl
      have settled : Settled c e := by
        show Settled (openState e w free s) e
        rw [on]; exact openState_settled primary live still
      have run : choose e c = c := choose_settled settled
      rw [run, egress] at opened
      cases opened
      refine ⟨on, rfl, ?_, ?_⟩
      · rw [takeReports_egress]
        show (choose e c).egress[e].wire = _
        rw [run, egress]; rfl
      · rw [takeReports_streams]
        show (choose e c).streams = _
        rw [run]; rfl
    · rw [takeReports_egress, takeReports_ports]
      obtain ⟨unit, scheduler⟩ := chosen.others f other
      exact ⟨scheduler.trans (upd_other _ _ _ _ other), unit⟩
  · intro s e w x l v opens starts mayStart dropped
    refine ⟨fun r rest slot may => ?_, fun a k d slot fails => ?_, fun a k d r rest slot apart fails may => ?_⟩
    · obtain ⟨stored, ready, fresh, inTime⟩ := may
      have opened := opensIdle_opened opens
      have start : MotionStart (openState e w false s) e ⟨w, false, false, 0, []⟩ x l r rest v :=
        { up := opens.up
          idle := by rw [opened.egress]; exact opens.idle
          opened := by rw [opened.egress]; rfl
          primary := opens.primary
          unreleased := rfl
          stream := opens.stream
          leg := opens.leg
          slot := slot
          stored := stored
          room := opens.takes
          within := opens.within
          ready := ready
          fresh := fresh
          inTime := inTime }
      have run := choose_motion start opens.noHold
      have started := opened.started (v := v) slot
      refine ⟨_, (opensIdle_exec opens).trans (by rw [run]), ⟨started.wire, started.opened, started.leg, started.counters, started.capture,
        started.probes⟩, ?_, ?_⟩
      · rw [takeReports_legCounters]; exact (startMotion_booked ..).legCounters
      · rw [takeReports_buffer]; exact startMotion_buffer ..
    · obtain ⟨fuel, u, run, drop⟩ := opensIdle_drops opens slot fails
      have opened := (opensIdle_opened opens).dropped drop
      have empty : (headGone l).slot = [] := by rw [headGone, slot]; rfl
      rw [opened.tries opens.primary, empty, tryHead_empty] at run
      have booked := drop.booked (z := u) opens.noReports fails.1 rfl rfl rfl rfl
      refine ⟨_, (opensIdle_exec opens).trans (by rw [run]; rfl), ⟨booked.device, booked.flag, booked.frame⟩, ?_, ?_, ?_, ?_⟩
      · rw [takeReports_egress, opened.egress]; exact opens.idle
      · rw [takeReports_egress, opened.egress]; rfl
      · rw [leg_of_streams (takeReports_streams u), opened.leg, Option.map_some, empty, opened.retained, opened.missStreak]
      · rw [takeReports_legCounters]; exact drop.legCounters
    · obtain ⟨stored, ready, fresh, inTime⟩ := may
      obtain ⟨fuel, u, run, drop⟩ := opensIdle_drops opens slot fails
      have opened := (opensIdle_opened opens).dropped drop
      have slot' : (headGone l).slot = r.id :: rest := by rw [headGone, slot]; rfl
      have tried := MayStart.tried (rest := rest) ⟨stored, ready, fresh, inTime⟩ opens opened (drop.other apart.symm stored)
      rw [opened.tries opens.primary, slot', tried, afterTry] at run
      have started := opened.started (v := v) slot'
      have effects := startMotion_started e v.factor ⟨w, false, false, 0, []⟩ x.desc r u
      have books := startMotion_booked e v.factor ⟨w, false, false, 0, []⟩ x.desc r u
      have booked := drop.booked (z := startMotion e v.factor ⟨w, false, false, 0, []⟩ x.desc r u) opens.noReports fails.1
        (startMotion_fault ..) books.deviceCounters (startMotion_buffer ..) (by rw [effects.unit]; rfl)
      refine ⟨_, (opensIdle_exec opens).trans (by rw [run]), ⟨booked.device, booked.flag, booked.frame⟩, ⟨started.wire, started.opened,
        started.leg, started.counters, started.capture, started.probes⟩, ?_⟩
      rw [takeReports_legCounters, books.legCounters, drop.legCounters]
      exact upd_upd ..

end Sys2Proof.MotionLaws
end

section
/-! SUPPORT. A good frame of a stream (R52 to R55): its classification, legs that are not LIVE, and frames that are not stored. -/

namespace Sys2Proof.MotionLaws

open Sys2Proof.Machine Sys2Proof.Safety Sys2Proof.Laws Sys2Proof.CellTime Sys2Proof.PortLaws

/-! ### The classifier (R52, R53) -/

/-- A frame of the key of stream `n` is classified by the stream's stage and its length. -/
theorem classify_stream {s : State} {p : Port} {f : RxFrame} {n : StreamNo} {x : Stream} (start : Stamp)
    (stream : s.streams[n] = some x) (key : x.desc.key = ⟨p, frameDest f, frameVlan f⟩)
    (once : ∀ (i : StreamNo) (y : Stream), s.streams[i] = some y → y.desc.key = x.desc.key → i = n) :
    classify p start f (arrivedState p s) =
      if x.stage = .active then
        if x.desc.lmax < f.bytes.length then streamOversize p n (arrivedState p s)
        else motionArrival p start n x f (arrivedState p s)
      else bestEffort p start f (bumpStream n .unreserved (arrivedState p s)) := by
  have found : (arrivedState p s).streamOf ⟨p, frameDest f, frameVlan f⟩ = some n :=
    streamOf_unique (s := arrivedState p s) stream key fun i y hy own => once i y hy (own.trans key.symm)
  have same : (arrivedState p s).streams[n] = some x := stream
  rw [classify, found]
  dsimp only
  rw [same]
  rfl

/-- The state in which a frame of stream `n` arrives at the legs (R50). -/
def matchedState (p : Port) (n : StreamNo) (s : State) : State := bumpStream n .matched (arrivedState p s)

theorem matchedState_counter (p : Port) (n : StreamNo) (s : State) :
    (matchedState p n s).streamCounters[n][0] = satInc s.streamCounters[n][0] := by
  have row : (matchedState p n s).streamCounters[n] = Table.upd s.streamCounters[n] 0 satInc := (upd_get ..).trans (if_pos rfl)
  rw [row]
  exact upd_same s.streamCounters[n] 0 satInc

/-! ### Rows of leg counters -/

section
variable {s t : State} {a : Tally} {n : StreamNo} {e : Port}

/-- A leg of which nothing was counted. -/
theorem tallied_row_same (h : Tallied s t a) (none : ∀ i, a.leg n e i = 0) :
    t.legCounters[legIndex n e] = s.legCounters[legIndex n e] :=
  table_ext fun i => by rw [h.legs, none, satAdd_zero]

/-- A leg of which one count was made. -/
theorem tallied_row (h : Tallied s t a) {k : Fin 13} (one : ∀ i, a.leg n e i = if i = k then 1 else 0) :
    t.legCounters[legIndex n e] = Table.upd s.legCounters[legIndex n e] k satInc :=
  table_ext fun i => by
    rw [h.legs, one, upd_get]
    by_cases here : i = k
    · rw [if_pos here, if_pos here, satAdd_one, here]
    · rw [if_neg here, if_neg here, satAdd_zero]

end

/-- A figure that the one leg on an egress alone counts, the legs being on egresses of their own. -/
theorem sum_leg {ls : List Leg} (apart : (ls.map (·.egress)).Nodup) {l : Leg} (mem : l ∈ ls) (k : Leg → Nat) :
    (ls.map fun y => if l.egress = y.egress then k y else 0).sum = k l := by
  induction ls with
  | nil => cases mem
  | cons y ys ih =>
    obtain ⟨away, apart⟩ := List.nodup_cons.1 apart
    have none (absent : l.egress ∉ ys.map (·.egress)) : (ys.map fun y => if l.egress = y.egress then k y else 0).sum = 0 :=
      List.sum_eq_zero fun j hj => by
        obtain ⟨z, hz, rfl⟩ := List.mem_map.1 hj
        exact if_neg fun same => absent (List.mem_map.2 ⟨z, hz, same.symm⟩)
    rw [List.map_cons, List.sum_cons]
    rcases List.mem_cons.1 mem with rfl | rest
    · rw [if_pos rfl, none away, Nat.add_zero]
    · rw [if_neg fun same => away (List.mem_map.2 ⟨l, rest, same⟩), ih apart rest, Nat.zero_add]

/-! ### Legs that are not LIVE (R49, R54) -/

/-- A motion frame is dropped for a leg (R121). -/
def legTally (cause : Cause) (c : LegCounter) (n : StreamNo) (e : Port) : Tally :=
  (Tally.ofLeg n e c).add ((Tally.ofReport cause).add (.ofFlag e .motionDrop))

theorem legDrop_noted {cause : Cause} {c : LegCounter} (h : cause.legCounter = some c) (n : StreamNo) (e : Port) (s : State) :
    Noted s (legDrop cause n e s) (legTally cause c n e) := by
  have run : legDrop cause n e s = setFlag e .motionDrop (report cause (.egress e) (some n) (bumpLeg n e c s)) := by
    rw [legDrop, h]
  rw [run]
  exact (bumpLeg_noted n e c s).trans ((makeReport_noted _ _).trans (setFlag_noted e .motionDrop _))

/-- What a leg that is not LIVE counts of a frame. -/
def deadTally (n : StreamNo) (l : Leg) : Tally :=
  match l.state with
  | some .dormant => legTally .linkDown .linkDown n l.egress
  | some .mismatch => legTally .mismatch .mismatch n l.egress
  | some .suspended => legTally .suspended .suspended n l.egress
  | _ => .none

/-- The leg counter of a drop by the state of a leg that is not LIVE. -/
def deadCounter (l : Leg) : Option (Fin 13) :=
  match l.state with
  | some .dormant => some 9
  | some .mismatch => some 10
  | some .suspended => some 11
  | _ => none

theorem legArrival_dead {l : Leg} (dead : l.state ≠ some .live) (n : StreamNo) (d : Desc) (id : FrameId) (s : State) :
    Noted s (legArrival n d id l s) (deadTally n l) := by
  unfold legArrival deadTally
  split
  · next live => exact absurd live dead
  · next state => rw [state]; exact legDrop_noted rfl n l.egress s
  · next state => rw [state]; exact legDrop_noted rfl n l.egress s
  · next state => rw [state]; exact legDrop_noted rfl n l.egress s
  · next state => rw [state]; exact .refl s

theorem legTally_leg (cause : Cause) (c : LegCounter) (n : StreamNo) (d e : Port) (i : Fin 13) :
    (legTally cause c n d).leg n e i = if e = d then (if i = c.index then 1 else 0) else 0 := by
  by_cases h : e = d <;> simp [legTally, Tally.add, Tally.ofLeg, Tally.ofReport, Tally.ofFlag, Tally.none, h]

theorem deadTally_leg (n : StreamNo) (l : Leg) (e : Port) (i : Fin 13) :
    (deadTally n l).leg n e i = if e = l.egress then (if some i = deadCounter l then 1 else 0) else 0 := by
  unfold deadTally deadCounter
  split <;> simp [legTally_leg, Tally.none] <;> rfl

/-- On another egress nothing is counted. -/
theorem deadTally_away (n m : StreamNo) {l : Leg} {e : Port} (away : e ≠ l.egress) (i : Fin 13) : (deadTally n l).leg m e i = 0 := by
  unfold deadTally legTally
  split <;> simp [Tally.add, Tally.ofLeg, Tally.ofReport, Tally.ofFlag, Tally.none, away]

/-- The legs that are not LIVE report neither STALE nor LATE frames. -/
theorem deadTally_reports (n : StreamNo) (l : Leg) {i : Fin 28} (which : i = 8 ∨ i = 9) : (deadTally n l).reports i = 0 := by
  unfold deadTally legTally
  rcases which with rfl | rfl <;> split <;>
    simp [Tally.add, Tally.ofLeg, Tally.ofReport, Tally.ofFlag, Tally.none] <;> decide

theorem forAll_dead {ls : List Leg} (dead : ∀ l ∈ ls, l.state ≠ some .live) (n : StreamNo) (d : Desc) (id : FrameId) (s : State) :
    Noted s (forAll ls (legArrival n d id) s) (.sum (ls.map (deadTally n))) :=
  forAll_noted ls (fun l mem t => legArrival_dead (dead l mem) n d id t) s

theorem dead_row {s t : State} {n : StreamNo} {ls : List Leg} (apart : (ls.map (·.egress)).Nodup)
    (h : Noted s t (.sum (ls.map (deadTally n)))) {l : Leg} (mem : l ∈ ls) {k : Fin 13} (counter : deadCounter l = some k) :
    t.legCounters[legIndex n l.egress] = Table.upd s.legCounters[legIndex n l.egress] k satInc := by
  refine tallied_row h.toTallied fun i => ?_
  rw [Tally.sum_leg, List.map_map]
  simp only [Function.comp_def, deadTally_leg]
  rw [sum_leg apart mem fun y => if some i = deadCounter y then 1 else 0, counter]
  simp only [Option.some.injEq]

/-! ### Frames of an ACTIVE stream that are not stored -/

section
variable {s : State} {p : Port} {f : RxFrame} {n : StreamNo} {x : Stream}

/-- With no LIVE leg the frame is stored nowhere (R54). -/
theorem motionArrival_dead (start : Stamp) (dead : ∀ l ∈ x.legs, l.state ≠ some .live) :
    motionArrival p start n x f (arrivedState p s) =
      forAll x.legs (legArrival n x.desc s.buffer.nextId) (matchedState p n s) := by
  have none : x.liveLegs = 0 := List.countP_eq_zero.2 fun l mem => by simpa using dead l mem
  unfold motionArrival
  dsimp only
  rw [if_pos none]
  rfl

theorem liveLegs_pos (live : ∃ l ∈ x.legs, l.state = some .live) : x.liveLegs ≠ 0 := by
  obtain ⟨l, mem, state⟩ := live
  exact Nat.ne_of_gt (List.countP_pos_iff.2 ⟨l, mem, by simp [state]⟩)

theorem motionArrival_refused (start : Stamp) (live : ∃ l ∈ x.legs, l.state = some .live)
    (refused : 2 * x.desc.k ≤ x.alive ∨ s.buffer.motionFree < (f.bytes.length + 127) / 128) :
    motionArrival p start n x f (arrivedState p s) = motionRefused p n x (matchedState p n s) := by
  rw [← cellsOf_eq] at refused
  unfold motionArrival
  dsimp only
  rw [if_neg (liveLegs_pos live)]
  exact if_pos refused

/-- What a stream's leg counts of a frame that the storage check refuses (R33, R55). -/
def refusedTally (n : StreamNo) (l : Leg) : Tally := (Tally.ofLeg n l.egress .noBuffer).add (.ofFlag l.egress .motionDrop)

theorem motionRefused_noted (p : Port) (n : StreamNo) (x : Stream) (s : State) :
    Noted s (motionRefused p n x s) ((ingressTally p .noBuffer).add (.sum (x.legs.map (refusedTally n)))) :=
  (ingressDrop_noted p .noBuffer (some n) s).trans
    (forAll_noted x.legs (fun l _ t => (bumpLeg_noted n l.egress .noBuffer t).trans (setFlag_noted l.egress .motionDrop _)) _)

theorem ingressTally_leg (cause : Cause) (m : StreamNo) (e : Port) (i : Fin 13) : (ingressTally p cause).leg m e i = 0 := rfl

theorem refused_row {t : State} (apart : (x.legs.map (·.egress)).Nodup)
    (h : Noted s t ((ingressTally p .noBuffer).add (.sum (x.legs.map (refusedTally n))))) {l : Leg} (mem : l ∈ x.legs) :
    t.legCounters[legIndex n l.egress] = Table.upd s.legCounters[legIndex n l.egress] 8 satInc := by
  refine tallied_row h.toTallied fun i => ?_
  show (ingressTally p .noBuffer).leg n l.egress i + (Tally.sum _).leg n l.egress i = _
  rw [ingressTally_leg, Nat.zero_add, Tally.sum_leg, List.map_map]
  have own (y : Leg) : (refusedTally n y).leg n l.egress i = if l.egress = y.egress then (if i = 8 then 1 else 0) else 0 := by
    by_cases h : l.egress = y.egress <;> simp [refusedTally, Tally.add, Tally.ofLeg, Tally.ofFlag, Tally.none, h]
    rfl
  simp only [Function.comp_def, own]
  exact sum_leg apart mem fun _ => if i = 8 then 1 else 0

theorem refused_port (e : Port) (i : Fin 21) : (Tally.sum (x.legs.map (refusedTally n))).port e i = 0 := by
  rw [sum_port]
  exact List.sum_eq_zero fun j hj => by
    obtain ⟨a, ha, rfl⟩ := List.mem_map.1 hj
    obtain ⟨l, -, rfl⟩ := List.mem_map.1 ha
    rfl

theorem refused_reports (i : Fin 28) : (Tally.sum (x.legs.map (refusedTally n))).reports i = 0 := by
  rw [Tally.sum_reports]
  exact List.sum_eq_zero fun j hj => by
    obtain ⟨a, ha, rfl⟩ := List.mem_map.1 hj
    obtain ⟨l, -, rfl⟩ := List.mem_map.1 ha
    rfl

end

end Sys2Proof.MotionLaws
end

section
/-! SUPPORT. A stored frame of a stream at its legs (R54 to R56, R102), where the egresses it reaches have nothing to start. -/

namespace Sys2Proof.MotionLaws

open Sys2Proof.Machine Sys2Proof.Safety Sys2Proof.Laws Sys2Proof.CellTime Sys2Proof.PortLaws

/-! ### What a frame makes of a leg (R54, R56, R102) -/

def isLive (l : Leg) : Bool := l.state == some .live

/-- The slot of a leg has room (R102). -/
def hasSpace (d : Desc) (l : Leg) : Bool := decide (l.slot.length < d.k)

/-- A leg at which the frame `id` arrived. -/
def arrivedLeg (d : Desc) (id : FrameId) (l : Leg) : Leg :=
  if isLive l then
    { l with slot :=
        if hasSpace d l then l.slot ++ [id]
        else match d.handling with
          | .latest => l.slot.drop 1 ++ [id]
          | .sequenced => l.slot }
  else l

/-- The counter that the arrival moves on a leg, if any (R49). -/
def arrivalCounter (d : Desc) (l : Leg) : Option (Fin 13) :=
  if isLive l then
    if hasSpace d l then none
    else match d.handling with
      | .latest => some 5
      | .sequenced => some 4
  else deadCounter l

/-- The frames whose references the arrival returns at a leg. -/
def arrivalReturns (d : Desc) (id : FrameId) (l : Leg) : List FrameId :=
  if isLive l && !hasSpace d l then
    match d.handling with
    | .latest => l.slot.take 1
    | .sequenced => [id]
  else []

@[simp] theorem arrivedLeg_egress (d : Desc) (id : FrameId) (l : Leg) : (arrivedLeg d id l).egress = l.egress := by
  unfold arrivedLeg; split <;> rfl

/-- The legs of a stream on some egresses, the frame having arrived. -/
def enterLegs (d : Desc) (id : FrameId) (es : List Port) (x : Stream) : Stream :=
  { x with legs := x.legs.map fun l => if l.egress ∈ es then arrivedLeg d id l else l }

/-- A row of leg counters in which one counter moved, or none. -/
def countRow (k : Option (Fin 13)) (row : Table Counter 13) : Table Counter 13 := k.elim row fun k => Table.upd row k satInc

/-- Between two states the frame `id` of stream `n` arrived at these legs, and no egress started anything. -/
structure Entered (n : StreamNo) (d : Desc) (id : FrameId) (ls : List Leg) (c t : State) : Prop where
  rest : { t with
    ports := c.ports, streams := c.streams, legCounters := c.legCounters, buffer := c.buffer, fault := c.fault } = c
  units : ∀ e : Port, { t.ports[e] with counters := c.ports[e].counters, flags := c.ports[e].flags } = c.ports[e]
  streams : ∀ m, bare t m = if m = n then (bare c n).map (enterLegs d id (ls.map (·.egress))) else bare c m
  rows : ∀ l ∈ ls, t.legCounters[legIndex n l.egress] = countRow (arrivalCounter d l) c.legCounters[legIndex n l.egress]
  otherRows : ∀ e, e ∉ ls.map (·.egress) → t.legCounters[legIndex n e] = c.legCounters[legIndex n e]
  returned : Returned c t (ls.flatMap (arrivalReturns d id)) fun _ => false

theorem enterLegs_nil (d : Desc) (id : FrameId) (x : Stream) : enterLegs d id [] x = x := by
  simp [enterLegs]

theorem enterLegs_cons (d : Desc) (id : FrameId) {e : Port} {es : List Port} (away : e ∉ es) (x : Stream) :
    enterLegs d id es (enterLegs d id [e] x) = enterLegs d id (e :: es) x := by
  unfold enterLegs
  simp only [List.map_map]
  congr 2
  funext l
  simp only [Function.comp, List.mem_cons]
  by_cases here : l.egress = e
  · simp [here, away]
  · simp [here]

section
variable {n : StreamNo} {d : Desc} {id : FrameId} {s c t u : State}

theorem Entered.nil (c : State) : Entered n d id [] c c where
  rest := rfl
  units _ := rfl
  streams m := by
    split
    · next h =>
      subst h
      cases bare c m with
      | none => rfl
      | some x => exact (congrArg some (enterLegs_nil d id x)).symm
    · rfl
  rows _ mem := by cases mem
  otherRows _ _ := rfl
  returned := returned_refl c

theorem Entered.cons {l : Leg} {ls : List Leg} (away : l.egress ∉ ls.map (·.egress)) (h : Entered n d id [l] c t)
    (k : Entered n d id ls t u) : Entered n d id (l :: ls) c u where
  rest := (congrArg (fun x : State => { x with
    ports := c.ports, streams := c.streams, legCounters := c.legCounters, buffer := c.buffer, fault := c.fault }) k.rest).trans h.rest
  units e := (congrArg (fun x : PortUnit => { x with counters := c.ports[e].counters, flags := c.ports[e].flags }) (k.units e)).trans
    (h.units e)
  streams m := by
    rw [k.streams, h.streams, h.streams]
    split
    · rw [if_pos rfl, Option.map_map]
      congr 1
      funext x
      exact enterLegs_cons d id away x
    · rfl
  rows z mem := by
    rcases List.mem_cons.1 mem with rfl | later
    · rw [k.otherRows _ away, h.rows z (List.mem_singleton_self z)]
    · rw [k.rows z later, h.otherRows _ fun same => away (by
        rw [List.map_singleton, List.mem_singleton] at same
        exact List.mem_map.2 ⟨z, later, same⟩)]
  otherRows e outside := by
    have apart := not_or.1 (mt List.mem_cons.2 outside)
    rw [k.otherRows e apart.2, h.otherRows e (by simpa using apart.1)]
  returned := by
    have both := returned_trans h.returned k.returned
    simpa using both

/-- What the egress sees nearly as before it still does, where the changes are elsewhere or as the arrival makes them. -/
theorem Nearly.step {e : Port} (h : Nearly e id s c) (timer : t.timer = c.timer) (engine : t.engine = c.engine)
    (unit : { t.ports[e] with counters := c.ports[e].counters, flags := c.ports[e].flags } = c.ports[e])
    (egress : t.egress[e] = c.egress[e])
    (frames : ∀ i r, t.frame i = some r → ∃ q, c.frame i = some q ∧ q.received = r.received ∧ q.len = r.len)
    (descs : ∀ m : StreamNo, t.streams[m].map (·.desc) = c.streams[m].map (·.desc))
    (legs : ∀ m, (t.leg m e).isSome = (c.leg m e).isSome)
    (slots : ∀ m, ∀ i ∈ t.slotOf m e, i = id ∨ i ∈ c.slotOf m e) : Nearly e id s t where
  timer := timer.trans h.timer
  engine := engine.trans h.engine
  link := Eq.trans (congrArg PortUnit.link unit :) h.link
  hold := Eq.trans (congrArg PortUnit.hold unit :) h.hold
  wire := by rw [egress]; exact h.wire
  openWindow := by rw [egress]; exact h.openWindow
  timeline := by rw [egress]; exact h.timeline
  nextWindow := by rw [egress]; exact h.nextWindow
  queues k := by rw [egress]; exact h.queues k
  unready r stored := by
    obtain ⟨q, stored', received, -⟩ := frames id r stored
    rw [← received, State.since, timer]
    exact h.unready q stored'
  frames i r other stored := by
    obtain ⟨q, stored', received, len⟩ := frames i r stored
    obtain ⟨z, stored'', received', len'⟩ := h.frames i q other stored'
    exact ⟨z, stored'', received'.trans received, len'.trans len⟩
  descs m := (descs m).trans (h.descs m)
  legs m := (legs m).trans (h.legs m)
  slots m i mem := (slots m i mem).elim .inl (h.slots m i)

theorem returned_frames {ids : List FrameId} (h : Returned c t ids fun _ => false) (i : FrameId) (r : FrameRecord)
    (stored : t.frame i = some r) : ∃ q, c.frame i = some q ∧ q.received = r.received ∧ q.len = r.len := by
  cases was : c.frame i with
  | none => rw [h.absent i was] at stored; cases stored
  | some q =>
    have frame := h.frames i q was
    rw [stored] at frame
    split at frame
    · cases frame
    · cases frame; exact ⟨q, rfl, rfl, rfl⟩

theorem descs_of_bare {m : StreamNo} {g : Stream → Stream} (h : bare t m = (bare c m).map g) (desc : ∀ x, (g x).desc = x.desc) :
    t.streams[m].map (·.desc) = c.streams[m].map (·.desc) := by
  have same := congrArg (Option.map fun x : Stream => x.desc) h
  rw [bare, bare, Option.map_map, Option.map_map, Option.map_map] at same
  refine same.trans ?_
  congr 1
  funext x
  exact desc _

/-- The leg that a search finds after frames arrived elsewhere. -/
theorem leg_enterLegs_away {es : List Port} {e : Port} (away : e ∉ es) (x : Stream) :
    (enterLegs d id es x).legs.find? (fun l => l.egress == e) = x.legs.find? fun l => l.egress == e := by
  have egress (l : Leg) : (if l.egress ∈ es then arrivedLeg d id l else l).egress = l.egress := by split <;> simp
  show (x.legs.map _).find? _ = _
  rw [List.find?_map]
  have same : ((fun l : Leg => l.egress == e) ∘ fun l => if l.egress ∈ es then arrivedLeg d id l else l) = fun l => l.egress == e := by
    funext l; simp only [Function.comp, egress]
  rw [same]
  cases found : x.legs.find? fun l => l.egress == e with
  | none => rfl
  | some l =>
    have here : l.egress = e := by simpa using List.find?_some found
    simp [here, away]

theorem Entered.leg_away {ls : List Leg} (h : Entered n d id ls c t) {e : Port} (away : e ∉ ls.map (·.egress)) (m : StreamNo) :
    t.leg m e = c.leg m e := by
  rw [leg_eq_bare, h.streams, leg_eq_bare]
  split
  · next same =>
    subst same
    cases bare c m with
    | none => rfl
    | some x => exact leg_enterLegs_away away x
  · rfl

theorem Entered.nearly {ls : List Leg} (h : Entered n d id ls c t) {e : Port} (k : Nearly e id s c)
    (away : e ∉ ls.map (·.egress)) : Nearly e id s t :=
  k.step (congrArg State.timer h.rest :) (congrArg State.engine h.rest :) (h.units e)
    (congrArg (fun x : State => x.egress[e]) h.rest :) (returned_frames h.returned)
    (fun m => by
      have streams := h.streams m
      split at streams
      · next same => rw [← same] at streams; exact descs_of_bare streams fun _ => rfl
      · exact descs_of_bare (g := fun x => x) (by rw [streams]; cases bare c m <;> rfl) fun _ => rfl)
    (fun m => by rw [h.leg_away away])
    (fun m i mem => .inr (by rw [← slotOf_of_leg (h.leg_away away m)]; exact mem))

end

end Sys2Proof.MotionLaws
end

section
/-! SUPPORT. The arrival at one leg and at several, where no egress starts anything (R54, R56, R102), and the references that the
stored frame keeps (R123, R124). -/

namespace Sys2Proof.MotionLaws

open Sys2Proof.Machine Sys2Proof.Safety Sys2Proof.Laws Sys2Proof.CellTime Sys2Proof.PortLaws

/-! ### The stored frame's references and its stream's alive count -/

/-- The stored frame `r` of stream `n` has `k` references left: it stands while it has one, its cells taken from the free ones `F`
and its stream one frame more alive than `alive` (R55, R57, R124). -/
structure Holds (F : FrameBuffer) (r : FrameRecord) (n : StreamNo) (alive k : Nat) (c : State) : Prop where
  motionFree : c.buffer.motionFree = if 0 < k then F.motionFree - r.cells else F.motionFree
  beFree : c.buffer.beFree = F.beFree
  frame : c.frame r.id = if 0 < k then some { r with refs := k } else none
  alive : c.streams[n].map (·.alive) = some (if 0 < k then alive + 1 else alive)

theorem freeFrame_buffer (r : FrameRecord) (s : State) : (freeFrame r s).buffer =
    giveCells r.pool r.cells { s.buffer with frames := s.buffer.frames.filter fun x => x.id != r.id } := by
  unfold freeFrame
  dsimp only
  cases r.stream with
  | none => rfl
  | some m => cases r.orphan <;> rfl

section
variable {F : FrameBuffer} {r : FrameRecord} {n : StreamNo} {alive k : Nat} {c t : State}

theorem Holds.same (h : Holds F r n alive k c) (buffer : t.buffer = c.buffer)
    (streams : t.streams[n].map (·.alive) = c.streams[n].map (·.alive)) : Holds F r n alive k t :=
  ⟨by rw [buffer]; exact h.motionFree, by rw [buffer]; exact h.beFree, by rw [State.frame, buffer]; exact h.frame,
    streams.trans h.alive⟩

/-- One of its references is returned. -/
theorem Holds.return (h : Holds F r n alive k c) (pos : 0 < k) (pool : r.pool = .motion) (stream : r.stream = some n)
    (orphan : r.orphan = false) (fits : r.cells ≤ F.motionFree) : Holds F r n alive (k - 1) (returnRef r.id c) := by
  have stored := h.frame
  rw [if_pos pos] at stored
  have left := (returnRef_returned r.id c).frames r.id _ stored
  have unmarked : r.stream.any (fun _ => false) = false := by rw [stream]; rfl
  simp only [List.count_singleton_self, unmarked, Bool.or_false] at left
  have motionFree := h.motionFree
  have aliveCount := h.alive
  rw [if_pos pos] at motionFree aliveCount
  by_cases last : k ≤ 1
  · have none : ¬0 < k - 1 := by omega
    have run := returnRef_last stored last
    have buffer := freeFrame_buffer { r with refs := k } c
    refine ⟨?_, ?_, ?_, ?_⟩
    · rw [run, buffer, if_neg none, pool]
      show c.buffer.motionFree + r.cells = _
      omega
    · rw [run, buffer, pool]; exact h.beFree
    · rw [left, if_neg none]; simp [last]
    · rw [run, freeFrame_streams, if_pos ⟨stream, orphan⟩, Option.map_map, if_neg none]
      obtain ⟨y, hy, same⟩ := Option.map_eq_some_iff.1 aliveCount
      rw [hy]
      exact congrArg some (by simp only [Function.comp]; omega)
  · have some_ : 0 < k - 1 := by omega
    have run : returnRef r.id c = c.modBuffer fun b => { b with
        frames := b.frames.map fun x => if x.id == r.id then { x with refs := x.refs - 1 } else x } := by
      rw [returnRef, stored]; exact if_neg last
    refine ⟨?_, ?_, ?_, ?_⟩
    · rw [run, if_pos some_]; exact motionFree
    · rw [run]; exact h.beFree
    · rw [left, if_pos some_]; simp [last]
    · rw [run, if_pos some_]; exact aliveCount

end

/-! ### One leg -/

section
variable {n : StreamNo} {d : Desc} {id : FrameId} {s c : State} {l : Leg} {x : Stream}

/-- The leg `l` of stream `n`, as it stands, on an egress of its own. -/
def Stands (n : StreamNo) (l : Leg) (c : State) : Prop :=
  ∃ x, bare c n = some x ∧ l ∈ x.legs ∧ (x.legs.map (·.egress)).Nodup

theorem find_leg {ls : List Leg} (apart : (ls.map (·.egress)).Nodup) (mem : l ∈ ls) :
    ls.find? (fun y => y.egress == l.egress) = some l := by
  cases found : ls.find? fun y => y.egress == l.egress with
  | none => exact absurd (List.find?_eq_none.1 found l mem) (by simp)
  | some y =>
    have same : y.egress = l.egress := by simpa using List.find?_some found
    rw [List.inj_on_of_nodup_map apart (List.mem_of_find?_eq_some found) mem same]

theorem Stands.leg (h : Stands n l c) : c.leg n l.egress = some l := by
  obtain ⟨x, stream, mem, apart⟩ := h
  rw [leg_eq_bare, stream]
  exact find_leg apart mem

theorem Stands.slot (h : Stands n l c) : c.slotOf n l.egress = l.slot := slotOf_leg h.leg

/-- A change of the leg that is the arrival's. -/
theorem Stands.enter (h : Stands n l c) {f : Leg → Leg} (arrival : f l = arrivedLeg d id l) :
    (bare c n).map (onLegs l.egress f) = (bare c n).map (enterLegs d id [l.egress]) := by
  obtain ⟨x, stream, mem, apart⟩ := h
  rw [stream, Option.map_some, Option.map_some]
  congr 1
  unfold onLegs enterLegs
  congr 1
  refine List.map_congr_left fun y hy => ?_
  by_cases here : y.egress = l.egress
  · have same := List.inj_on_of_nodup_map apart hy mem here
    subst same
    simp [arrival]
  · simp [here]

theorem Stands.unchanged (h : Stands n l c) (arrival : arrivedLeg d id l = l) :
    bare c n = (bare c n).map (enterLegs d id [l.egress]) := by
  rw [← h.enter (f := fun y => y) arrival.symm]
  have same (x : Stream) : onLegs l.egress (fun y => y) x = x := by simp [onLegs]
  cases bare c n with
  | none => rfl
  | some x => exact (congrArg some (same x)).symm

/-- The slot with the frame behind its others. -/
def joinedLeg (id : FrameId) (l : Leg) : Leg := { l with slot := l.slot ++ [id] }

/-- The slot with the frame in its oldest one's place. -/
def replacing (rest : List FrameId) (id : FrameId) (l : Leg) : Leg := { l with slot := rest ++ [id] }

/-- A change of the leg on egress `e` lets the egress see nearly the same, where its slot holds what it held and the frame. -/
theorem Nearly.modLeg {e : Port} (h : Nearly e id s c) {f : Leg → Leg} (egress : ∀ l, (f l).egress = l.egress)
    (slots : ∀ l, c.leg n e = some l → ∀ i ∈ (f l).slot, i = id ∨ i ∈ l.slot) : Nearly e id s (c.modLeg n e f) := by
  have leg (m) := modLeg_leg egress n e c m e
  refine h.step rfl rfl rfl rfl (fun i r stored => ⟨r, stored, rfl, rfl⟩) (fun m => ?_) (fun m => ?_) fun m i mem => ?_
  · rw [modLeg_streams]
    split
    · next same => rw [same]; cases c.streams[n] <;> rfl
    · rfl
  · rw [leg]
    split
    · next same => rw [same.1, Option.isSome_map]
    · rfl
  · rw [slotOf_eq, leg] at mem
    split at mem
    · next same =>
      rw [same.1]
      cases held : c.leg n e with
      | none => rw [held] at mem; cases mem
      | some l =>
        rw [held] at mem
        rw [slotOf_leg held]
        exact slots l held i mem
    · exact .inr mem

/-- A slot with room takes the frame (R102). -/
theorem legArrival_room (nearly : Nearly l.egress id s c) (stands : Stands n l c) (live : l.state = some .live)
    (settled : Settled s l.egress) (room : l.slot.length < d.k) :
    legArrival n d id l c = c.modLeg n l.egress (joinedLeg id) := by
  have after : Nearly l.egress id s (c.modLeg n l.egress (joinedLeg id)) := nearly.modLeg (fun _ => rfl) fun y _ i mem => by
    rcases List.mem_append.1 mem with old | new
    · exact .inr old
    · exact .inl (List.mem_singleton.1 new)
  have still := choose_settled (after.settled settled)
  simp only [legArrival, live, slotEntry, stands.slot, room, if_true]
  exact still

theorem returnRef_frames (i : FrameId) (c : State) (j : FrameId) (r : FrameRecord) (stored : (returnRef i c).frame j = some r) :
    ∃ q, c.frame j = some q ∧ q.received = r.received ∧ q.len = r.len :=
  returned_frames (returnRef_returned i c) j r stored

/-- A full slot under LATEST lets its oldest frame go (R102). -/
theorem legArrival_latest {old : FrameId} {rest : List FrameId} (nearly : Nearly l.egress id s c) (stands : Stands n l c)
    (live : l.state = some .live) (settled : Settled s l.egress) (full : ¬l.slot.length < d.k) (latest : d.handling = .latest)
    (slot : l.slot = old :: rest) : legArrival n d id l c =
      bumpLeg n l.egress .replaced (returnRef old (c.modLeg n l.egress (replacing rest id))) := by
  have replaced : Nearly l.egress id s (c.modLeg n l.egress (replacing rest id)) :=
    nearly.modLeg (fun _ => rfl) fun y held i mem => by
      rw [stands.leg] at held
      cases held
      rcases List.mem_append.1 mem with left | new
      · exact .inr (by rw [slot]; exact List.mem_cons_of_mem _ left)
      · exact .inl (List.mem_singleton.1 new)
  generalize modified : c.modLeg n l.egress (replacing rest id) = u at replaced
  have kept := returnRef_rest old u
  have bares (m) := returnRef_bare old u m
  have after : Nearly l.egress id s (bumpLeg n l.egress .replaced (returnRef old u)) := by
    refine replaced.step (congrArg State.timer kept :) (congrArg State.engine kept :)
      (congrArg (fun x : State => ({ x.ports[l.egress] with
        counters := u.ports[l.egress].counters, flags := u.ports[l.egress].flags } : PortUnit)) kept :)
      (congrArg (fun x : State => x.egress[l.egress]) kept :) (returnRef_frames old u) (fun m => ?_) (fun m => ?_) fun m i mem => .inr ?_
    · exact desc_of_settled (settled_of_bare bares m)
    · exact congrArg Option.isSome (leg_congr (bares m) l.egress)
    · rw [← slotOf_of_leg (leg_congr (bares m) l.egress)]; exact mem
  have still := choose_settled (after.settled settled)
  rw [slot] at full
  simp only [legArrival, live, slotEntry, stands.slot, latest, slot, if_neg full]
  rw [← modified] at still ⊢
  exact still

/-- A full slot under SEQUENCED drops the frame (R102). -/
theorem legArrival_overrun (nearly : Nearly l.egress id s c) (stands : Stands n l c) (live : l.state = some .live)
    (settled : Settled s l.egress) (full : ¬l.slot.length < d.k) (sequenced : d.handling = .sequenced) :
    legArrival n d id l c = returnRef id (legDrop .overrun n l.egress c) := by
  have still := choose_settled (nearly.settled settled)
  simp only [legArrival, live, slotEntry, stands.slot, if_neg full, sequenced, still]

end

end Sys2Proof.MotionLaws
end

section
/-! SUPPORT. A stored frame of a stream goes from leg to leg (R54, R56, R102). -/

namespace Sys2Proof.MotionLaws

open Sys2Proof.Machine Sys2Proof.Safety Sys2Proof.Laws Sys2Proof.CellTime Sys2Proof.PortLaws

/-- The frame overruns the leg's slot, where it replaces none there (R102). -/
def overruns (d : Desc) (l : Leg) : Bool := isLive l && !hasSpace d l

section
variable {n : StreamNo} {d : Desc} {id : FrameId} {s c t : State} {l : Leg}

theorem isLive_iff : isLive l = true ↔ l.state = some .live := by simp [isLive]

theorem isLive_false (dead : l.state ≠ some .live) : isLive l = false := by rw [← Bool.not_eq_true, isLive_iff]; exact dead

theorem hasSpace_iff : hasSpace d l = true ↔ l.slot.length < d.k := decide_eq_true_iff

theorem hasSpace_false (full : ¬l.slot.length < d.k) : hasSpace d l = false := decide_eq_false full

/-- A row of which at most one counter moved. -/
theorem tallied_countRow {a : Tally} (h : Tallied s t a) {e : Port} {k : Option (Fin 13)}
    (one : ∀ i, a.leg n e i = if some i = k then 1 else 0) :
    t.legCounters[legIndex n e] = countRow k s.legCounters[legIndex n e] := by
  cases k with
  | none => exact tallied_row_same h fun i => by rw [one]; simp
  | some k => exact tallied_row h fun i => by rw [one]; simp only [Option.some.injEq]

theorem entered_dead (stands : Stands n l c) (dead : l.state ≠ some .live) :
    Entered n d id [l] c (legArrival n d id l c) := by
  have noted := legArrival_dead dead n d id c
  have off := isLive_false dead
  have counter : arrivalCounter d l = deadCounter l := by simp [arrivalCounter, off]
  have arrived : arrivedLeg d id l = l := by simp [arrivedLeg, off]
  have returns : arrivalReturns d id l = [] := by simp [arrivalReturns, off]
  have streams : (legArrival n d id l c).streams = c.streams := (congrArg State.streams noted.only :)
  refine ⟨(congrArg (fun x : State => { x with streams := c.streams, buffer := c.buffer }) noted.only :),
    fun e => (noted.ports e).rest, fun m => ?_, fun y mem => ?_, fun e away => ?_, ?_⟩
  · rw [bare_of_streams streams]
    split
    · next same => rw [same]; exact stands.unchanged arrived
    · rfl
  · rw [List.mem_singleton.1 mem, counter]
    exact tallied_countRow noted.toTallied fun i => by rw [deadTally_leg, if_pos rfl]
  · exact tallied_row_same noted.toTallied fun i => deadTally_away n n (by simpa using away) i
  · simp only [List.flatMap_cons, List.flatMap_nil, returns, List.append_nil]
    exact returned_of_buffer (congrArg State.buffer noted.only :)

theorem entered_room (stands : Stands n l c) (live : l.state = some .live) (room : l.slot.length < d.k) :
    Entered n d id [l] c (c.modLeg n l.egress (joinedLeg id)) := by
  have on := isLive_iff.2 live
  have space := (hasSpace_iff (d := d)).2 room
  have counter : arrivalCounter d l = none := by simp [arrivalCounter, on, space]
  have arrived : joinedLeg id l = arrivedLeg d id l := by simp [arrivedLeg, on, space, joinedLeg]
  have returns : arrivalReturns d id l = [] := by simp [arrivalReturns, on, space]
  refine ⟨rfl, fun _ => rfl, fun m => ?_, fun y mem => ?_, fun _ _ => rfl, ?_⟩
  · rw [modLeg_bare, stands.enter arrived]; rfl
  · rw [List.mem_singleton.1 mem, counter]; rfl
  · simp only [List.flatMap_cons, List.flatMap_nil, returns, List.append_nil]
    exact returned_of_buffer rfl

theorem entered_latest {old : FrameId} {rest : List FrameId} (stands : Stands n l c) (live : l.state = some .live)
    (full : ¬l.slot.length < d.k) (latest : d.handling = .latest) (slot : l.slot = old :: rest) :
    Entered n d id [l] c (bumpLeg n l.egress .replaced (returnRef old (c.modLeg n l.egress (replacing rest id)))) := by
  have on := isLive_iff.2 live
  have space := hasSpace_false full
  have counter : arrivalCounter d l = some 5 := by simp [arrivalCounter, on, space, latest]
  have arrived : replacing rest id l = arrivedLeg d id l := by simp [arrivedLeg, on, space, latest, replacing, slot]
  have returns : arrivalReturns d id l = [old] := by simp [arrivalReturns, on, space, latest, slot]
  have lossy := ((modLeg_lossy n l.egress (replacing rest id) c).trans (returnRef_lossy old _)).trans
    (bumpLeg_lossy n l.egress .replaced _)
  have leg (e i) : (((Tally.none.add (.returning [old])).add (.ofLeg n l.egress .replaced)).leg n e i) =
      if e = l.egress then (if i = 5 then 1 else 0) else 0 := by
    by_cases here : e = l.egress <;> simp [Tally.add, Tally.returning, Tally.ofLeg, Tally.none, here]
    rfl
  refine ⟨?_, fun e => (lossy.ports e).rest, fun m => ?_, fun y mem => ?_, fun e away => ?_, ?_⟩
  · exact (congrArg (fun x : State => { x with
      ports := c.ports, streams := c.streams, legCounters := c.legCounters, buffer := c.buffer, fault := c.fault })
      (returnRef_rest old (c.modLeg n l.egress (replacing rest id))) :)
  · refine (returnRef_bare old (c.modLeg n l.egress (replacing rest id)) m).trans ?_
    rw [modLeg_bare, stands.enter arrived]; rfl
  · rw [List.mem_singleton.1 mem, counter]
    exact tallied_countRow lossy.toTallied fun i => by rw [leg, if_pos rfl]; simp only [Option.some.injEq]
  · exact tallied_row_same lossy.toTallied fun i => by rw [leg, if_neg (by simpa using away)]
  · simp only [List.flatMap_cons, List.flatMap_nil, returns, List.append_nil]
    exact lossy.returned

theorem entered_overrun (stands : Stands n l c) (live : l.state = some .live) (full : ¬l.slot.length < d.k)
    (sequenced : d.handling = .sequenced) : Entered n d id [l] c (returnRef id (legDrop .overrun n l.egress c)) := by
  have on := isLive_iff.2 live
  have space := hasSpace_false full
  have counter : arrivalCounter d l = some 4 := by simp [arrivalCounter, on, space, sequenced]
  have arrived : arrivedLeg d id l = l := by simp [arrivedLeg, on, space, sequenced]
  have returns : arrivalReturns d id l = [id] := by simp [arrivalReturns, on, space, sequenced]
  have lossy := legDrop_lossy (cause := .overrun) rfl n l.egress id c
  have noted := legDrop_noted (cause := .overrun) rfl n l.egress c
  have leg (e i) : (slotTally .overrun .overrun n l.egress [id]).leg n e i =
      if e = l.egress then (if i = 4 then 1 else 0) else 0 := by
    by_cases here : e = l.egress <;> simp [slotTally, here]
    rfl
  refine ⟨?_, fun e => (lossy.ports e).rest, fun m => ?_, fun y mem => ?_, fun e away => ?_, ?_⟩
  · exact (congrArg (fun x : State => { x with
      ports := c.ports, streams := c.streams, legCounters := c.legCounters, buffer := c.buffer, fault := c.fault })
      (returnRef_rest id (legDrop .overrun n l.egress c)) :).trans
      (congrArg (fun x : State => { x with streams := c.streams, buffer := c.buffer }) noted.only :)
  · rw [returnRef_bare, bare_of_streams (legDrop_streams .overrun n l.egress c)]
    split
    · next same => rw [same]; exact stands.unchanged arrived
    · rfl
  · rw [List.mem_singleton.1 mem, counter]
    exact tallied_countRow lossy.toTallied fun i => by rw [leg, if_pos rfl]; simp only [Option.some.injEq]
  · exact tallied_row_same lossy.toTallied fun i => by rw [leg, if_neg (by simpa using away)]
  · simp only [List.flatMap_cons, List.flatMap_nil, returns, List.append_nil]
    exact lossy.returned

/-- The arrival at one leg. -/
theorem legArrival_entered (nearly : Nearly l.egress id s c) (stands : Stands n l c)
    (settled : l.state = some .live → Settled s l.egress) (takes : 0 < d.k) : Entered n d id [l] c (legArrival n d id l c) := by
  by_cases live : l.state = some .live
  · have still := settled live
    by_cases room : l.slot.length < d.k
    · rw [legArrival_room nearly stands live still room]; exact entered_room stands live room
    · cases handling : d.handling with
      | latest =>
        cases slot : l.slot with
        | nil => rw [slot] at room; exact absurd takes room
        | cons old rest =>
          rw [legArrival_latest nearly stands live still room handling slot]
          exact entered_latest stands live room handling slot
      | sequenced =>
        rw [legArrival_overrun nearly stands live still room handling]
        exact entered_overrun stands live room handling
  · exact entered_dead stands live

/-! ### Several legs -/

theorem Stands.entered {y : Leg} (h : Stands n y c) (k : Entered n d id [l] c t) (away : y.egress ≠ l.egress) : Stands n y t := by
  obtain ⟨x, stream, mem, apart⟩ := h
  refine ⟨enterLegs d id [l.egress] x, by rw [k.streams, if_pos rfl, stream]; rfl, ?_, ?_⟩
  · exact List.mem_map.2 ⟨y, mem, by simp [away]⟩
  · have same : (enterLegs d id [l.egress] x).legs.map (·.egress) = x.legs.map (·.egress) := by
      simp only [enterLegs, List.map_map]
      refine List.map_congr_left fun y _ => ?_
      simp only [Function.comp]; split <;> simp
    rw [same]
    exact apart

/-- The frame arrives at each of a stream's legs as it would at that one alone. -/
theorem forAll_entered {ls : List Leg} (apart : (ls.map (·.egress)).Nodup) (nearly : ∀ l ∈ ls, Nearly l.egress id s c)
    (stands : ∀ l ∈ ls, Stands n l c) (settled : ∀ l ∈ ls, l.state = some .live → Settled s l.egress) (takes : 0 < d.k) :
    Entered n d id ls c (forAll ls (legArrival n d id) c) := by
  induction ls generalizing c with
  | nil => exact .nil c
  | cons l ls ih =>
    obtain ⟨away, apart⟩ := List.nodup_cons.1 apart
    have own := List.mem_cons_self (a := l) (l := ls)
    have step := legArrival_entered (nearly l own) (stands l own) (settled l own) takes
    have other {y : Leg} (mem : y ∈ ls) : y.egress ≠ l.egress := fun same => away (List.mem_map.2 ⟨y, mem, same⟩)
    exact step.cons away (ih apart
      (fun y mem => step.nearly (nearly y (List.mem_cons_of_mem _ mem)) (by simpa using other mem))
      (fun y mem => (stands y (List.mem_cons_of_mem _ mem)).entered step (other mem))
      fun y mem => settled y (List.mem_cons_of_mem _ mem))

section
variable {F : FrameBuffer} {r : FrameRecord} {alive k : Nat}

theorem legArrival_holds (nearly : Nearly l.egress r.id s c) (stands : Stands n l c)
    (settled : l.state = some .live → Settled s l.egress) (plain : isLive l = true → hasSpace d l = true ∨ d.handling = .sequenced)
    (pool : r.pool = .motion) (stream : r.stream = some n) (orphan : r.orphan = false) (fits : r.cells ≤ F.motionFree)
    (holds : Holds F r n alive k c) (enough : (if overruns d l then 1 else 0) ≤ k) :
    Holds F r n alive (k - if overruns d l then 1 else 0) (legArrival n d r.id l c) := by
  by_cases live : l.state = some .live
  · have on := isLive_iff.2 live
    by_cases room : l.slot.length < d.k
    · have none : overruns d l = false := by simp [overruns, hasSpace_iff.2 room]
      rw [legArrival_room nearly stands live (settled live) room, none]
      refine holds.same rfl ?_
      rw [modLeg_streams, if_pos rfl]
      cases c.streams[n] <;> rfl
    · have sequenced := (plain on).resolve_left (by rw [hasSpace_false room]; decide)
      have full : overruns d l = true := by simp [overruns, on, hasSpace_false room]
      rw [legArrival_overrun nearly stands live (settled live) room sequenced, full]
      rw [full, if_pos rfl] at enough
      have noted := legDrop_noted (cause := .overrun) rfl n l.egress c
      have left : Holds F r n alive k (legDrop .overrun n l.egress c) :=
        holds.same (congrArg State.buffer noted.only :) (by rw [legDrop_streams])
      exact left.return enough pool stream orphan fits
  · have none : overruns d l = false := by simp [overruns, isLive_false live]
    have noted := legArrival_dead live n d r.id c
    have streams : (legArrival n d r.id l c).streams = c.streams := (congrArg State.streams noted.only :)
    rw [none]
    exact holds.same (congrArg State.buffer noted.only :) (by rw [streams])

/-- Where no LIVE leg replaces a frame, the stored one keeps a reference for each leg that takes it (R56, R102). -/
theorem forAll_holds {ls : List Leg} (apart : (ls.map (·.egress)).Nodup) (nearly : ∀ l ∈ ls, Nearly l.egress r.id s c)
    (stands : ∀ l ∈ ls, Stands n l c) (settled : ∀ l ∈ ls, l.state = some .live → Settled s l.egress) (takes : 0 < d.k)
    (plain : ∀ l ∈ ls, isLive l = true → hasSpace d l = true ∨ d.handling = .sequenced)
    (pool : r.pool = .motion) (stream : r.stream = some n) (orphan : r.orphan = false) (fits : r.cells ≤ F.motionFree)
    (holds : Holds F r n alive k c) (enough : ls.countP (overruns d) ≤ k) :
    Holds F r n alive (k - ls.countP (overruns d)) (forAll ls (legArrival n d r.id) c) := by
  induction ls generalizing c k with
  | nil => exact holds
  | cons l ls ih =>
    obtain ⟨away, apart⟩ := List.nodup_cons.1 apart
    have own := List.mem_cons_self (a := l) (l := ls)
    have step := legArrival_entered (nearly l own) (stands l own) (settled l own) takes
    have other {y : Leg} (mem : y ∈ ls) : y.egress ≠ l.egress := fun same => away (List.mem_map.2 ⟨y, mem, same⟩)
    rw [List.countP_cons] at enough ⊢
    have first := legArrival_holds (nearly l own) (stands l own) (settled l own) (plain l own) pool stream orphan fits holds
      (by omega)
    have rest := ih apart
      (fun y mem => step.nearly (nearly y (List.mem_cons_of_mem _ mem)) (by simpa using other mem))
      (fun y mem => (stands y (List.mem_cons_of_mem _ mem)).entered step (other mem))
      (fun y mem => settled y (List.mem_cons_of_mem _ mem)) (fun y mem => plain y (List.mem_cons_of_mem _ mem)) first (by omega)
    rw [show k - (ls.countP (overruns d) + if overruns d l then 1 else 0) =
      k - (if overruns d l then 1 else 0) - ls.countP (overruns d) by omega]
    exact rest

end

end

end Sys2Proof.MotionLaws
end

section
/-! SUPPORT. The state in which a stored frame of a stream comes to the legs (R55), and what it leaves where no egress starts anything
(R54, R56, R102). -/

namespace Sys2Proof.MotionLaws

open Sys2Proof.Machine Sys2Proof.Safety Sys2Proof.Laws Sys2Proof.CellTime Sys2Proof.PortLaws

/-- The motion frame as it is stored (R123). -/
def streamFrame (s : State) (p : Port) (start : Stamp) (f : RxFrame) (n : StreamNo) (refs : Nat) : FrameRecord :=
  { id := s.buffer.nextId, pool := .motion, cells := (f.bytes.length + 127) / 128, refs := refs, len := f.bytes.length
    ingress := p, ingressStart := start, received := s.timer.grain, stream := some n, cls := none, orphan := false
    bytes := f.bytes }

/-- The frame is stored, and its stream has one more alive (R55). -/
def enteredState (p : Port) (start : Stamp) (n : StreamNo) (x : Stream) (f : RxFrame) (s : State) : State :=
  (storeFrame .motion x.liveLegs p start (some n) none f (matchedState p n s)).modStream n fun t => { t with alive := t.alive + 1 }

section
variable {s : State} {p : Port} {f : RxFrame} {start : Stamp} {n : StreamNo} {x : Stream}

theorem motionArrival_stored (live : ∃ l ∈ x.legs, l.state = some .live) (few : x.alive < 2 * x.desc.k)
    (room : (f.bytes.length + 127) / 128 ≤ s.buffer.motionFree) :
    motionArrival p start n x f (arrivedState p s) =
      forAll x.legs (legArrival n x.desc s.buffer.nextId) (enteredState p start n x f s) := by
  rw [← cellsOf_eq] at room
  unfold motionArrival
  dsimp only
  rw [if_neg (liveLegs_pos live)]
  exact if_neg (not_or.2 ⟨Nat.not_le.2 few, Nat.not_lt.2 room⟩)

/-- The stream of the frame, as it is stored. -/
theorem enteredState_stream (stream : s.streams[n] = some x) :
    (enteredState p start n x f s).streams[n] = some { x with alive := x.alive + 1 } := by
  have streams : (enteredState p start n x f s).streams = Table.upd s.streams n fun _ =>
      s.streams[n].map fun t => { t with alive := t.alive + 1 } := rfl
  rw [streams, upd_get, if_pos rfl, stream]; rfl

theorem enteredState_bare (m : StreamNo) : bare (enteredState p start n x f s) m = bare s m := by
  have streams : (enteredState p start n x f s).streams = Table.upd s.streams n fun _ =>
      s.streams[n].map fun t => { t with alive := t.alive + 1 } := rfl
  rw [bare, streams, upd_get]
  split
  · next same => rw [same, bare]; cases s.streams[n] <;> rfl
  · rfl

theorem enteredState_leg (m : StreamNo) (e : Port) : (enteredState p start n x f s).leg m e = s.leg m e :=
  leg_congr (enteredState_bare m) e

theorem enteredState_frame (ok : CellsOk s.buffer) :
    (enteredState p start n x f s).frame s.buffer.nextId = some (streamFrame s p start f n x.liveLegs) := by
  have own := storeFrame_frame (s := matchedState p n s) ok .motion x.liveLegs p start (some n) none f
  refine own.trans ?_
  rw [cellsOf_eq]
  rfl

theorem enteredState_otherFrame {i : FrameId} (other : i ≠ s.buffer.nextId) :
    (enteredState p start n x f s).frame i = s.frame i :=
  storeFrame_other (s := matchedState p n s) .motion x.liveLegs p start (some n) none f other

/-- Every egress sees the stored frame as one it does not hold yet. -/
theorem enteredState_behind (ok : CellsOk s.buffer) (e : Port) : Behind e s.buffer.nextId s (enteredState p start n x f s) := by
  have arrived := arrivedState_arrived p s
  have slot (m) : (enteredState p start n x f s).slotOf m e = s.slotOf m e := slotOf_of_leg (enteredState_leg m e)
  exact
    { timer := rfl
      engine := rfl
      link := arrived.keeps (·.link) (fun _ => rfl) e
      hold := arrived.keeps (·.hold) (fun _ => rfl) e
      wire := rfl
      openWindow := rfl
      timeline := rfl
      nextWindow := rfl
      queues := fun _ => .inl rfl
      unready := fun r stored => by
        rw [enteredState_frame ok] at stored
        cases stored
        show s.since s.timer.grain < 120
        rw [since_now]; decide
      frames := fun i r other stored => ⟨r, by rw [← enteredState_otherFrame other]; exact stored, rfl, rfl⟩
      descs := fun m => desc_of_settled (settled_of_bare enteredState_bare m)
      legs := fun m => by rw [enteredState_leg]
      slots := fun m i mem => .inr (by rw [← slot]; exact mem)
      absent := frame_fresh ok
      others := fun i other => enteredState_otherFrame other
      appended := fun m => .inl (slot m) }

theorem enteredState_holds (ok : CellsOk s.buffer) (stream : s.streams[n] = some x) (live : x.liveLegs ≠ 0) :
    Holds s.buffer (streamFrame s p start f n 0) n x.alive x.liveLegs (enteredState p start n x f s) := by
  have pos : 0 < x.liveLegs := Nat.pos_of_ne_zero live
  refine ⟨?_, rfl, ?_, ?_⟩
  · rw [if_pos pos]
    exact congrArg (s.buffer.motionFree - ·) (cellsOf_eq _)
  · rw [if_pos pos]; exact enteredState_frame ok
  · rw [if_pos pos, enteredState_stream stream]; rfl

theorem enteredState_stands (stream : s.streams[n] = some x) (apart : (x.legs.map (·.egress)).Nodup) {l : Leg} (mem : l ∈ x.legs) :
    Stands n l (enteredState p start n x f s) :=
  ⟨{ x with alive := 0 }, by rw [enteredState_bare, bare, stream]; rfl, mem, apart⟩

/-! ### After the event -/

/-- The LIVE legs take the frame or are overrun by it. -/
theorem count_live (d : Desc) (ls : List Leg) :
    ls.countP isLive = ls.countP (fun l => isLive l && hasSpace d l) + ls.countP (overruns d) := by
  induction ls with
  | nil => rfl
  | cons l ls ih =>
    simp only [List.countP_cons, ih, overruns]
    by_cases on : isLive l = true
    · by_cases space : hasSpace d l = true
      · simp [on, space]; omega
      · simp [on, space]; omega
    · simp [on]

/-- What the frame returns where one leg alone is LIVE and lets its oldest frame go. -/
theorem returns_single {d : Desc} {id : FrameId} {ls : List Leg} {l : Leg} (single : ls.filter isLive = [l]) :
    ls.flatMap (arrivalReturns d id) = arrivalReturns d id l := by
  have only (ls : List Leg) : ls.flatMap (arrivalReturns d id) = (ls.filter isLive).flatMap (arrivalReturns d id) := by
    induction ls with
    | nil => rfl
    | cons y ys ih =>
      cases on : isLive y with
      | true => simp [on, ih]
      | false => simp [on, ih, arrivalReturns]
  rw [only, single]
  simp

/-- The stream of the frame after it arrived at every leg. -/
theorem Entered.stream {c : State} {id : FrameId} (h : Entered n x.desc id x.legs (enteredState p start n x f s) c)
    (stream : s.streams[n] = some x) : ∃ y, c.streams[n] = some y ∧ y.legs = x.legs.map (arrivedLeg x.desc id) := by
  have bares := h.streams n
  rw [if_pos rfl, enteredState_bare, bare, bare, stream, Option.map_some, Option.map_some] at bares
  obtain ⟨y, hy, same⟩ := Option.map_eq_some_iff.1 bares
  refine ⟨y, hy, Eq.trans (congrArg Machine.Stream.legs same :) ?_⟩
  refine List.map_congr_left fun l mem => if_pos (List.mem_map.2 ⟨l, mem, rfl⟩)

end

end Sys2Proof.MotionLaws
end

section
/-! SUPPORT. A stored frame that a single LIVE leg takes, and the try of its egress (R54, R102, R104). -/

namespace Sys2Proof.MotionLaws

open Sys2Proof.Machine Sys2Proof.Safety Sys2Proof.Laws Sys2Proof.CellTime Sys2Proof.PortLaws

section
variable {s c t : State} {n : StreamNo} {d : Desc} {id : FrameId} {l : Leg}

/-- Counts, flags and reports leave what an egress sees. -/
theorem Behind.noted {e : Port} (h : Behind e id s c) {a : Tally} (noted : Noted c t a) : Behind e id s t := by
  have buffer : t.buffer = c.buffer := (congrArg State.buffer noted.only :)
  have streams : t.streams = c.streams := (congrArg State.streams noted.only :)
  have frame (i) : t.frame i = c.frame i := by rw [State.frame, buffer]; rfl
  have leg (m) : t.leg m e = c.leg m e := leg_of_streams streams m e
  have slot (m) : t.slotOf m e = c.slotOf m e := slotOf_of_leg (leg m)
  have near : Nearly e id s t :=
    h.toNearly.step (congrArg State.timer noted.only :) (congrArg State.engine noted.only :) (noted.ports e).rest
        (congrArg (fun x : State => x.egress[e]) noted.only :)
        (fun i r stored => ⟨r, by rw [← frame]; exact stored, rfl, rfl⟩) (fun m => by rw [streams]) (fun m => by rw [leg])
        (fun m i mem => .inr (by rw [← slot]; exact mem))
  exact { near with
    absent := h.absent, others := fun i other => (frame i).trans (h.others i other)
    appended := fun m => by rw [slot]; exact h.appended m }

theorem joinedLeg_slotOf (m : StreamNo) (e : Port) (c : State) : (c.modLeg n e (joinedLeg id)).slotOf m e =
    if m = n then (c.leg n e).elim [] (fun l => l.slot ++ [id]) else c.slotOf m e := by
  rw [slotOf_eq, modLeg_leg (f := joinedLeg id) (fun _ => rfl)]
  by_cases same : m = n
  · subst same
    rw [if_pos ⟨rfl, rfl⟩, if_pos rfl]
    cases c.leg m e <;> rfl
  · rw [if_neg fun k => same k.1, if_neg same]; rfl

/-- The frame joins the slot of one leg. -/
theorem Behind.append {e : Port} (h : Behind e id s c) (held : c.slotOf n e = s.slotOf n e) (leg : c.leg n e = some l) :
    Behind e id s (c.modLeg n e (joinedLeg id)) := by
  have near := h.toNearly.modLeg (n := n) (f := joinedLeg id) (fun _ => rfl) fun y _ i mem => by
    rcases List.mem_append.1 mem with old | new
    · exact .inr old
    · exact .inl (List.mem_singleton.1 new)
  refine { near with absent := h.absent, others := h.others, appended := fun m => ?_ }
  rw [joinedLeg_slotOf]
  split
  · next same =>
    rw [leg, same, ← held, slotOf_leg leg]
    exact .inr rfl
  · exact h.appended m

/-- A slot with room takes the frame, and the egress makes its try (R102, R104). -/
theorem legArrival_takes (leg : c.leg n l.egress = some l) (live : l.state = some .live) (room : l.slot.length < d.k) :
    legArrival n d id l c = choose l.egress (c.modLeg n l.egress (joinedLeg id)) := by
  simp only [legArrival, live, slotEntry, slotOf_leg leg, room, if_true]
  rfl

end

/-! ### A single LIVE leg -/

/-- Before and after the single LIVE leg the others count their drops. -/
structure Around (n : StreamNo) (l : Leg) (u v : State) : Prop where
  only : { v with ports := u.ports, legCounters := u.legCounters, fault := u.fault } = u
  units : ∀ e : Port, { v.ports[e] with counters := u.ports[e].counters, flags := u.ports[e].flags } = u.ports[e]
  rows : ∀ m : StreamNo, v.legCounters[legIndex m l.egress] = u.legCounters[legIndex m l.egress]
  reports : ∀ i : Fin 28, i = 8 ∨ i = 9 → reportsOf i v.fault.inbox = reportsOf i u.fault.inbox

theorem forAll_around {n : StreamNo} {d : Desc} {id : FrameId} {l : Leg} {ls : List Leg} (dead : ∀ y ∈ ls, y.state ≠ some .live)
    (away : l.egress ∉ ls.map (·.egress)) (u : State) : Around n l u (forAll ls (legArrival n d id) u) := by
  have noted := forAll_dead dead n d id u
  refine ⟨noted.only, fun e => (noted.ports e).rest, fun m => tallied_row_same noted.toTallied fun i => ?_, fun i which => ?_⟩
  · rw [Tally.sum_leg]
    refine List.sum_eq_zero fun k mem => ?_
    obtain ⟨a, ha, rfl⟩ := List.mem_map.1 mem
    obtain ⟨y, hy, rfl⟩ := List.mem_map.1 ha
    exact deadTally_away n m (fun same => away (List.mem_map.2 ⟨y, hy, same.symm⟩)) i
  · rw [noted.reports, Tally.sum_reports, List.sum_eq_zero, Nat.add_zero]
    intro k mem
    obtain ⟨a, ha, rfl⟩ := List.mem_map.1 mem
    obtain ⟨y, -, rfl⟩ := List.mem_map.1 ha
    exact deadTally_reports n y which

/-- Legs of which one alone is LIVE. -/
theorem split_single {ls : List Leg} {l : Leg} (single : ls.filter isLive = [l]) :
    ∃ pre post, ls = pre ++ l :: post ∧ l.state = some .live ∧ (∀ y ∈ pre, y.state ≠ some .live) ∧
      ∀ y ∈ post, y.state ≠ some .live := by
  obtain ⟨pre, post, rfl, before, on, after⟩ := List.filter_eq_cons_iff.1 single
  refine ⟨pre, post, rfl, isLive_iff.1 on, fun y mem live => before y mem (isLive_iff.2 live), fun y mem live => ?_⟩
  exact List.filter_eq_nil_iff.1 after y mem (isLive_iff.2 live)

section
variable {s : State} {p : Port} {f : RxFrame} {start : Stamp} {n : StreamNo} {x : Stream} {l : Leg}

/-- The stored frame of a stream with the single LIVE leg `l`, which has room: what its egress sees when it makes its try, and what
the event leaves beside that. -/
theorem single_arrival (ok : CellsOk s.buffer) (stream : s.streams[n] = some x) (apart : (x.legs.map (·.egress)).Nodup)
    (single : x.legs.filter isLive = [l]) (room : l.slot.length < x.desc.k) :
    ∃ c, Behind l.egress s.buffer.nextId s c ∧ c.egress = s.egress ∧ c.deviceCounters = s.deviceCounters ∧
      (∀ i, i = 8 ∨ i = 9 → reportsOf i c.fault.inbox = reportsOf i s.fault.inbox) ∧
      (∀ m : StreamNo, c.legCounters[legIndex m l.egress] = s.legCounters[legIndex m l.egress]) ∧
      (∀ m, c.slotOf m l.egress = if m = n then l.slot ++ [s.buffer.nextId] else s.slotOf m l.egress) ∧
      c.frame s.buffer.nextId = some (streamFrame s p start f n x.liveLegs) ∧
      Around n l (choose l.egress c)
        (forAll x.legs (legArrival n x.desc s.buffer.nextId) (enteredState p start n x f s)) := by
  obtain ⟨pre, post, legs, live, before, after⟩ := split_single single
  have mem : l ∈ x.legs := by rw [legs]; simp
  have egresses := apart
  rw [legs, List.map_append, List.map_cons, List.nodup_append] at egresses
  obtain ⟨-, behindPost, cross⟩ := egresses
  have awayPre : l.egress ∉ pre.map (·.egress) := fun hit => cross _ hit _ (List.mem_cons_self ..) rfl
  have awayPost : l.egress ∉ post.map (·.egress) := (List.nodup_cons.1 behindPost).1
  have noted := forAll_dead before n x.desc s.buffer.nextId (enteredState p start n x f s)
  have around := forAll_around (n := n) (d := x.desc) (id := s.buffer.nextId) before awayPre (enteredState p start n x f s)
  have run : forAll x.legs (legArrival n x.desc s.buffer.nextId) (enteredState p start n x f s) =
      forAll post (legArrival n x.desc s.buffer.nextId) (legArrival n x.desc s.buffer.nextId l
        (forAll pre (legArrival n x.desc s.buffer.nextId) (enteredState p start n x f s))) := by
    rw [legs, forAll, List.foldl_append]; rfl
  rw [run]
  generalize forAll pre (legArrival n x.desc s.buffer.nextId) (enteredState p start n x f s) = u at noted around
  have streams : u.streams = (enteredState p start n x f s).streams := (congrArg State.streams around.only :)
  have buffer : u.buffer = (enteredState p start n x f s).buffer := (congrArg State.buffer around.only :)
  have leg (m) : u.leg m l.egress = s.leg m l.egress := (leg_of_streams streams m _).trans (enteredState_leg m _)
  have own : u.leg n l.egress = some l := by
    rw [leg, leg_eq_bare, bare, stream]
    exact find_leg apart mem
  have behind := ((enteredState_behind (p := p) (f := f) (start := start) (n := n) (x := x) ok l.egress).noted noted).append
    (slotOf_of_leg (leg n)) own
  refine ⟨u.modLeg n l.egress (joinedLeg s.buffer.nextId), behind, (congrArg State.egress around.only :),
    (congrArg State.deviceCounters around.only :), around.reports, around.rows, fun m => ?_, ?_, ?_⟩
  · rw [joinedLeg_slotOf, own, slotOf_of_leg (leg m)]; rfl
  · rw [State.frame, State.modLeg_buffer, buffer]
    exact enteredState_frame ok
  · rw [legArrival_takes own live room]
    exact forAll_around after awayPost _

end

end Sys2Proof.MotionLaws
end

section
/-! FRAME_END of a good frame of a stream (R52 to R56, R102), clause by clause, and the statement on it. -/

namespace Sys2Proof.MotionLaws

open Sys2Proof.Machine Sys2Proof.Safety Sys2Proof.Laws Sys2Proof.CellTime Sys2Proof.PortLaws

section
variable {s : State} {p : Port} {f : RxFrame} {start : Stamp} {n : StreamNo} {x : Stream}

/-- A counter of the port that a good frame's end leaves. -/
theorem arrivedState_counter (p : Port) (s : State) {i : Fin 21} (other : i ≠ 0) :
    (arrivedState p s).ports[p].counters[i] = s.ports[p].counters[i] := by
  rw [(arrivedState_arrived p s).unit]
  exact upd_other _ _ _ _ other

/-! ### Not stored (R33, R53 to R55) -/

/-- Longer than Lmax the frame is dropped at the ingress (R53). -/
theorem oversize_dropped (quiet : s.fault.inbox = []) (n : StreamNo) :
    let t := takeReports (streamOversize p n (arrivedState p s))
    t.buffer = s.buffer ∧ t.streams = s.streams ∧ t.ports[p].counters[7] = satInc s.ports[p].counters[7] ∧
      t.streamCounters[n][1] = satInc s.streamCounters[n][1] ∧ t.deviceCounters = Table.upd s.deviceCounters 6 satInc := by
  have drop := ingressDrop_noted p .streamOversize (some n) (arrivedState p s)
  have inbox : ∃ r : Report, r.fields.cause = .streamOversize ∧ (streamOversize p n (arrivedState p s)).fault.inbox = [r] :=
    ⟨_, rfl, congrArg (· ++ [_]) quiet⟩
  obtain ⟨r, cause, one⟩ := inbox
  refine ⟨by rw [takeReports_buffer]; rfl, by rw [takeReports_streams]; rfl, ?_, ?_, ?_⟩
  · have flagged : (streamOversize p n (arrivedState p s)).ports[p] =
        flagging .motionDrop (ingressDrop p .streamOversize (some n) (arrivedState p s)).ports[p] :=
      (upd_get ..).trans (if_pos rfl)
    rw [takeReports_ports, flagged]
    refine ((drop.ports p).counters 7).trans ?_
    have one : (ingressTally p .streamOversize).port p 7 = 1 := by
      simp [ingressTally, Tally.add, Tally.ofPort, Tally.ofReport, Tally.none]
      rfl
    rw [one, arrivedState_counter p s (by decide)]
    rfl
  · have row : (streamOversize p n (arrivedState p s)).streamCounters[n] = Table.upd s.streamCounters[n] 1 satInc :=
      (upd_get ..).trans (if_pos rfl)
    have counters : (takeReports (streamOversize p n (arrivedState p s))).streamCounters =
        (streamOversize p n (arrivedState p s)).streamCounters := (congrArg State.streamCounters (takeReports_only _).rest :)
    rw [counters, row]
    exact upd_same s.streamCounters[n] 1 satInc
  · rw [takeReports_deviceCounters_one one, cause]; rfl

theorem takeReports_streamCounters (c : State) : (takeReports c).streamCounters = c.streamCounters :=
  (congrArg State.streamCounters (takeReports_only c).rest :)

/-- The drops by the states of legs that are not LIVE (R49). -/
theorem dead_counters {t : State} {l : Leg}
    (row : ∀ k, l.state ≠ some .live → deadCounter l = some k →
      t.legCounters[legIndex n l.egress] = Table.upd s.legCounters[legIndex n l.egress] k satInc) :
    (l.state = some .dormant → t.legCounters[legIndex n l.egress] = Table.upd s.legCounters[legIndex n l.egress] 9 satInc) ∧
    (l.state = some .mismatch → t.legCounters[legIndex n l.egress] = Table.upd s.legCounters[legIndex n l.egress] 10 satInc) ∧
    (l.state = some .suspended → t.legCounters[legIndex n l.egress] = Table.upd s.legCounters[legIndex n l.egress] 11 satInc) := by
  refine ⟨fun state => row 9 ?_ ?_, fun state => row 10 ?_ ?_, fun state => row 11 ?_ ?_⟩ <;> simp [deadCounter, state]

/-- With no LIVE leg each leg counts the drop of its state (R54). -/
theorem dead_arrival (apart : (x.legs.map (·.egress)).Nodup) (dead : ∀ l ∈ x.legs, l.state ≠ some .live) :
    let t := takeReports (forAll x.legs (legArrival n x.desc s.buffer.nextId) (matchedState p n s))
    t.buffer = s.buffer ∧ t.streams = s.streams ∧ t.streamCounters[n][0] = satInc s.streamCounters[n][0] ∧
      ∀ l ∈ x.legs, ∀ k, deadCounter l = some k →
        t.legCounters[legIndex n l.egress] = Table.upd s.legCounters[legIndex n l.egress] k satInc := by
  have noted := forAll_dead dead n x.desc s.buffer.nextId (matchedState p n s)
  refine ⟨?_, ?_, ?_, fun l mem k counter => ?_⟩
  · rw [takeReports_buffer]; exact (congrArg State.buffer noted.only :)
  · rw [takeReports_streams]; exact (congrArg State.streams noted.only :)
  · have counters : (forAll x.legs (legArrival n x.desc s.buffer.nextId) (matchedState p n s)).streamCounters =
        (matchedState p n s).streamCounters := (congrArg State.streamCounters noted.only :)
    rw [takeReports_streamCounters, counters]
    exact matchedState_counter p n s
  · rw [takeReports_legCounters]; exact dead_row apart noted mem counter

/-- The storage check refuses the frame (R33, R55). -/
theorem refused_arrival (quiet : s.fault.inbox = []) (apart : (x.legs.map (·.egress)).Nodup) :
    let t := takeReports (motionRefused p n x (matchedState p n s))
    t.buffer = s.buffer ∧ t.streams = s.streams ∧ t.ports[p].counters[8] = satInc s.ports[p].counters[8] ∧
      t.deviceCounters = Table.upd s.deviceCounters 7 satInc ∧
      ∀ l ∈ x.legs, t.legCounters[legIndex n l.egress] = Table.upd s.legCounters[legIndex n l.egress] 8 satInc := by
  have noted := motionRefused_noted p n x (matchedState p n s)
  refine ⟨?_, ?_, ?_, ?_, fun l mem => ?_⟩
  · rw [takeReports_buffer]; exact (congrArg State.buffer noted.only :)
  · rw [takeReports_streams]; exact (congrArg State.streams noted.only :)
  · rw [takeReports_ports]
    refine ((noted.ports p).counters 8).trans ?_
    have one : ((ingressTally p .noBuffer).add (.sum (x.legs.map (refusedTally n)))).port p 8 = 1 := by
      show (ingressTally p .noBuffer).port p 8 + (Tally.sum _).port p 8 = 1
      rw [refused_port]
      simp [ingressTally, Tally.add, Tally.ofPort, Tally.ofReport, Tally.none]
      rfl
    have kept : (matchedState p n s).ports[p].counters[(8 : Fin 21)] = s.ports[p].counters[(8 : Fin 21)] :=
      arrivedState_counter p s (by decide)
    rw [one, kept]
    rfl
  · refine table_ext fun i => ?_
    have device : (motionRefused p n x (matchedState p n s)).deviceCounters = s.deviceCounters :=
      (congrArg State.deviceCounters noted.only :)
    have inbox : (matchedState p n s).fault.inbox = [] := quiet
    have count : ((ingressTally p .noBuffer).add (.sum (x.legs.map (refusedTally n)))).reports i = if i = 7 then 1 else 0 := by
      show (ingressTally p .noBuffer).reports i + (Tally.sum _).reports i = _
      rw [refused_reports]
      simp [ingressTally, Tally.add, Tally.ofPort, Tally.ofReport, Tally.none]
      rfl
    rw [takeReports_deviceCounters, noted.reports, device, inbox, reportsOf_nil, count, upd_get]
    by_cases here : i = 7
    · rw [if_pos here, if_pos here, here]; rfl
    · rw [if_neg here, if_neg here]; rfl
  · rw [takeReports_legCounters]; exact refused_row apart noted mem

/-- A frame of a stream that is not ACTIVE counts an unreserved pass and takes the best-effort path (R52). -/
theorem unreserved_pass (p : Port) (start : Stamp) (f : RxFrame) (n : StreamNo) (s : State) :
    let t := takeReports (bestEffort p start f (bumpStream n .unreserved (arrivedState p s)))
    t.streamCounters = Table.upd s.streamCounters n (fun c => Table.upd c 2 satInc) ∧
      t.ports[p].counters[0] = satInc s.ports[p].counters[0] := by
  have learned := learn_is_learned p f (bumpStream n .unreserved (arrivedState p s))
  have forwarded := bestEffort_forwarded p start f (bumpStream n .unreserved (arrivedState p s))
  refine ⟨?_, ?_⟩
  · rw [takeReports_streamCounters]
    exact (congrArg State.streamCounters forwarded.rest :).trans (congrArg State.streamCounters learned.rest :)
  · have ports : (learn p f (bumpStream n .unreserved (arrivedState p s))).ports = (arrivedState p s).ports :=
      (congrArg State.ports learned.rest :)
    rw [takeReports_ports, forwarded.good, ports, (arrivedState_arrived p s).unit]
    exact upd_same s.ports[p].counters 0 satInc

/-! ### Stored, where no egress starts anything (R54, R56, R102) -/

/-- What a stored frame leaves that comes to legs whose egresses start nothing. -/
structure StoredQuietly (s : State) (p : Port) (start : Stamp) (f : RxFrame) (n : StreamNo) (x : Stream) (t : State) (y : Stream) :
    Prop where
  stream : t.streams[n] = some y
  matched : t.streamCounters[n][0] = satInc s.streamCounters[n][0]
  egress : t.egress = s.egress
  legs : y.legs = x.legs.map (arrivedLeg x.desc s.buffer.nextId)
  rows : ∀ l ∈ x.legs, t.legCounters[legIndex n l.egress] =
    countRow (arrivalCounter x.desc l) s.legCounters[legIndex n l.egress]
  plain : (∀ l ∈ x.legs, isLive l = true → hasSpace x.desc l = true ∨ x.desc.handling = .sequenced) →
    Holds s.buffer (streamFrame s p start f n 0) n x.alive (x.legs.countP fun l => isLive l && hasSpace x.desc l) t
  single : ∀ l old rest r, x.desc.handling = .latest → x.legs.filter isLive = [l] → hasSpace x.desc l = false →
    l.slot = old :: rest → s.frame old = some r → t.frame s.buffer.nextId = some (streamFrame s p start f n 1) ∧
      t.frame old = if r.refs ≤ 1 then none else some { r with refs := r.refs - 1 }

theorem stored_arrival (ok : CellsOk s.buffer) (stream : s.streams[n] = some x) (apart : (x.legs.map (·.egress)).Nodup)
    (live : ∃ l ∈ x.legs, l.state = some .live) (few : x.alive < 2 * x.desc.k)
    (room : (f.bytes.length + 127) / 128 ≤ s.buffer.motionFree)
    (settled : ∀ l ∈ x.legs, l.state = some .live → Settled s l.egress) :
    ∃ y, StoredQuietly s p start f n x
      (takeReports (forAll x.legs (legArrival n x.desc s.buffer.nextId) (enteredState p start n x f s))) y := by
  have nearly (l) (_ : l ∈ x.legs) := (enteredState_behind (p := p) (f := f) (start := start) (n := n) (x := x) ok l.egress).toNearly
  have stands (l) (mem : l ∈ x.legs) := enteredState_stands (p := p) (f := f) (start := start) stream apart mem
  have takes : 0 < x.desc.k := by omega
  have entered := forAll_entered apart nearly stands settled takes
  obtain ⟨y, hy, legs⟩ := entered.stream stream
  have liveSome : x.liveLegs ≠ 0 := liveLegs_pos live
  refine ⟨y, ⟨by rw [takeReports_streams]; exact hy, ?_, ?_, legs, fun l mem => ?_, fun plain => ?_, ?_⟩⟩
  · have counters : (forAll x.legs (legArrival n x.desc s.buffer.nextId) (enteredState p start n x f s)).streamCounters =
        (matchedState p n s).streamCounters := (congrArg State.streamCounters entered.rest :)
    rw [takeReports_streamCounters, counters]
    exact matchedState_counter p n s
  · rw [takeReports_egress]; exact (congrArg State.egress entered.rest :)
  · rw [takeReports_legCounters]; exact entered.rows l mem
  · have count : x.liveLegs = x.legs.countP (fun l => isLive l && hasSpace x.desc l) + x.legs.countP (overruns x.desc) :=
      count_live x.desc x.legs
    have enough : x.legs.countP (overruns x.desc) ≤ x.liveLegs := count ▸ Nat.le_add_left ..
    have holds := forAll_holds (r := streamFrame s p start f n 0) apart nearly stands settled takes plain rfl rfl rfl room
      (enteredState_holds ok stream liveSome) enough
    rw [Nat.sub_eq_of_eq_add count] at holds
    exact holds.same (takeReports_buffer _) (by rw [takeReports_streams]; rfl)
  · intro l old rest r latest single full slot stored
    have returned := entered.returned
    rw [returns_single single] at returned
    have on : isLive l = true := (List.mem_filter.1 (by rw [single]; exact List.mem_singleton_self l)).2
    have ids : arrivalReturns x.desc s.buffer.nextId l = [old] := by simp [arrivalReturns, on, full, latest, slot]
    have one : x.liveLegs = 1 := by
      show x.legs.countP isLive = 1
      rw [List.countP_eq_length_filter, single]; rfl
    have other : old ≠ s.buffer.nextId := by
      rintro rfl
      rw [frame_fresh ok] at stored; cases stored
    rw [ids] at returned
    have frame (i) : (takeReports (forAll x.legs (legArrival n x.desc s.buffer.nextId) (enteredState p start n x f s))).frame i =
        (forAll x.legs (legArrival n x.desc s.buffer.nextId) (enteredState p start n x f s)).frame i := by
      rw [State.frame, takeReports_buffer]; rfl
    have new := returned.frames s.buffer.nextId _ (enteredState_frame ok)
    have gone := returned.frames old r (by rw [enteredState_otherFrame other]; exact stored)
    have unmarked : r.stream.any (fun _ => false) = false := by cases r.stream <;> rfl
    refine ⟨?_, ?_⟩
    · rw [frame, new, one]
      simp [other, streamFrame]
    · rw [frame, gone]
      simp [unmarked]

/-! ### Stored, where the egress of a single LIVE leg makes its try (R102, R104) -/

section
variable {l : Leg} {c v : State}

theorem around_slotOf {u : State} (h : Around n l u v) (m : StreamNo) (e : Port) : (takeReports v).slotOf m e = u.slotOf m e := by
  have streams : (takeReports v).streams = u.streams := (takeReports_streams v).trans (congrArg State.streams h.only :)
  exact slotOf_congr streams m e

theorem around_egress {u : State} (h : Around n l u v) : (takeReports v).egress = u.egress :=
  (takeReports_egress v).trans (congrArg State.egress h.only :)

theorem around_row {u : State} (h : Around n l u v) (m : StreamNo) :
    (takeReports v).legCounters[legIndex m l.egress] = u.legCounters[legIndex m l.egress] := by
  rw [takeReports_legCounters]; exact h.rows m

/-- A best-effort frame that may start does. -/
theorem single_bestEffort {k : ClassNo} {r : FrameRecord} {rest : List FrameId} {speed : Speed}
    (behind : Behind l.egress s.buffer.nextId s c) (egress : c.egress = s.egress)
    (slots : ∀ m, c.slotOf m l.egress = if m = n then l.slot ++ [s.buffer.nextId] else s.slotOf m l.egress)
    (around : Around n l (choose l.egress c) v) (free : s.ports[l.egress].hold = false)
    (begins : BestEffortStart s l.egress k r rest speed) :
    (takeReports v).egress[l.egress].wire = some ⟨r.id, s.timer.grain, .bestEffort⟩ ∧
      (takeReports v).egress[l.egress].queues[k] = rest ∧
      (takeReports v).slotOf n l.egress = l.slot ++ [s.buffer.nextId] := by
  have run := choose_bestEffort (behind.bestEffort begins) (behind.hold.trans free)
  rw [around_egress around, around_slotOf around, run, startBestEffort_egress, egress]
  refine ⟨by rw [behind.timer], ?_, ?_⟩
  · refine (upd_get ..).trans ((if_pos rfl).trans ?_)
    rw [begins.queue]; rfl
  · refine (slotOf_congr (s := c) rfl n l.egress).trans ?_
    rw [slots, if_pos rfl]

/-- A motion frame that may start does. -/
theorem single_motion {o : OpenWindow} {y : Stream} {z : Leg} {r : FrameRecord} {rest : List FrameId} {speed : Speed}
    (behind : Behind l.egress s.buffer.nextId s c) (egress : c.egress = s.egress)
    (rows : ∀ m : StreamNo, c.legCounters[legIndex m l.egress] = s.legCounters[legIndex m l.egress])
    (slots : ∀ m, c.slotOf m l.egress = if m = n then l.slot ++ [s.buffer.nextId] else s.slotOf m l.egress)
    (leg : s.leg n l.egress = some l) (around : Around n l (choose l.egress c) v) (free : s.ports[l.egress].hold = false)
    (begins : MotionStart s l.egress o y z r rest speed) :
    (takeReports v).egress[l.egress].wire =
        some ⟨r.id, s.timer.grain, .motion o.window.stream (y.desc.twin != .off)⟩ ∧
      (takeReports v).egress[l.egress].openWindow =
        some { o with sent := o.sent + 1, released := decide (y.desc.k ≤ o.sent + 1) } ∧
      (takeReports v).slotOf o.window.stream l.egress = rest ++ (if o.window.stream = n then [s.buffer.nextId] else []) ∧
      (o.window.stream ≠ n → (takeReports v).slotOf n l.egress = l.slot ++ [s.buffer.nextId]) ∧
      (takeReports v).legCounters[legIndex o.window.stream l.egress] =
        Table.upd s.legCounters[legIndex o.window.stream l.egress] 0 satInc := by
  obtain ⟨y', z', desc, begins'⟩ := behind.motion begins
  have run := choose_motion begins' (behind.hold.trans free)
  have started := startMotion_started l.egress speed.factor o y'.desc r c
  have booked := startMotion_booked l.egress speed.factor o y'.desc r c
  have legs := startMotion_leg l.egress speed.factor o y'.desc r c n l.egress
  have old : s.slotOf o.window.stream l.egress = r.id :: rest := (slotOf_leg begins.leg).trans begins.slot
  rw [around_egress around, around_slotOf around, around_slotOf around, around_row around, run, started.egress, started.slot,
    slots, booked.legCounters, egress, behind.timer, desc]
  refine ⟨rfl, rfl, ?_, fun other => ?_, ?_⟩
  · by_cases own : o.window.stream = n
    · rw [if_pos own, if_pos own]
      rw [own, slotOf_leg leg] at old
      rw [old]; rfl
    · rw [if_neg own, if_neg own, old]; exact (List.append_nil rest).symm
  · rw [← desc, slotOf_of_leg (legs.trans (if_neg fun k => other k.1.symm)), slots, if_pos rfl]
  · refine (upd_get ..).trans ((if_pos rfl).trans ?_)
    rw [rows]

/-- An older head of the slot that is STALE or LATE is dropped, and the frame behind it, not yet ready, waits. -/
theorem single_drop {o : OpenWindow} {a : FrameRecord} {k : Fin 13} {d : Fin 28} {speed : Speed}
    (behind : Behind l.egress s.buffer.nextId s c) (egress : c.egress = s.egress) (device : c.deviceCounters = s.deviceCounters)
    (reports : ∀ i, i = 8 ∨ i = 9 → reportsOf i c.fault.inbox = reportsOf i s.fault.inbox) (quiet : s.fault.inbox = [])
    (rows : ∀ m : StreamNo, c.legCounters[legIndex m l.egress] = s.legCounters[legIndex m l.egress])
    (slots : ∀ m, c.slotOf m l.egress = if m = n then l.slot ++ [s.buffer.nextId] else s.slotOf m l.egress)
    (stored : c.frame s.buffer.nextId = some (streamFrame s p start f n x.liveLegs))
    (stream : s.streams[n] = some x) (leg : s.leg n l.egress = some l) (around : Around n l (choose l.egress c) v)
    (free : s.ports[l.egress].hold = false) (up : s.ports[l.egress].link = .up speed) (idle : s.egress[l.egress].wire = none)
    (opened : s.egress[l.egress].openWindow = some o) (primary : o.window.kind = .primary) (unreleased : o.released = false)
    (own : o.window.stream = n) (room : o.sent < x.desc.k) (within : s.phase < o.window.stop) (slot : l.slot = [a.id])
    (fails : Fails s o.window x a speed k d) :
    (takeReports v).egress[l.egress] = s.egress[l.egress] ∧ (takeReports v).slotOf n l.egress = [s.buffer.nextId] ∧
      (takeReports v).legCounters[legIndex n l.egress] = Table.upd s.legCounters[legIndex n l.egress] k satInc ∧
      (takeReports v).deviceCounters[d] = satInc s.deviceCounters[d] ∧
      (takeReports v).frame a.id = if a.refs ≤ 1 then none else some { a with refs := a.refs - 1 } := by
  subst own
  obtain ⟨y, z, stream', desc, leg'⟩ := behind.leg stream leg
  have slot' : z.slot = [a.id, s.buffer.nextId] := by
    rw [← slotOf_leg leg', slots, if_pos rfl, slot]; rfl
  have head : c.frame a.id = some a := behind.stored fails.1
  have opened' : c.egress[l.egress].openWindow = some o := by rw [egress]; exact opened
  obtain ⟨cause, counter, tried, dropCounter, index, total⟩ :=
    fails_tried (c := c) (o := o) (rest := [s.buffer.nextId]) fails rfl behind.timer head room within
  rw [← desc, ← slot'] at tried
  obtain ⟨fuel, run⟩ := choose_drop (behind.link.trans up) (behind.wire.trans idle) (behind.hold.trans free)
    opened' primary unreleased stream' leg' tried
  have drop : HeadDropped o.window.stream l.egress a.id k d c (dropHead cause o.window.stream l.egress a.id c) :=
    index ▸ total ▸ dropHead_dropped dropCounter o.window.stream l.egress a.id c
  generalize dropHead cause o.window.stream l.egress a.id c = u at run drop
  have other : (streamFrame s p start f o.window.stream x.liveLegs).id ≠ a.id := by
    intro same
    have absent : s.frame a.id = none := same ▸ behind.absent
    rw [fails.1] at absent; cases absent
  have waits := drop.other other stored
  obtain ⟨y', stream'', desc', leg''⟩ := drop.stream stream' leg'
  have left : (headGone z).slot = [s.buffer.nextId] := by rw [headGone, slot']; rfl
  have soon : u.since (streamFrame s p start f o.window.stream x.liveLegs).received < 120 := by
    rw [State.since, drop.timer, behind.timer]
    show s.since s.timer.grain < 120
    rw [since_now]; decide
  have nothing := tryHead_unready (g := speed.factor) (o := o) (d := y'.desc) (rest := []) waits soon
  have done : choose l.egress c = u := by
    rw [run, chooseAgain_primary fuel (by rw [drop.egress]; exact opened') primary unreleased stream'' leg'', left]
    exact congrArg (afterTry l.egress speed.factor fuel o y'.desc u) nothing
  rw [done] at around
  have which : d = 8 ∨ d = 9 := by
    rcases fails.2.2 with ⟨-, -, rfl⟩ | ⟨-, -, -, rfl⟩
    · exact .inr rfl
    · exact .inl rfl
  refine ⟨?_, ?_, ?_, ?_, ?_⟩
  · rw [around_egress around, drop.egress, egress]
  · rw [around_slotOf around, slotOf_leg leg'', left]
  · rw [around_row around, drop.legCounters, upd_get, if_pos rfl, rows]
  · obtain ⟨report, reportTotal, inbox⟩ := drop.inbox
    have counters : v.deviceCounters = s.deviceCounters :=
      (congrArg State.deviceCounters around.only :).trans ((congrArg State.deviceCounters drop.rest :).trans device)
    have before : reportsOf d c.fault.inbox = 0 := by rw [reports d which, quiet]; rfl
    rw [takeReports_deviceCounters, around.reports d which, inbox, reportsOf_append, reportsOf_cons, reportsOf_nil, reportTotal,
      before, counters, if_pos rfl]
    rfl
  · have buffer : (takeReports v).buffer = u.buffer := (takeReports_buffer v).trans (congrArg State.buffer around.only :)
    rw [State.frame, buffer]
    exact drop.head head

end

/-! ### The statement -/

/-- The event of a good frame of an ACTIVE stream that is no longer than its Lmax. -/
theorem exec_frameEnd_stream (good : FrameIsGood s p f start) (stream : s.streams[n] = some x)
    (key : x.desc.key = ⟨p, frameDest f, frameVlan f⟩)
    (once : ∀ (i : StreamNo) (y : Stream), s.streams[i] = some y → y.desc.key = x.desc.key → i = n)
    (active : x.stage = .active) (fits : f.bytes.length ≤ x.desc.lmax) :
    exec (.frameEnd p f) s = .next (takeReports (motionArrival p start n x f (arrivedState p s))) := by
  rw [exec_frameEnd_good good, classify_stream start stream key once, if_pos active, if_neg (Nat.not_lt.2 fits)]

/-- Settles O49: what becomes of the frame, by the stream's stage, its length, its legs and the storage check. -/
theorem streamFrameFollowsTheLegStates : Obligations.StreamFrameFollowsTheLegStates := by
  unfold Obligations.StreamFrameFollowsTheLegStates
  intro s p f start n x good ok stream key once apart cells count dropped live roomy stored
  have quiet := good.noReports
  refine ⟨fun active long => ?_, fun active fits dead => ?_, fun active fits some_ refused => ?_,
    fun active fits some_ few room settled => ?_, fun active fits few room l single space free => ?_, fun inactive => ?_⟩
  · have run : exec (.frameEnd p f) s = .next (takeReports (streamOversize p n (arrivedState p s))) := by
      rw [exec_frameEnd_good good, classify_stream start stream key once, if_pos active, if_pos long]
    exact ⟨_, run, oversize_dropped quiet n⟩
  · obtain ⟨buffer, streams, matched, rows⟩ := dead_arrival (s := s) (p := p) (n := n) apart dead
    refine ⟨_, (exec_frameEnd_stream good stream key once active fits).trans (by rw [motionArrival_dead start dead]), buffer,
      streams, matched, fun l mem => dead_counters fun k _ counter => rows l mem k counter⟩
  · exact ⟨_, (exec_frameEnd_stream good stream key once active fits).trans
      (by rw [motionArrival_refused start some_ refused]), refused_arrival quiet apart⟩
  · obtain ⟨y, h⟩ := stored_arrival (p := p) (f := f) (start := start) ok stream apart some_ few room settled
    refine ⟨_, y, (exec_frameEnd_stream good stream key once active fits).trans (by rw [motionArrival_stored some_ few room]),
      h.stream, h.matched, h.egress, ?_, fun l mem => ⟨dead_counters fun k off counter => ?_, fun on space => ?_,
        fun on full latest => ?_, fun on full sequenced => ?_⟩, fun plain => ?_, h.single⟩
    · rw [h.legs]
      refine List.map_congr_left fun l _ => ?_
      unfold arrivedLeg
      cases x.desc.handling <;> rfl
    · rw [h.rows l mem, arrivalCounter, isLive_false off, counter]; rfl
    · have none : arrivalCounter x.desc l = none := by
        rw [arrivalCounter, if_pos (show isLive l = true from on), if_pos (show hasSpace x.desc l = true from space)]
      rw [h.rows l mem, none]; rfl
    · have five : arrivalCounter x.desc l = some 5 := by
        rw [arrivalCounter, if_pos (show isLive l = true from on), show hasSpace x.desc l = false from full, latest]; rfl
      show _ = Table.upd _ 5 satInc
      rw [h.rows l mem, five]; rfl
    · have four : arrivalCounter x.desc l = some 4 := by
        rw [arrivalCounter, if_pos (show isLive l = true from on), show hasSpace x.desc l = false from full, sequenced]; rfl
      show _ = Table.upd _ 4 satInc
      rw [h.rows l mem, four]; rfl
    · have holds := h.plain fun l mem on => plain.elim (fun all => .inl (all l mem on)) .inr
      have alive := holds.alive
      rw [h.stream, Option.map_some, Option.some.injEq] at alive
      refine ⟨holds.beFree, fun pos => ⟨?_, ?_, ?_⟩, fun zero => ⟨?_, ?_, ?_⟩⟩
      · exact holds.frame.trans (if_pos pos)
      · exact alive.trans (if_pos pos)
      · exact holds.motionFree.trans (if_pos pos)
      · exact holds.frame.trans (if_neg (Nat.not_lt.2 (Nat.le_of_eq zero)))
      · exact alive.trans (if_neg (Nat.not_lt.2 (Nat.le_of_eq zero)))
      · exact holds.motionFree.trans (if_neg (Nat.not_lt.2 (Nat.le_of_eq zero)))
  · have here : l ∈ x.legs.filter isLive := by
      rw [show x.legs.filter isLive = [l] from single]; exact List.mem_singleton_self l
    obtain ⟨mem, on⟩ := List.mem_filter.1 here
    have some_ : ∃ l ∈ x.legs, l.state = some .live := ⟨l, mem, isLive_iff.1 on⟩
    have leg : s.leg n l.egress = some l := by rw [leg_eq_bare, bare, stream]; exact find_leg apart mem
    have run := (exec_frameEnd_stream good stream key once active fits).trans (by rw [motionArrival_stored some_ few room])
    obtain ⟨c, behind, egress, device, reports, rows, slots, frame, around⟩ :=
      single_arrival (p := p) (f := f) (start := start) ok stream apart single (of_decide_eq_true space)
    exact ⟨fun k r rest v begins => ⟨_, run, single_bestEffort behind egress slots around free begins⟩,
      fun o y z r rest v begins => ⟨_, run, single_motion behind egress rows slots leg around free begins⟩,
      fun o a v k d up idle opened primary unreleased own sent within slot fails => ⟨_, run, single_drop behind egress device
        reports quiet rows slots frame stream leg around free up idle opened primary unreleased own sent within slot fails⟩⟩
  · have run : exec (.frameEnd p f) s =
        .next (takeReports (bestEffort p start f (bumpStream n .unreserved (arrivedState p s)))) := by
      rw [exec_frameEnd_good good, classify_stream start stream key once, if_neg inactive]
    exact ⟨_, run, unreserved_pass p start f n s⟩

end

end Sys2Proof.MotionLaws
end
